-- ==== Sys2Proof/Word.lean ====
section
/-! DEFINITION. The word types of the LM-1024 register and memory formats (R4: little-endian, bit 0 least significant). -/
namespace Sys2Proof

/-- One byte. -/
abbrev Byte := BitVec 8
/-- A 32-bit configuration-space register or synapse-store word. -/
abbrev Word := BitVec 32
/-- A 64-bit register pair, EVT64 or header word. -/
abbrev DWord := BitVec 64

end Sys2Proof
end

