-- ==== Sys2Proof/Syntax.lean ====
section
/-! DEFINITION. The commands of the block: one constructor per row of spec/opcode_table.json. The table gives a row no bits;
the operands are what a requester, a packet, a pin or an elapsed duration brings with the command. -/
namespace Sys2Proof

/-- A cluster number, a core slot, an instance, a Jarisk port, an event port. -/
abbrev Cl := Fin 64
abbrev Sl := Fin 17
abbrev InstNo := Fin 16
abbrev JPort := Fin 12
abbrev EPort := Fin 2

/-- Who makes a configuration or window access (R16, R331, R364): the physical function, the virtual function of an
instance, the management processor, the fabric manager. -/
inductive Req where
  | pf | vf (i : InstNo) | mp | fm
deriving DecidableEq, Repr

/-- An event as it reaches a core's data port: EVT64 and the header fields of R54 and R223. -/
structure EvtIn where
  ev : DWord
  hpar : Bool
  sstep5 : BitVec 5
  scl : BitVec 6
  rem : Bool
  rank : BitVec 12
  inst : BitVec 4
deriving DecidableEq, Repr

/-- A queue descriptor packet (R258); `rsv` when a reserved field is not 0, `post` the PCID of the core that posted it as a
chained entry. -/
structure QdescIn where
  qop : BitVec 2
  qid : BitVec 18
  count : BitVec 10
  rsv : Bool
  words : List Word
  inst : BitVec 4
  gen : BitVec 8
  tag : BitVec 12
  sep : Byte
  post : Option (Fin 2048)
deriving DecidableEq, Repr

/-- A consumer of queue entries (Table 8-1). -/
inductive Engine where
  | dense | move | gather
deriving DecidableEq, Repr

/-- What a shared-slice request asks (R258). -/
inductive SlOp where
  | rd (nbm1 : Byte)
  | wr (data : List Byte)
  | atomic (aop : BitVec 4) (opnd : DWord)
  /-- A write out of the outbound buffer of the queue unit of core `pcid` (R267); `reset` when that core has been reset since. -/
  | unit (pcid : Nat) (reset : Bool) (data : List Byte)
deriving DecidableEq, Repr

/-- A request at a shared slice: source endpoint, the instance it carries (none: physical function or management
processor), device address, generation and tag. -/
structure SlReq where
  sep : Byte
  who : Option InstNo
  addr : BitVec 48
  gen : Byte
  tag : BitVec 12
deriving DecidableEq, Repr

/-- A lane of the data network (R238), between a leaf and a spine, of a cluster port, of a one-lane endpoint; or a hop of the sync
network (R246): of a cluster agent, of a sync node, of a partition node, of a port at the root. -/
inductive Lane where
  | spine (leaf sp : Fin 16)
  | cluster (c : Cl) (n : Fin 2)
  | endpoint (e : Byte)
  | syncAgent (c : Cl)
  | syncNode (n : Fin 16)
  | syncPart (p : Fin 4)
  | syncPort (e : Byte)
deriving DecidableEq, Repr
/-- A unit that sends messages up the sync tree (R246); a sync node as the unit that captures for its leaf (R495). -/
inductive SyncUnit where
  | cluster (c : Cl)
  | node (n : Fin 16)
  | jlk (p : JPort)
  | host
  | eth (p : EPort)
deriving DecidableEq, Repr
/-- A source event that reaches the timers from outside (Table 6-4): a cycle of AONCLK, an edge of SYNC_IN to the level given. -/
inductive TmrSource where
  | aonclk
  | syncIn (high : Bool)
deriving DecidableEq, Repr
/-- Why a receiver takes a lane as failing (R299): the CDR lost lock, too many corrected symbols, the heater at a limit for 10 ms, the laser
of its wavelength failed in both banks. -/
inductive LaneFault where
  | cdr | symbols | heater | laser
deriving DecidableEq, Repr
/-- What a core reports to its cluster agent (R444, R410): an uncorrectable core SRAM word (FAULT is set), pipeline parity, a
pointer parity error of a queue, or an array with no runtime spare left. -/
inductive CoreRep where
  | sram | pipeline | queuePtr (n : Fin 64) | spares
deriving DecidableEq, Repr

/-- A memory window access of R15: a read of `n` bytes, or a write of the bytes. -/
inductive WinOp where
  | rd (n : Nat)
  | wr (data : List Byte)
deriving DecidableEq, Repr

/-- What an egress binding binds: the host port for an instance, or an event port (R342). -/
inductive EgrBind where
  | host (i : InstNo) | eth (p : EPort)
deriving DecidableEq, Repr

/-- An SRAM array of Table 12-7: of a core, a segment or the journal of a cluster, a bank of a shared slice, or of the management
SRAM. -/
inductive RepArr where
  | sram (c : Cl) (k : Sl) (a : Fin 10)
  | seg (c : Cl) (g : Sl) (a : Fin 48)
  | jrn (c : Cl) (a : Fin 8)
  | slice (x : Fin 64) (b : Fin 17)
  | mgmt (a : Fin 16)
deriving DecidableEq, Repr

/-- What a march test finds (R408): slots, segments and clusters' journals that need more spares than they have, and the arrays
in which a column fails, so that each takes a new runtime spare. -/
structure March where
  slots : List (Cl × Sl)
  segs : List (Cl × Sl)
  jrns : List Cl
  spares : List RepArr
deriving DecidableEq, Repr

/-- What the units of the device find while it comes up (R390–R394, R408, R461): firmware components whose current and whose
last-known-good image fails its checks, processors that do not start, a hub or sync root that fails its test, lanes with CRC
errors, supervisors and agents that never take their image, the march test, slice banks that fail, LPDDR5X training. -/
structure Boot where
  curBad : List (Fin 4)
  lkgBad : List (Fin 4)
  mpA : Bool
  mpB : Bool
  hub : Bool
  lanes : List Lane
  bands : List (Fin 8)
  agents : List Cl
  march : March
  banks : List (Fin 64 × Fin 16)
  mem : Bool
deriving DecidableEq, Repr


/-- A power rail (R436). -/
inductive Rail where
  | aon | mgt | net | lnk | eth | host | mem
  | cluster (c : Cl) | syn (c : Cl)
deriving DecidableEq, Repr

/-- An SPDM, IDE_KM or TDISP request that has no row of its own (R466, Table 15-3), with the secured session it comes in. `idx` 0
asks for the number of measurements and 0xFF for all; `other` is any request the table does not name. -/
inductive SpdmReq where
  | version | capabilities | algorithms | other
  | digests
  | certificate (slot : Fin 8) (off len : BitVec 16)
  | challenge (slot : Fin 8) (nonce : List Byte)
  | measurements (sess : Option Nat) (idx : Byte) (sign : Bool) (nonce : List Byte)
  | keyExchange (slot : Fin 8)
  | finish (sess : Nat)
  | heartbeat (sess : Nat)
  | keyUpdate (sess : Nat)
  | endSession (sess : Nat)
  | ideProg (sess : Nat) (stream : Fin 4) (set : Bool)
  | ideGo (sess : Nat) (stream : Fin 4) (tee : Bool) (vfs : List InstNo)
  | ideStop (sess : Nat) (stream : Fin 4)
  | tdiState (sess : Nat) (i : InstNo)
deriving DecidableEq, Repr
/-- The commands of spec/opcode_table.json; each constructor's line gives its mnemonic and its rule. -/
inductive Instr where
  /-- REGISTER_WRITE (R6). -/
  | registerWrite (q : Req) (a v : Word)
  /-- UNOCCUPIED_OFFSET_ACCESS (R8). -/
  | unoccupiedOffsetAccess (q : Req) (a : Word) (w : Option Word)
  /-- RC_READ (R9). -/
  | rcRead (q : Req) (a : Word) (n : Fin 3)
  /-- NARROW_WRITE (R10). -/
  | narrowWrite (q : Req) (a : Word) (n : Fin 3) (v : Word)
  /-- UNALIGNED_ACCESS (R11). -/
  | unalignedAccess (q : Req) (a : Word) (n : Fin 8) (w : Option DWord)
  /-- PAIR_ATOMIC_ACCESS (R12). -/
  | pairAtomicAccess (q : Req) (a : Word) (w : Option DWord)
  /-- PAIR_LOW_READ (R13). -/
  | pairLowRead (q : Req) (a : Word)
  /-- PAIR_HIGH_READ (R13). -/
  | pairHighRead (q : Req) (a : Word)
  /-- PAIR_LOW_WRITE (R13). -/
  | pairLowWrite (q : Req) (a v : Word)
  /-- PAIR_HIGH_WRITE (R13). -/
  | pairHighWrite (q : Req) (a v : Word)
  /-- SPLIT_64_ACCESS (R14). -/
  | split64Access (q : Req) (a : Word) (w : Option DWord)
  /-- MEMORY_WINDOW_ACCESS (R15). -/
  | memoryWindowAccess (q : Req) (a : BitVec 48) (o : WinOp)
  /-- CROSS_INSTANCE_REFUSAL (R20). -/
  | crossInstanceRefusal (q : Req) (a : Word) (w : Option Word)
  /-- CLR_LAST (R47). -/
  | clrLast (q : Req) (v : Word)
  /-- BAND_SUPERVISOR_FAIL (R28). -/
  | bandSupervisorFail (b : Fin 8)
  /-- SEGMAP_WRITE (R89). -/
  | segmapWrite (q : Req) (c : Cl) (k : Sl) (v : Word)
  /-- SEGMAP_CHANGE_END (R90). -/
  | segmapChangeEnd (c : Cl)
  /-- CORE_EVENT_ARRIVAL (R54). -/
  | coreEventArrival (c : Cl) (e : EvtIn)
  /-- PEND_BLOCK_FREE_RESUME (R58). -/
  | pendBlockFreeResume (c : Cl) (k : Sl) (waited : Word)
  /-- PEND_CLOSEUP_END (R59). -/
  | pendCloseupEnd (c : Cl) (k : Sl) (slot : Fin 16)
  /-- CORE_STEP_OPEN (R79). -/
  | coreStepOpen (c : Cl) (k : Sl) (t : BitVec 48)
  /-- SYNAPSE_WALK_END (R67). -/
  | synapseWalkEnd (c : Cl) (k : Sl) (feed held : Word)
  /-- EMITTER_SEND (R76). -/
  | emitterSend (c : Cl) (k : Sl)
  /-- CORE_DONE (R79). -/
  | coreDone (c : Cl) (k : Sl)
  /-- CORE_STEP_CLOSE (R110). -/
  | coreStepClose (c : Cl) (k : Sl)
  /-- CORE_STEP_COMMIT (R111). -/
  | coreStepCommit (c : Cl) (k : Sl) (closeExtra : Word)
  /-- CORE_IDLE_TIMEOUT (R83). -/
  | coreIdleTimeout (c : Cl) (k : Sl)
  /-- CORE_HALT (R83). -/
  | coreHalt (q : Req) (c : Cl) (k : Sl) (v : Word)
  /-- CORE_RELEASE (R74). -/
  | coreRelease (q : Req) (c : Cl) (k : Sl) (v : Word)
  /-- CORE_SRAM_WINDOW_ACCESS (R51). -/
  | coreSramWindowAccess (q : Req) (p : Fin 2048) (off : BitVec 18) (o : WinOp)
  /-- SEGMENT_WINDOW_ACCESS (R92). -/
  | segmentWindowAccess (q : Req) (c : Cl) (g : Fin 32) (off : BitVec 21) (o : WinOp)
  /-- CORE_CNT_CLR (R86). -/
  | coreCntClr (q : Req) (c : Cl) (k : Sl) (v : Word)
  /-- POOL_INIT (R118). -/
  | poolInit (q : Req) (c : Cl) (k : Sl) (v : Word)
  /-- POOL_FORMAT_DONE (R118). -/
  | poolFormatDone (c : Cl) (k : Sl)
  /-- MAC_TAKE_QUEUED (R183). -/
  | macTakeQueued (c : Cl) (k : Sl)
  /-- MAC_DESC_COMPLETE (R184). -/
  | macDescComplete (c : Cl) (k : Sl) (feed held : Word)
  /-- STAT_REDUCE_GO (R187). -/
  | statReduceGo (q : Req) (v : Word)
  /-- STAT_CAPTURE (R187). -/
  | statCapture (i : InstNo)
  /-- STAT_REDUCE_COMPLETE (R187). -/
  | statReduceComplete (i : InstNo)
  /-- CLUSTER_OPEN_RELEASE (R192). -/
  | clusterOpenRelease (c : Cl)
  /-- CLUSTER_CLOSE_RELEASE (R440). -/
  | clusterCloseRelease (c : Cl)
  /-- BARRIER_COMPLETE (R194). -/
  | barrierComplete (i : InstNo)
  /-- BARRIER_TIMEOUT (R198). -/
  | barrierTimeout (i : InstNo)
  /-- TIMED_TICK (R199). -/
  | timedTick (i : InstNo)
  /-- HELD_TICK_RELEASE (R200). -/
  | heldTickRelease (i : InstNo)
  /-- INSTANCE_COMMIT (R191). -/
  | instanceCommit (i : InstNo)
  /-- STEP_START (R202). -/
  | stepStart (q : Req) (i : InstNo) (v : Word)
  /-- STEP_STOP (R203). -/
  | stepStop (q : Req) (i : InstNo) (v : Word)
  /-- TIME_REF_LOSS (R205). -/
  | timeRefLoss
  /-- TIME_REF_RETURN (R205). -/
  | timeRefReturn
  /-- TIME_ADJ_WRITE (R208). -/
  | timeAdjWrite (q : Req) (v : DWord)
  /-- TIME_SLEW_DONE (R208). -/
  | timeSlewDone
  /-- TIME_RATE_WRITE (R207). -/
  | timeRateWrite (q : Req) (v : Word)
  /-- TIME_OFFSET_TIMEOUT (R210). -/
  | timeOffsetTimeout
  /-- PPS_IN_EDGE (R211). -/
  | ppsInEdge
  /-- PPS_MISS (R211). -/
  | ppsMiss
  /-- PPS_OUT_RISE (R212). -/
  | ppsOutRise
  /-- PPS_OUT_FALL (R212). -/
  | ppsOutFall
  /-- TIMER_SOURCE_EVENT (R214). -/
  | timerSourceEvent (e : TmrSource)
  /-- TIMER_COMPARE_FIRE (R215). -/
  | timerCompareFire (n : Fin 8) (cmp : Bool)
  /-- TIMER_CLR (R217). -/
  | timerClr (q : Req) (n : Fin 8) (v : Word)
  /-- TMR_COUNT_WRITE (R217). -/
  | tmrCountWrite (q : Req) (n : Fin 8) (v : DWord)
  /-- TMR_OWN_WRITE (R218). -/
  | tmrOwnWrite (q : Req) (n : Fin 8) (v : Word)
  /-- SWITCH_PACKET_RECEIVE (R223). -/
  | switchPacketReceive (sw : Fin 16) (isSpine up : Bool) (sp : Fin 16) (seq : Byte) (resent : Option (Fin 16)) (phys : Bool) (hdr : DWord) (body : List DWord)
      (second : Option (DWord × DWord))
  /-- EDGE_EVENT_INJECT (R228). -/
  | edgeEventInject (ep : Byte) (e : EvtIn)
  /-- HOP_RETRY_REQUEST (R238). -/
  | hopRetryRequest (l : Lane) (up : Bool) (data : BitVec 256) (valid : BitVec 2) (crc : BitVec 16)
  /-- SPINE_FAILURE (R240). -/
  | spineFailure (sp : Fin 16)
  /-- SPINE_ACK (R239). -/
  | spineAck (leaf sp dst : Fin 16) (seq : Byte)
  /-- DNET_STALL_TIMEOUT (R237). -/
  | dnetStallTimeout (o : Fin 832) (vc : Fin 4)
  /-- CONTROL_TIMEOUT (R243). -/
  | controlTimeout (q : Req)
  /-- MULTICAST_WRITE (R245). -/
  | multicastWrite (q : Req) (bands cols : Byte) (o : BitVec 18) (v : Word)
  /-- SYNC_DONE (R248). -/
  | syncDone (c : Cl) (w0 w1 : DWord)
  /-- SYNC_ADV (R192). -/
  | syncAdv (relayed : Bool) (w0 w1 : DWord)
  /-- SYNC_MEAS_NOW (R250). -/
  | syncMeasNow (w0 w1 : DWord)
  /-- SYNC_MEAS_STEP (R250). -/
  | syncMeasStep (w0 w1 : DWord)
  /-- SYNC_MEAS_TIME (R250). -/
  | syncMeasTime (w0 w1 : DWord)
  /-- SYNC_MEAS_ACK (R498). -/
  | syncMeasAck (u : SyncUnit) (w0 w1 : DWord)
  /-- SYNC_RBK (R249). -/
  | syncRbk (w0 w1 : DWord)
  /-- SYNC_RBK_ACK (R249). -/
  | syncRbkAck (u : SyncUnit) (w0 w1 : DWord)
  /-- SYNC_STAT_RSP (R187). -/
  | syncStatRsp (c : Cl) (w0 w1 : DWord)
  /-- SYNC_GATHER (R273). -/
  | syncGather (w0 w1 : DWord)
  /-- FENCE_RECEIVE (R249). -/
  | fenceReceive (ep frm : Byte) (i : InstNo)
  /-- FENCE_ACK_RECEIVE (R249). -/
  | fenceAckReceive (dst frm : Byte)
  /-- CMAP_PERIOD_END (R251). -/
  | cmapPeriodEnd (occ : List Byte)
  /-- DNET_CNT_CLR (R253). -/
  | dnetCntClr (q : Req) (v : Word)
  /-- QDESC_ENQ (R259). -/
  | qdescEnq (c : Cl) (k : Sl) (d : QdescIn)
  /-- QDESC_DOORBELL (R259). -/
  | qdescDoorbell (c : Cl) (k : Sl) (d : QdescIn)
  /-- QDESC_HOLD (R262). -/
  | qdescHold (c : Cl) (k : Sl) (d : QdescIn)
  /-- QDESC_RELEASE (R262). -/
  | qdescRelease (c : Cl) (k : Sl) (d : QdescIn)
  /-- QUEUE_INPUT_UNBLOCK (R260). -/
  | queueInputUnblock (c : Cl) (k : Sl)
  /-- TENANT_CONTROL_EVENT (R261). -/
  | tenantControlEvent (c : Cl) (k : Sl)
  /-- QUEUE_ENTRY_TAKE (R263). -/
  | queueEntryTake (c : Cl) (k : Sl) (e : Engine)
  /-- GATHER_ROUND_TIMEOUT (R271). -/
  | gatherRoundTimeout (c : Cl) (k : Sl) (g : Fin 4)
  /-- GATHER_EVENT (R273). -/
  | gatherEvent (c : Cl) (k : Sl)
  /-- QUEUE_ENTRY_COMPLETE (R264). -/
  | queueEntryComplete (c : Cl) (k : Sl) (e : Engine)
  /-- QUEUE_WATCHDOG_EXPIRE (R266). -/
  | queueWatchdogExpire (c : Cl) (k : Sl) (n : Fin 64) (starve : Bool)
  /-- Q_DBG_CAPTURE (R266). -/
  | qDbgCapture (q : Req) (c : Cl) (k : Sl) (v : Word)
  /-- SLICE_RD_REQ (R276). -/
  | sliceRdReq (r : SlReq) (nbm1 : Byte) (waits : Bool)
  /-- SLICE_WR_REQ (R276). -/
  | sliceWrReq (r : SlReq) (data : List Byte) (waits : Bool)
  /-- SLICE_ATOMIC (R279). -/
  | sliceAtomic (r : SlReq) (aop : BitVec 4) (opnd : DWord) (waits : Bool)
  /-- SHM_LINE_TEST (R280). -/
  | shmLineTest (sl : Fin 64) (bad : Bool) (wait : Word) (fetch : Option (BitVec 25))
  /-- SHM_SPARE_COPY_DONE (R282). -/
  | shmSpareCopyDone (sl : Fin 64)
  /-- SHM_CLR_GO (R283). -/
  | shmClrGo (q : Req) (v : Word)
  /-- SHM_CLR_DONE (R283). -/
  | shmClrDone
  /-- SHM_CNT_CLR (R283). -/
  | shmCntClr (q : Req) (v : Word)
  /-- LCF_RECEIVE (R294): the codewords that arrive, up to the one that carries the LCF; of each, the PAM4 levels of the nine
  wavelengths. -/
  | lcfReceive (p : JPort) (cws : List (List (List (Fin 4))))
  /-- LANE_FAILING (R299). -/
  | laneFailing (p : JPort) (lane : Fin 8) (why : LaneFault)
  /-- LCMD_SWAP (R300). -/
  | lcmdSwap (p : JPort)
  /-- LCMD_SWAP_ACK (R300). -/
  | lcmdSwapAck (p : JPort)
  /-- LCMD_NARROW (R301). -/
  | lcmdNarrow (p : JPort)
  /-- LCMD_NARROW_ACK (R301). -/
  | lcmdNarrowAck (p : JPort)
  /-- LANE_CHANGE_AT_CWN (R300). -/
  | laneChangeAtCwn (p : JPort)
  /-- LCMD_SLEEP_REQ (R305). -/
  | lcmdSleepReq (p : JPort)
  /-- LCMD_SLEEP_ACK (R305). -/
  | lcmdSleepAck (p : JPort)
  /-- JLK_ENABLE (R302). -/
  | jlkEnable (q : Req) (p : JPort) (v : Word)
  /-- JLK_DISABLE (R302). -/
  | jlkDisable (q : Req) (p : JPort) (v : Word)
  /-- PEER_DETECTED (R302). -/
  | peerDetected (p : JPort) (wls : BitVec 9)
  /-- TRAIN_COMPLETE (R303). -/
  | trainComplete (p : JPort) (good peer : BitVec 9) (faddr : BitVec 16) (port : BitVec 4)
  /-- TRAIN_TIMEOUT (R302). -/
  | trainTimeout (p : JPort)
  /-- QUALIFY_END (R304). -/
  | qualifyEnd (p : JPort)
  /-- RETRAIN_DELAY_END (R302). -/
  | retrainDelayEnd (p : JPort)
  /-- JLK_LOS_TIMEOUT (R325). -/
  | jlkLosTimeout (p : JPort)
  /-- JLK_LCF_TIMEOUT (R325). -/
  | jlkLcfTimeout (p : JPort)
  /-- JLK_RETRAIN (R325). -/
  | jlkRetrain (q : Req) (p : JPort) (v : Word)
  /-- JLK_LDN_RECEIVE (R326). -/
  | jlkLdnReceive (p : JPort)
  /-- REROUTE_WAIT_TIMEOUT (R326). -/
  | rerouteWaitTimeout (p : JPort)
  /-- REROUTE_COMPLETE (R327). -/
  | rerouteComplete (p : JPort)
  /-- JLK_SLEEP_ENTER (R305). -/
  | jlkSleepEnter (p : JPort)
  /-- JLK_WAKE (R305). -/
  | jlkWake (p : JPort)
  /-- JLK_RELOCK_TIMEOUT (R305). -/
  | jlkRelockTimeout (p : JPort)
  /-- LASER_TAKEOVER (R306). -/
  | laserTakeover (w : Fin 9)
  /-- FITTING_TICK (R307). -/
  | fittingTick (p : JPort) (tx rx : List (Fin 3))
  /-- JLK_RANK_READ (R310). -/
  | jlkRankRead (q : Req) (v : Word)
  /-- JLK_RANK_WRITE (R310). -/
  | jlkRankWrite (q : Req) (v : Word)
  /-- JLK_ROUTE_READ (R312). -/
  | jlkRouteRead (q : Req) (v : Word)
  /-- JLK_ROUTE_WRITE (R312). -/
  | jlkRouteWrite (q : Req) (v : Word)
  /-- JLK_REMOTE_EVENT_TX (R313). -/
  | jlkRemoteEventTx (p : JPort) (e : EvtIn)
  /-- EVENT_FLIT_SEND (R291). -/
  | eventFlitSend (p : JPort)
  /-- JLK_RECORD_RECEIVE (R315): the head of a channel of the receive buffer, or a TRANSIT packet from the die. -/
  | jlkRecordReceive (p : JPort) (vc : Fin 3) (transit : Option (DWord × List DWord))
  /-- JLK_RAW_RECEIVE (R323). -/
  | jlkRawReceive (p : JPort)
  /-- JLK_RAW_SEND (R322). -/
  | jlkRawSend (p : JPort) (r : SlReq) (data : List Byte)
  /-- JLK_REMOTE_FENCE (R324). -/
  | jlkRemoteFence (p : JPort) (r : SlReq)
  /-- JLK_RFENCE_RECEIVE (R324). -/
  | jlkRfenceReceive (p : JPort)
  /-- JLK_RFDONE_RECEIVE (R324). -/
  | jlkRfdoneReceive (p : JPort)
  /-- JLK_FENCE_TIMEOUT (R324). -/
  | jlkFenceTimeout (p : JPort) (tag : Fin 32)
  /-- JLK_SYNC_RECEIVE (R318). -/
  | jlkSyncReceive (p : JPort)
  /-- JLK_RBK_TIMEOUT (R319). -/
  | jlkRbkTimeout (p : JPort) (i : InstNo)
  /-- QUENCH_RECEIVE (R320). -/
  | quenchReceive (p : JPort)
  /-- QUENCH_LEASE_EXPIRE (R320). -/
  | quenchLeaseExpire (tgt : Option (BitVec 16)) (i : InstNo)
  /-- FM_RECEIVE (R321). -/
  | fmReceive (p : JPort)
  /-- SRM_RECEIVE (R321). -/
  | srmReceive (p : JPort)
  /-- JLK_CNT_CLR (R331). -/
  | jlkCntClr (q : Req) (p : JPort) (v : Word)
  /-- BAR2_TLP (R334). -/
  | bar2Tlp (f : Fin 17) (x : BitVec 39) (o : WinOp) (link : Fin 3)
  /-- FLR_VF (R336). -/
  | flrVf (i : InstNo)
  /-- FLR_PF (R336). -/
  | flrPf
  /-- RING_ENABLE (R338). -/
  | ringEnable (q : Req) (f : Fin 17) (k : Fin 8) (v : Word)
  /-- HOST_DOORBELL (R339). -/
  | hostDoorbell (f : Fin 17) (k : Fin 8) (size : Nat) (v : Word)
  /-- RING_MOD_TIMER (R340). -/
  | ringModTimer (f : Fin 17) (k : Fin 8)
  /-- HOST_EV_ENTRY (R341). -/
  | hostEvEntry (f : Fin 17) (k : Fin 8) (w0 w1 : DWord)
  /-- HOST_EV_RING_RESUME (R341). -/
  | hostEvRingResume (f : Fin 17) (k : Fin 8)
  /-- EGRESS_BIND (R342). -/
  | egressBind (q : Req) (b : EgrBind) (v : Word)
  /-- EGRESS_EVENT_ARRIVE (R343). -/
  | egressEventArrive (e : Fin 3) (v : EvtIn)
  /-- EGRESS_RELEASE (R344). -/
  | egressRelease (i : InstNo)
  /-- ETH_FRAME_RECEIVE (R347). -/
  | ethFrameReceive (p : EPort) (frame : List Byte) (fcs : Bool) (ts : DWord)
  /-- ETH_PAUSE_RECEIVE (R346). -/
  | ethPauseReceive (p : EPort) (quanta : BitVec 16)
  /-- ENCODER_RUN (R350). -/
  | encoderRun (p : EPort)
  /-- ENC_ENABLE (R353). -/
  | encEnable (q : Req) (p : EPort) (v : Word)
  /-- DATAGRAM_FLUSH_TIMEOUT (R356). -/
  | datagramFlushTimeout (p : EPort)
  /-- ETH_CNT_CLR (R364). -/
  | ethCntClr (q : Req) (p : EPort) (v : Word)
  /-- HOST_CNT_CLR (R364). -/
  | hostCntClr (q : Req) (v : Word)
  /-- MEMC_WIN_WRITE (R358). -/
  | memcWinWrite (q : Req) (i : InstNo) (v : Word)
  /-- MEMC_SCRUB_GO (R360). -/
  | memcScrubGo (q : Req) (i : InstNo) (v : Word)
  /-- MEMC_SCRUB_DONE (R360). -/
  | memcScrubDone (i : InstNo)
  /-- BULK_DESC_START (R361). -/
  | bulkDescStart (f : Fin 17) (k : Fin 8) (words : List Word)
  /-- BULK_DESC_COMPLETE (R361). -/
  | bulkDescComplete (n : Fin 16) (host : List Byte) (bad : Option Nat) (link : Fin 3)
  /-- PAT_LOAD (R374). -/
  | patLoad (q : Req) (v : Word)
  /-- PAT_VERIFY (R377). -/
  | patVerify (q : Req) (v : Word)
  /-- PAT_STORE (R384). -/
  | patStore (q : Req) (v : Word)
  /-- PAT_UNLOAD (R382). -/
  | patUnload (q : Req) (v : Word)
  /-- PAT_ERASE (R384). -/
  | patErase (q : Req) (v : Word)
  /-- PAT_REQUEST_START (R373). -/
  | patRequestStart
  /-- PAT_SIGNATURE_DONE (R465). -/
  | patSignatureDone
  /-- PAT_AUTO_WRITE (R388). -/
  | patAutoWrite
  /-- AUTO_LOAD_START (R386). -/
  | autoLoadStart
  /-- POWER_ON (R390); the levels of SB_ADDR[2:0] (R518). -/
  | powerOn (onB : Bool) (addr : Fin 8) (b : Boot)
  /-- DEVICE_RESET (R397). -/
  | deviceReset (cause : Fin 6) (b : Boot)
  /-- DEVICE_RESET_REQUEST (R414). -/
  | deviceResetRequest (q : Req) (v : Word)
  /-- READY_GATE (R395). -/
  | readyGate
  /-- BOOT_PORT_DARK_TIMEOUT (R395). -/
  | bootPortDarkTimeout (p : JPort)
  /-- CORE_RESET (R398). -/
  | coreReset (q : Req) (c : Cl) (v : Word)
  /-- CLUSTER_RESET (R400). -/
  | clusterReset (q : Req) (c : Cl) (v : Word) (bad : Bool)
  /-- PARTITION_RESET (R401). -/
  | partitionReset (q : Req) (v : Word)
  /-- PARTITION_DRAIN_TIMEOUT (R401). -/
  | partitionDrainTimeout (p : Fin 4)
  /-- PARTITION_RESET_REPORT (R401). -/
  | partitionResetReport (p : Fin 4) (row : Fin 4)
  /-- MGT_RESET (R403). -/
  | mgtReset (q : Req) (v : Word)
  /-- MP_EXCEPTION (R404). -/
  | mpException
  /-- RUNTIME_REPAIR_START (R409). -/
  | runtimeRepairStart (a : RepArr) (inFetch : Bool)
  /-- RUNTIME_REPAIR_DONE (R409). -/
  | runtimeRepairDone (a : RepArr)
  /-- DOZE_ENTRY (R420). -/
  | dozeEntry (c : Cl) (abort : Fin 3)
  /-- CLUSTER_WAKE (R423). -/
  | clusterWake (c : Cl)
  /-- CLUSTER_PLL_LOCK (R423). -/
  | clusterPllLock (c : Cl)
  /-- CLK_CL_SW (R424). -/
  | clkClSw (q : Req) (v : Word)
  /-- CLOCK_SWITCH_POINT (R424). -/
  | clockSwitchPoint (c : Cl)
  /-- CLOCK_REF_LOSS (R426). -/
  | clockRefLoss (r156 : Bool)
  /-- CLOCK_REF_RETURN (R426). -/
  | clockRefReturn (r156 : Bool)
  /-- PWR_REQ_ON (R430). -/
  | pwrReqOn (q : Req) (v : Word)
  /-- PWR_REQ_OFF_LOGIC (R428). -/
  | pwrReqOffLogic (q : Req) (v : Word)
  /-- PWR_REQ_OFF (R428). -/
  | pwrReqOff (q : Req) (v : Word)
  /-- PWR_DRAIN_END (R428). -/
  | pwrDrainEnd (d : BitVec 7) (row : Fin 4)
  /-- PWR_DRAIN_TIMEOUT (R429). -/
  | pwrDrainTimeout (d : BitVec 7)
  /-- PWR_JOIN_END (R430). -/
  | pwrJoinEnd (d : BitVec 7) (row : Fin 4) (m : March) (agents : List Cl)
  /-- PWR_STANDBY (R431). -/
  | pwrStandby (q : Req) (v : Word)
  /-- STANDBY_WAKE (R433). -/
  | standbyWake (src : Fin 6) (b : Boot)
  /-- FEED_BAD (R434). -/
  | feedBad (isB : Bool)
  /-- FEED_SWITCH_BACK (R434). -/
  | feedSwitchBack
  /-- POWER_LOSS (R435). -/
  | powerLoss
  /-- HOLDUP_EXHAUSTED (R435). -/
  | holdupExhausted
  /-- RAIL_FAULT (R436). -/
  | railFault (r : Rail) (b : Boot)
  /-- CLUSTER_REWIND_START (R445). -/
  | clusterRewindStart (c : Cl) (k : Sl) (why : CoreRep)
  /-- CORE_HANG_TIMEOUT (R444). -/
  | coreHangTimeout (c : Cl) (k : Sl)
  /-- SEGMENT_MIGRATION_START (R447). -/
  | segmentMigrationStart (c : Cl) (g : Sl)
  /-- MIGRATION_COPY_DONE (R447). -/
  | migrationCopyDone (c : Cl)
  /-- DUP_LOGIC_MISMATCH (R456). -/
  | dupLogicMismatch (unit : Byte) (explained : Bool)
  /-- RAS_FREC_SELECT (R460). -/
  | rasFrecSelect (q : Req) (v : Word)
  /-- SPDM_REQUEST (R466). -/
  | spdmRequest (r : SpdmReq)
  /-- CLAIM (R467). -/
  | claim (sess : Nat) (i : InstNo) (token : List Byte)
  /-- SET_PATTERN_KEY (R466). -/
  | setPatternKey (sess : Nat) (i : InstNo) (key : List Byte)
  /-- SET_SIGN_KEY (R466). -/
  | setSignKey (sess : Nat) (i : InstNo) (key : List Byte)
  /-- GET_REPORT (R466). -/
  | getReport (sess : Nat) (i : InstNo) (nonce : List Byte)
  /-- RELEASE (R473). -/
  | release (sess : Nat) (i : InstNo)
  /-- LOCK_INTERFACE (R468). -/
  | lockInterface (sess : Nat) (i : InstNo)
  /-- START_INTERFACE (R468). -/
  | startInterface (sess : Nat) (i : InstNo)
  /-- STOP_INTERFACE (R468). -/
  | stopInterface (sess : Nat) (i : InstNo)
  /-- TDI_DESTROY (R468). -/
  | tdiDestroy (sess : Nat) (i : InstNo)
  /-- INST_CREATE (R470). -/
  | instCreate (q : Req) (v : Word)
  /-- INST_RESET (R475). -/
  | instReset (q : Req) (v : Word)
  /-- INST_CLEAR (R473). -/
  | instClear (q : Req) (v : Word)
  /-- INST_DESTROY (R473). -/
  | instDestroy (q : Req) (v : Word)
  /-- INST_FENCE_END (R476). -/
  | instFenceEnd (i : InstNo)
  /-- INST_FENCE_TIMEOUT (R476). -/
  | instFenceTimeout (i : InstNo)
  /-- INST_CLEAR_DONE (R473). -/
  | instClearDone (i : InstNo)
  /-- DEBUG_REQ (R480). -/
  | debugReq (q : Req) (v : Word)
  /-- DEBUG_GO (R480). -/
  | debugGo (q : Req) (v : Word)
  /-- SEC_PERSIST_WRITE (R481). -/
  | secPersistWrite (q : Req) (o : BitVec 11) (v : Word)
  /-- SEC_CFG_LOCK (R481). -/
  | secCfgLock (q : Req) (v : Word)
  /-- MEAS_SELECT (R462). -/
  | measSelect (q : Req) (v : Word)
  /-- EXH_CLEAR (R479). -/
  | exhClear (q : Req) (i : InstNo) (v : Word)
  /-- MP_HEARTBEAT_TIMEOUT (R483). -/
  | mpHeartbeatTimeout (expired : Nat) (b : Boot)
  /-- MP_SWAP (R483). -/
  | mpSwap (q : Req) (v : Word)
  /-- MP_SELF_ERROR (R483). -/
  | mpSelfError
  /-- MP_TAKEOVER_RESUME (R483). -/
  | mpTakeoverResume
  /-- MP_RESTART_OLD (R483). -/
  | mpRestartOld (pass : Bool)
  /-- SENSOR_SAMPLE (R486). -/
  | sensorSample (n : Fin 16) (r : Option (BitVec 16)) (held : Bool) (cmis : Fin 3)
  /-- LOG_POST (R487). -/
  | logPost (typ : Byte) (inst : Option InstNo) (body : List Word)
  /-- LOG_FILE (R489). -/
  | logFile
  /-- LOG_SELECT (R493). -/
  | logSelect (q : Req) (v : Word)
  /-- MEASURE_NOW (R494). -/
  | measureNow (q : Req) (v : Word)
  /-- MEASURE_AT_STEP (R494). -/
  | measureAtStep (q : Req) (v : Word)
  /-- MEASURE_AT_TIME (R494). -/
  | measureAtTime (q : Req) (v : Word)
  /-- MEASURE_CANCEL (R494). -/
  | measureCancel (q : Req) (v : Word)
  /-- MEASURE_ACK_TIMEOUT (R498). -/
  | measureAckTimeout
  /-- CMX_EXPORT (R499). -/
  | cmxExport (portUp : Bool)
  /-- ATTN_SHORT_PRESS (R500). -/
  | attnShortPress (b : Boot)
  /-- ATTN_MID_RELEASE (R500). -/
  | attnMidRelease
  /-- ATTN_LONG_HOLD (R500). -/
  | attnLongHold
  /-- ATTN_REQ (R500). -/
  | attnReq (q : Req) (v : Word) (b : Boot)
  /-- ATTN_CANCEL (R503). -/
  | attnCancel (q : Req) (v : Word)
  /-- ATTN_FM_ACK (R502). -/
  | attnFmAck (q : Req) (v : Word)
  /-- REMOVAL_GRACE_END (R502). -/
  | removalGraceEnd (grace : Bool)
  /-- REMOVAL_DRAIN_END (R502). -/
  | removalDrainEnd (late : Bool)
  /-- REMOVAL_QUIET_END (R502). -/
  | removalQuietEnd
  /-- TRANSCEIVER_INSERT (R504). -/
  | transceiverInsert (p : EPort) (good : Bool)
  /-- TRANSCEIVER_REMOVE (R504). -/
  | transceiverRemove (p : EPort)
  /-- FWU_GO (R506). -/
  | fwuGo (q : Req) (v : Word) (side : Option (List Byte)) (b : Boot)
  /-- FWU_STAGING_DONE (R507). -/
  | fwuStagingDone (good : Bool)
  /-- FWU_ACTIVATION_DONE (R507). -/
  | fwuActivationDone
  /-- FWU_CONFIRM (R507). -/
  | fwuConfirm (q : Req) (v : Word)
  /-- FWU_ABORT (R507). -/
  | fwuAbort (q : Req) (v : Word)
  /-- FWU_WINDOW_END (R508). -/
  | fwuWindowEnd
  /-- FWU_UNIT_FAULT (R507). -/
  | fwuUnitFault
  /-- FWU_FALLBACK_DONE (R507). -/
  | fwuFallbackDone
  /-- RAISE_SVN (R508). -/
  | raiseSvn (q : Req) (v : Word)
  /-- PERST_ASSERT (R515). -/
  | perstAssert
  /-- PERST_DEASSERT (R515). -/
  | perstDeassert (link : Word) (b : Boot)
  /-- BOARD_RESET (R516). -/
  | boardReset (b : Boot)
  /-- PWR_EN_RISE (R517). -/
  | pwrEnRise (b : Boot)
  /-- PWR_EN_FALL (R517). -/
  | pwrEnFall
  /-- THERMAL_THROTTLE_ENTER (R526). -/
  | thermalThrottleEnter (p : Option (Fin 4))
  /-- THERMAL_THROTTLE_RELEASE (R526). -/
  | thermalThrottleRelease (p : Option (Fin 4))
  /-- THERMAL_SHUTDOWN (R527). -/
  | thermalShutdown (stage : Bool)
  /-- SIDEBAND_SCL_TIMEOUT (R528). -/
  | sidebandSclTimeout
  /-- FEED_GOOD (R435). -/
  | feedGood (isB : Bool)
  /-- SPDM_HEARTBEAT_LOSS (R464). -/
  | spdmHeartbeatLoss (sess : Nat)
  /-- ETH_LINK_DOWN (R343). -/
  | ethLinkDown (p : EPort)
  /-- ETH_LINK_UP (R343). -/
  | ethLinkUp (p : EPort)
  /-- PAUSE_QUANTA_EXPIRE (R346). -/
  | pauseQuantaExpire (p : EPort)
  /-- PAUSE_REFRESH (R347). -/
  | pauseRefresh (p : EPort)
  /-- BAND_SUPERVISOR_RECOVER (R28). -/
  | bandSupervisorRecover (b : Fin 8)
  /-- MGT_RESET_DONE (R403). -/
  | mgtResetDone
deriving DecidableEq, Repr

end Sys2Proof
end

