-- ==== Sys2Proof/Machine/Bits.lean ====
section
/-! DEFINITION. Bit fields, sign extension, byte order and saturation over numbers (R4, Table 0-2). -/
namespace Sys2Proof.Machine

/-- Bits `[lo + w − 1 : lo]` of `v`. -/
def bits (v lo w : Nat) : Nat := (v >>> lo) % 2 ^ w

/-- Bit `i` of `v`. -/
def bit (v i : Nat) : Bool := v.testBit i

/-- `v` with bits `[lo + w − 1 : lo]` replaced by the low `w` bits of `x`. -/
def setBits (v lo w x : Nat) : Nat :=
  v % 2 ^ lo + (x % 2 ^ w) * 2 ^ lo + (v / 2 ^ (lo + w)) * 2 ^ (lo + w)

/-- One when true. -/
def b2n (b : Bool) : Nat := if b then 1 else 0

/-- The low `w` bits of `v` as a two's complement number. -/
def sx (w v : Nat) : Int := if (v % 2 ^ w) < 2 ^ (w - 1) then (v % 2 ^ w : Nat) else ((v % 2 ^ w : Nat) : Int) - ((2 ^ w : Nat) : Int)

/-- The low `w` bits of the integer `i`. -/
def tc (w : Nat) (i : Int) : Nat := (i % ((2 ^ w : Nat) : Int)).toNat

/-- `i` saturated to a signed number of `w` bits. -/
def satS (w : Nat) (i : Int) : Int :=
  if i > (2 ^ (w - 1) : Nat) - 1 then (2 ^ (w - 1) : Nat) - 1 else if i < -((2 ^ (w - 1) : Nat) : Int) then -((2 ^ (w - 1) : Nat) : Int) else i

/-- `v` saturated to an unsigned number of `w` bits. -/
def satU (w v : Nat) : Nat := if v < 2 ^ w then v else 2 ^ w - 1

/-- Little-endian value of a byte list. -/
def leNat : List Byte → Nat
  | [] => 0
  | b :: t => b.toNat + 256 * leNat t

/-- The `n` little-endian bytes of `v`. -/
def leBytes : Nat → Nat → List Byte
  | 0, _ => []
  | n + 1, v => BitVec.ofNat 8 v :: leBytes n (v / 256)

/-- Big-endian value of a byte list. -/
def beNat (l : List Byte) : Nat := l.foldl (fun a b => a * 256 + b.toNat) 0

/-- Exclusive or of the bits of `v` below `w`. -/
def parity (v : Nat) : Nat → Nat
  | 0 => 0
  | w + 1 => (b2n (v.testBit w) + parity v w) % 2

/-- Number of bits of `v` below `w` that are 1. -/
def popcount (v : Nat) : Nat → Nat
  | 0 => 0
  | w + 1 => b2n (v.testBit w) + popcount v w

/-- `n` rounded up to a multiple of `m`. -/
def roundUp (n m : Nat) : Nat := (n + m - 1) / m * m

/-- Indices below `n` for which `p` holds. -/
def filterUpto (n : Nat) (p : Nat → Bool) : List Nat := (List.range n).filter p

end Sys2Proof.Machine
end

