-- ==== Sys2Proof/Machine/Codes.lean ====
section
/-! DEFINITION. Check codes: SEC-DED of R97 and R98, CRC-32 (IEEE 802.3), CRC-16 (0x1021, 0xFFFF), CRC-8 (0x07). -/
namespace Sys2Proof.Machine

/-- Codeword positions that carry data: those that are no power of two, in ascending order (R97 step 1). -/
def dataPositions (n : Nat) : List Nat := (List.range (n + 1)).filter fun p => p ≠ 0 && p &&& (p - 1) ≠ 0

/-- The smallest r with 2^r ≥ k + r + 1 (R97 step 2). -/
def chkR (k : Nat) : Nat := ((List.range 8).find? fun r => decide (k + r + 1 ≤ 2 ^ r)).getD 7

/-- The exclusive or of the positions of the data bits of `d` that are 1: bit j of it is CHK[j] (R97 step 3). -/
def posXor (d : Nat) : List Nat → Nat → Nat
  | [], _ => 0
  | p :: t, i => (if d.testBit i then p else 0) ^^^ posXor d t (i + 1)

/-- The data positions of a code over `k` bits. -/
def codePos (k : Nat) : List Nat := (dataPositions (k + chkR k)).take k

/-- CHK[r:0] over the low `k` bits of `d` (R97). -/
def secEnc (k d : Nat) : Nat :=
  let r := chkR k
  let lo := posXor d (codePos k) 0
  lo + ((parity d k + parity lo r) % 2) * 2 ^ r

/-- The position in `ps` of codeword position `p`. -/
def posIndex (p : Nat) : List Nat → Nat → Option Nat
  | [], _ => none
  | a :: t, i => if a = p then some i else posIndex p t (i + 1)

/-- A SEC-DED read of data `d` with check `c` (R98): the data to use, none when uncorrectable, and whether an error was corrected. -/
def secDec (k d c : Nat) : Option Nat × Bool :=
  let r := chkR k
  let lo := posXor d (codePos k) 0
  let s := (lo ^^^ (c % 2 ^ r)) % 2 ^ r
  let p := (parity d k + parity c (r + 1)) % 2
  if p = 0 then (if s = 0 then (some (d % 2 ^ k), false) else (none, false))
  else if s = 0 then (some (d % 2 ^ k), true)
  else if s &&& (s - 1) = 0 then (some (d % 2 ^ k), true)
  else match posIndex s (codePos k) 0 with
    | some i => (some ((d % 2 ^ k) ^^^ 2 ^ i), true)
    | none => (none, false)

/-- One bit of a CRC that shifts left in a register of `w` bits with polynomial `poly`. -/
def crcBitL (w poly : Nat) (c : Nat) (b : Bool) : Nat :=
  let top := xor (c.testBit (w - 1)) b
  let c' := (c * 2) % 2 ^ w
  if top then c' ^^^ poly else c'

/-- A CRC over bytes, most significant bit first. -/
def crcL (w poly init : Nat) (l : List Byte) : Nat :=
  l.foldl (fun c b => [7, 6, 5, 4, 3, 2, 1, 0].foldl (fun c i => crcBitL w poly c (b.toNat.testBit i)) c) init

/-- CRC-16, polynomial 0x1021, initial value 0xFFFF (R226 and the body checks of queue entries). -/
def crc16 (l : List Byte) : Nat := crcL 16 0x1021 0xFFFF l

/-- CRC-8, polynomial 0x07, initial value 0. -/
def crc8 (l : List Byte) : Nat := crcL 8 0x07 0 l

/-- One byte of the reflected CRC-32 of IEEE 802.3. -/
def crc32Byte (c : Nat) (b : Byte) : Nat :=
  [0, 1, 2, 3, 4, 5, 6, 7].foldl (fun c _ => if c % 2 = 1 then (c / 2) ^^^ 0xEDB88320 else c / 2) (c ^^^ b.toNat)

/-- CRC-32 (IEEE 802.3 polynomial) of a byte string. -/
def crc32 (l : List Byte) : Nat := (l.foldl crc32Byte 0xFFFFFFFF) ^^^ 0xFFFFFFFF

/-- The bytes of a list of 32-bit words, each little-endian. -/
def wordBytes (l : List Nat) : List Byte := l.flatMap (leBytes 4)

/-- The check a 64-bit structure carries: `k` data bits, the check at bit `c`. The corrected structure, or none. -/
def chk64 (k c w : Nat) : Option Nat × Bool :=
  match secDec k (w % 2 ^ k) (bits w c (chkR k + 1)) with
  | (some d, true) => (some (setBits (setBits w 0 k d) c (chkR k + 1) (secEnc k d)), true)
  | (some _, false) => (some w, false)
  | (none, b) => (none, b)

/-- HCHK and HPAR of an event word (R225): CHK[6:0] over EVT64[63:28]. -/
def evtChk (e : Nat) : Nat := secEnc 36 (bits e 28 36)

/-- Whether a SEC-DED read corrected an error. -/
def wasFixed {α : Type} (r : Option α × Bool) : Bool := r.2

end Sys2Proof.Machine
end

