-- ==== Sys2Proof/Machine/Sha.lean ====
section
/-! DEFINITION. SHA-384, the digest the spec names (R366, R462, R464, R480, R505): the function of that name in FIPS 180-4.
PRESUMED (log entry 7): the spec names it and does not give its arithmetic. -/
namespace Sys2Proof.Machine

/-- Rotation and shift to the right of a 64-bit word. -/
def rotR64 (n x : Nat) : Nat := x >>> n ||| (x <<< (64 - n)) % 2 ^ 64
/-- The two functions of the message schedule and the two of a round. -/
def shaS0 (x : Nat) : Nat := rotR64 1 x ^^^ rotR64 8 x ^^^ x >>> 7
def shaS1 (x : Nat) : Nat := rotR64 19 x ^^^ rotR64 61 x ^^^ x >>> 6
def shaB0 (x : Nat) : Nat := rotR64 28 x ^^^ rotR64 34 x ^^^ rotR64 39 x
def shaB1 (x : Nat) : Nat := rotR64 14 x ^^^ rotR64 18 x ^^^ rotR64 41 x
/-- The largest `r + x`, `x < 2 ^ b`, whose `k`-th power does not exceed `n`. -/
def kthRoot (k n : Nat) : Nat → Nat → Nat
  | 0, r => r
  | b + 1, r => kthRoot k n b (if (r + 2 ^ b) ^ k ≤ n then r + 2 ^ b else r)
/-- The first 64 bits of the fraction of the `k`-th root of `p < 512`. -/
def rootFrac (k p : Nat) : Nat := kthRoot k (p * 2 ^ (64 * k)) 69 0 % 2 ^ 64
/-- The primes below 410, the first 80. -/
def shaPrimes : List Nat := (List.range 410).filter fun n => decide (2 ≤ n) && (List.range 21).all fun d => decide (d < 2) || decide (n ≤ d) || n % d != 0
/-- The round constants: the fractions of the cube roots of the first 80 primes. -/
def shaK : List Nat := shaPrimes.map (rootFrac 3)
/-- The initial hash value: the fractions of the square roots of the ninth to sixteenth primes. -/
def shaInit : List Nat := ((shaPrimes.drop 8).take 8).map (rootFrac 2)
/-- One round with schedule word `w` and constant `k`. -/
def shaRound (k w : Nat) (v : List Nat) : List Nat :=
  match v with
  | [a, b, c, d, e, f, g, h] =>
    let t := h + shaB1 e + ((e &&& f) ^^^ ((2 ^ 64 - 1 - e) &&& g)) + k + w
    [(t + shaB0 a + ((a &&& b) ^^^ (a &&& c) ^^^ (b &&& c))) % 2 ^ 64, a, b, c, (d + t) % 2 ^ 64, e, f, g]
  | _ => v
/-- Rounds over the constants that remain; `ws` are the next sixteen schedule words. -/
def shaRounds : List Nat → List Nat → List Nat → List Nat
  | [], _, v => v
  | k :: t, ws, v =>
    let w := ws.headD 0
    let n := (shaS1 (ws.getD 14 0) + ws.getD 9 0 + shaS0 (ws.getD 1 0) + w) % 2 ^ 64
    shaRounds t (ws.tail ++ [n]) (shaRound k w v)
/-- Sixteen big-endian words of a block. -/
def shaWords (b : List Byte) : List Nat := (List.range 16).map fun i => leNat ((b.drop (8 * i)).take 8).reverse
/-- Blocks of 128 bytes from the front, at most `n`. -/
def shaBlocks : Nat → List Byte → List Nat → List Nat
  | 0, _, v => v
  | n + 1, b, v => shaBlocks n (b.drop 128) (List.zipWith (fun x y => (x + y) % 2 ^ 64) v (shaRounds shaK (shaWords (b.take 128)) v))
/-- The message with its padding: a 1 bit, zeros, the length in bits as 16 big-endian bytes. -/
def shaPad (m : List Byte) : List Byte :=
  m ++ [0x80#8] ++ List.replicate ((239 - m.length % 128) % 128) 0#8 ++ (leBytes 16 (8 * m.length)).reverse
/-- The SHA-384 digest of a byte string: 48 bytes. -/
def sha384 (m : List Byte) : List Byte :=
  ((shaBlocks ((m.length + 144) / 128) (shaPad m) shaInit).take 6).flatMap fun w => (leBytes 8 w).reverse

end Sys2Proof.Machine
end

