-- ==== Sys2Proof/Machine/Ecdsa.lean ====
section
/-! DEFINITION. Verification of an ECDSA P-384 signature (R465, R480, R505): the function of that name in FIPS 186 over the curve
of that name. PRESUMED (log entry 7): the spec names it, gives the byte order of keys and signatures, and not its arithmetic. -/
namespace Sys2Proof.Machine

/-- The field prime, the group order, the coefficient b, and the base point of P-384. -/
def ecP : Nat := 0xfffffffffffffffffffffffffffffffffffffffffffffffffffffffffffffffeffffffff0000000000000000ffffffff
def ecN : Nat := 0xffffffffffffffffffffffffffffffffffffffffffffffffc7634d81f4372ddf581a0db248b0a77aecec196accc52973
def ecB : Nat := 0xb3312fa7e23ee7e4988e056be3f82d19181d9c6efe8141120314088f5013875ac656398d8a2ed19d2a85c8edd3ec2aef
def ecGx : Nat := 0xaa87ca22be8b05378eb1c71ef320ad746e1d3b628ba79b9859f741e082542a385502f25dbf55296c3a545e3872760ab7
def ecGy : Nat := 0x3617de4a96262c6f5d9e98bf9292dc29f8f41dbd289a147ce9da3113b5f0b8c00a60b1ce1d7e819d7a431d7c90ea0e5f

/-- `b ^ e` modulo `m` over the low `fuel` bits of `e`, times `acc`. -/
def powMod (m : Nat) : Nat → Nat → Nat → Nat → Nat
  | 0, _, _, acc => acc
  | k + 1, b, e, acc => powMod m k (b * b % m) (e / 2) (if e % 2 = 1 then acc * b % m else acc)
/-- The inverse of `a` modulo the prime `m` of 384 bits. -/
def invMod (m a : Nat) : Nat := powMod m 384 (a % m) (m - 2) 1
def ecSub (a b : Nat) : Nat := (a + (ecP - b % ecP)) % ecP
/-- A point in Jacobian coordinates; Z = 0 is the point at infinity. -/
abbrev EcPt := Nat × Nat × Nat
def ecDbl (a : EcPt) : EcPt :=
  match a with
  | (x, y, z) =>
    let d := z * z % ecP
    let g := y * y % ecP
    let b := x * g % ecP
    let l := 3 * ecSub x d * (x + d) % ecP
    let u := ecSub (l * l) (8 * b)
    (u, ecSub (l * ecSub (4 * b) u) (8 * g * g), 2 * y * z % ecP)
def ecAdd (a b : EcPt) : EcPt :=
  match a, b with
  | (x, y, z), (x', y', z') =>
    if z = 0 then b else if z' = 0 then a else
    let u := x * (z' * z') % ecP
    let v := y * (z' * z' * z') % ecP
    let h := ecSub (x' * (z * z)) u
    let r := ecSub (y' * (z * z * z)) v
    if h = 0 then (if r = 0 then ecDbl a else (1, 1, 0)) else
    let hh := h * h % ecP
    let w := u * hh % ecP
    let t := ecSub (ecSub (r * r) (h * hh)) (2 * w)
    (t, ecSub (r * ecSub w t) (v * (h * hh)), h * z % ecP * z' % ecP)
/-- The multiple of a point by the low `fuel` bits of `k`. -/
def ecMul (k : Nat) (a : EcPt) : Nat → EcPt
  | 0 => (1, 1, 0)
  | n + 1 =>
    let d := ecDbl (ecMul (k / 2) a n)
    if k % 2 = 1 then ecAdd d a else d
/-- The big-endian number of a byte string. -/
def ecNat (l : List Byte) : Nat := leNat l.reverse
/-- A signature r ‖ s over a digest of 48 bytes verifies under the public key X ‖ Y. -/
def ecdsaOk (key digest sig : List Byte) : Bool :=
  let x := ecNat (key.take 48)
  let y := ecNat (key.drop 48)
  let r := ecNat (sig.take 48)
  let t := ecNat (sig.drop 48)
  let w := invMod ecN t
  let a := ecAdd (ecMul (ecNat digest * w % ecN) (ecGx, ecGy, 1) 384) (ecMul (r * w % ecN) (x, y, 1) 384)
  let i := invMod ecP a.2.2
  key.length == 96 && sig.length == 96 && decide (x < ecP ∧ y < ecP ∧ 0 < r ∧ r < ecN ∧ 0 < t ∧ t < ecN)
    && y * y % ecP == ecSub (x * (x * x) + ecB) (3 * x) && a.2.2 != 0 && a.1 * (i * i) % ecP % ecN == r

end Sys2Proof.Machine
end

