-- ==== Sys2Proof/Machine/Gcm.lean ====
section
/-! DEFINITION. AES-256-GCM decryption (R387): the function of that name in FIPS 197 and SP 800-38D. PRESUMED (log entry 7): the
spec names it, gives key, IV, additional data and tag, and not its arithmetic. -/
namespace Sys2Proof.Machine

/-- The substitution box: byte `x` is bits [8x + 7 : 8x]. -/
def aesBox : Nat :=
  0x16bb54b00f2d99416842e6bf0d89a18cdf2855cee9871e9b948ed9691198f8e19e1dc186b95735610ef6034866b53e708a8bbd4b1f74dde8c6b4a61c2e2578ba08ae7a65eaf4566ca94ed58d6d37c8e779e4959162acd3c25c2406490a3a32e0db0b5ede14b8ee4688902a22dc4f816073195d643d7ea7c41744975fec130ccdd2f3ff1021dab6bcf5389d928f40a351a89f3c507f02f94585334d43fbaaefd0cf584c4a39becb6a5bb1fc20ed00d153842fe329b3d63b52a05a6e1b1a2c830975b227ebe28012079a059618c323c7041531d871f1e5a534ccf73f362693fdb7c072a49cafa2d4adf04759fa7dc982ca76abd7fe2b670130c56f6bf27b777c63
def aesSub (x : Nat) : Nat := (aesBox >>> (8 * x)) % 256
/-- Multiplication by 2 in the field of AES. -/
def aesX2 (x : Nat) : Nat := if x < 128 then 2 * x else 2 * x ^^^ 0x11b
def xorL (a b : List Nat) : List Nat := List.zipWith (· ^^^ ·) a b
/-- Key words from `i` on, `n` of them: `w` holds the last eight, oldest first (FIPS 197 5.2). -/
def aesExpand : Nat → Nat → Nat → List (List Nat) → List (List Nat)
  | 0, _, _, _ => []
  | n + 1, i, rc, w =>
    let t := w.getD 7 []
    let t := if i % 8 = 0 then xorL ((t.tail ++ t.take 1).map aesSub) [rc, 0, 0, 0] else if i % 8 = 4 then t.map aesSub else t
    let x := xorL (w.headD []) t
    x :: aesExpand n (i + 1) (if i % 8 = 0 then aesX2 rc else rc) (w.tail ++ [x])
/-- The fifteen round keys of 16 bytes. -/
def aesKeys (key : List Byte) : List (List Nat) :=
  let w := (List.range 8).map fun i => ((key.drop (4 * i)).take 4).map (·.toNat)
  let l := w ++ aesExpand 52 8 1 w
  (List.range 15).map fun r => ((l.drop (4 * r)).take 4).flatten
/-- ShiftRows on 16 bytes in column order. -/
def aesRows (s : List Nat) : List Nat := (List.range 16).map fun i => s.getD ((i + 4 * (i % 4)) % 16) 0
def aesCol (s : List Nat) : List Nat :=
  match s with
  | [a, b, c, d] =>
    [aesX2 a ^^^ aesX2 b ^^^ b ^^^ c ^^^ d, a ^^^ aesX2 b ^^^ aesX2 c ^^^ c ^^^ d, a ^^^ b ^^^ aesX2 c ^^^ aesX2 d ^^^ d, aesX2 a ^^^ a ^^^ b ^^^ c ^^^ aesX2 d]
  | _ => s
def aesMix (s : List Nat) : List Nat := (List.range 4).flatMap fun c => aesCol ((s.drop (4 * c)).take 4)
/-- One block of 16 bytes under the round keys. -/
def aesBlock (ks : List (List Nat)) (b : List Nat) : List Nat :=
  let s := (List.range 13).foldl (fun s r => xorL (aesMix (aesRows (s.map aesSub))) (ks.getD (r + 1) [])) (xorL b (ks.headD []))
  xorL (aesRows (s.map aesSub)) (ks.getD 14 [])
/-- The big-endian number of 16 bytes, and its bytes. -/
def beNum (l : List Nat) : Nat := l.foldl (fun a b => a * 256 + b) 0
def beList (n v : Nat) : List Nat := ((List.range n).map fun i => v / 2 ^ (8 * i) % 256).reverse
/-- The product of GHASH: the `n` lowest bits of `x` remain, its highest first. -/
def gcmMul (x : Nat) : Nat → Nat → Nat → Nat
  | 0, _, z => z
  | n + 1, v, z => gcmMul x n (if v % 2 = 1 then v / 2 ^^^ 0xe1000000000000000000000000000000 else v / 2) (if x.testBit n then z ^^^ v else z)
/-- Blocks of 16 bytes, the last filled with zeros. -/
def gcmBlocks (l : List Byte) : List (List Nat) :=
  (List.range ((l.length + 15) / 16)).map fun i => let b := ((l.drop (16 * i)).take 16).map (·.toNat); b ++ List.replicate (16 - b.length) 0
def gHash (h : Nat) (l : List (List Nat)) : Nat := l.foldl (fun y b => gcmMul (y ^^^ beNum b) 128 h 0) 0
/-- Decryption of `c` ‖ tag under a key of 32 bytes and an IV of 12: the plain bytes, none when the tag fails. -/
def gcmOpen (key iv aad sealed : List Byte) : Option (List Byte) :=
  let ks := aesKeys key
  let h := beNum (aesBlock ks (List.replicate 16 0))
  let c := sealed.take (sealed.length - 16)
  let tag := beNum ((sealed.drop (sealed.length - 16)).map (·.toNat))
  let v := iv.map (·.toNat)
  let s := gHash h (gcmBlocks aad ++ gcmBlocks c ++ [beList 8 (8 * aad.length) ++ beList 8 (8 * c.length)])
  if key.length ≠ 32 ∨ iv.length ≠ 12 ∨ sealed.length < 16 ∨ s ^^^ beNum (aesBlock ks (v ++ [0, 0, 0, 1])) ≠ tag then none
  else
    let pad := (List.range ((c.length + 15) / 16)).flatMap fun i => aesBlock ks (v ++ beList 4 (i + 2))
    some (List.zipWith (fun x k => x ^^^ BitVec.ofNat 8 k) c pad)

end Sys2Proof.Machine
end

