-- ==== Sys2Proof/Machine/LineCode.lean ====
section
/-! DEFINITION. The line coding of a Jarisk link as pure functions (R286–R289): PAM4 levels, the RS(544,514) code, the scrambler, the
dealing of symbols over the lanes, and the message bits of a codeword. -/
namespace Sys2Proof.Machine

/-! PAM4 (R286) -/

/-- The level of two bits, Gray-coded, and back. -/
def grayLevel (v : Nat) : Nat := v ^^^ (v / 2)
def levelBits (l : Nat) : Nat := if l = 2 then 3 else if l = 3 then 2 else l
/-- The five PAM4 symbols of an RS symbol, bits [9:8] first, and back. -/
def pamOf (sym : Nat) : List Nat := (List.range 5).map fun i => grayLevel (bits sym (8 - 2 * i) 2)
def symOfPam (l : List Nat) : Nat := l.foldl (fun a x => a * 4 + levelBits x) 0
/-- The RS symbols of a run of PAM4 symbols. -/
def symsOfPam (l : List Nat) : List Nat := (List.range (l.length / 5)).map fun i => symOfPam ((l.drop (5 * i)).take 5)

/-! RS(544,514) over GF(2^10) (R287; field polynomial x^10 + x^3 + 1, generator roots α^0 to α^29, log entry 81) -/

def gfMul (a b : Nat) : Nat :=
  (List.range 10).foldl (fun r i =>
    let r := if r ≥ 512 then (2 * r) ^^^ 0x409 else 2 * r
    if b.testBit (9 - i) then r ^^^ a else r) 0
def gfPow (a : Nat) : Nat → Nat
  | 0 => 1
  | n + 1 => gfMul (gfPow a n) a
/-- The inverse of a nonzero element: its power 1,022, by squaring. -/
def gfInv (a : Nat) : Nat :=
  ((List.range 9).foldl (fun (q : Nat × Nat) _ => let y := gfMul q.2 q.2; (gfMul q.1 y, y)) (1, a)).1
/-- α^0, α^1, …, of which there are 1,023. -/
def gfPowers : List Nat := ((List.range 1023).foldl (fun (q : List Nat × Nat) _ => (q.2 :: q.1, gfMul q.2 2)) ([], 1)).1.reverse
def alpha (n : Nat) : Nat := gfPowers.getD (n % 1023) 0
/-- Value of a polynomial given highest coefficient first. -/
def gfHorner (x : Nat) (l : List Nat) : Nat := l.foldl (fun a c => gfMul a x ^^^ c) 0
/-- Value of a polynomial given lowest coefficient first. -/
def gfEval (x : Nat) (l : List Nat) : Nat := gfHorner x l.reverse
/-- Coefficientwise sum of polynomials given lowest coefficient first. -/
def gfAdd : List Nat → List Nat → List Nat
  | [], l => l
  | l, [] => l
  | a :: s, b :: t => (a ^^^ b) :: gfAdd s t
/-- The generator polynomial below its leading 1, highest coefficient first. -/
def rsGen : List Nat :=
  (((List.range 30).foldl (fun g j => gfAdd (0 :: g) (g.map (gfMul (gfPow 2 j) ·))) [1]).reverse).tail
/-- The 30 parity symbols of a message. -/
def rsParity (msg : List Nat) : List Nat :=
  msg.foldl (fun r m => let f := m ^^^ r.headD 0; gfAdd (r.tail ++ [0]) (rsGen.map (gfMul f ·))) (List.replicate 30 0)
/-- The codeword of a message: its symbols, then the parity. -/
def rsEncode (msg : List Nat) : List Nat := msg ++ rsParity msg
/-- The 30 syndromes of 544 symbols. -/
def rsSyn (r : List Nat) : List Nat := (List.range 30).map fun j => gfHorner (gfPow 2 j) r
/-- A step of the Berlekamp–Massey algorithm: error locator, the one before the last change of length, the length, the shift and the
discrepancy since that change. -/
structure BmSt where
  loc : List Nat
  old : List Nat
  len : Nat
  sh : Nat
  d : Nat
deriving DecidableEq, Repr
def bmStep (syn : List Nat) (x : BmSt) (n : Nat) : BmSt :=
  let e := (List.range (x.len + 1)).foldl (fun a i => a ^^^ gfMul (x.loc.getD i 0) (if i ≤ n then syn.getD (n - i) 0 else 0)) 0
  if e = 0 then { x with sh := x.sh + 1 } else
  let f := gfMul e (gfInv x.d)
  let loc := gfAdd x.loc (List.replicate x.sh 0 ++ x.old.map (gfMul f ·))
  if 2 * x.len ≤ n then ⟨loc, x.loc, n + 1 - x.len, 1, e⟩ else { x with loc := loc, sh := x.sh + 1 }
/-- The error locator of a list of syndromes. -/
def bmLocator (syn : List Nat) : BmSt := (List.range 30).foldl (bmStep syn) ⟨[1], [1], 0, 1, 1⟩
/-- Errors of a received word: position and value. -/
def rsErrors (syn : List Nat) : List (Nat × Nat) :=
  let loc := (bmLocator syn).loc
  let omega := ((List.range 30).map fun k => (List.range (k + 1)).foldl (fun a i => a ^^^ gfMul (loc.getD i 0) (syn.getD (k - i) 0)) 0)
  let der := (List.range loc.length).map fun i => if i % 2 = 0 then loc.getD (i + 1) 0 else 0
  (List.range 544).filterMap fun i =>
    let x := alpha (543 - i)
    let y := alpha (480 + i)
    if gfEval y loc = 0 then some (i, gfMul x (gfMul (gfEval y omega) (gfInv (gfEval y der)))) else none
/-- Decode 544 symbols: the corrected word and the positions corrected, at most 15; none when uncorrectable. -/
def rsDecode (r : List Nat) : Option (List Nat × List Nat) :=
  let syn := rsSyn r
  if syn.all (· == 0) then some (r, []) else
  let l := rsErrors syn
  let fixed := l.foldl (fun w e => w.set e.1 ((w.getD e.1 0) ^^^ e.2)) r
  if l.length ≤ 15 && (rsSyn fixed).all (· == 0) then some (fixed, l.map (·.1)) else none

/-! Scrambler x^58 + x^39 + 1 (R287): the state holds the last 58 line bits, the newest in bit 0 -/

/-- Bits a message holds. -/
def msgBits : Nat := 5140
def scrTap (h : Nat) : Bool := xor (h.testBit 38) (h.testBit 57)
def scrPush (h : Nat) (y : Bool) : Nat := (2 * h + b2n y) % 2 ^ 58
/-- Scramble the message `m` from state `h`: the line bits and the state after them. -/
def scramble (h m : Nat) : Nat × Nat :=
  (List.range msgBits).foldl (fun (q : Nat × Nat) i =>
    let y := xor (m.testBit i) (scrTap q.2)
    (q.1 + b2n y * 2 ^ i, scrPush q.2 y)) (0, h)
/-- Recover the message from the line bits `v`. -/
def descramble (h v : Nat) : Nat × Nat :=
  (List.range msgBits).foldl (fun (q : Nat × Nat) i =>
    let y := v.testBit i
    (q.1 + b2n (xor y (scrTap q.2)) * 2 ^ i, scrPush q.2 y)) (0, h)

/-! Codewords (R287–R289) -/

def slIdle : Nat := 0
def slLcf : Nat := 1
def slEvent : Nat := 2
def slPacket : Nat := 3
/-- The message of ten slots: their types and their 64 bytes. -/
def cwMessage (slots : List (Nat × List Byte)) : Nat :=
  (slots.zip (List.range 10)).foldl (fun a y => a + y.1.1 % 4 * 2 ^ (2 * y.2) + leNat (y.1.2.take 64) * 2 ^ (20 + 512 * y.2)) 0
/-- The slots of a message. -/
def cwSlots (m : Nat) : List (Nat × List Byte) := (List.range 10).map fun s => (bits m (2 * s) 2, leBytes 64 (bits m (20 + 512 * s) 512))
/-- RS message symbol k is m[10k + 9 : 10k]. -/
def msgSyms (m : Nat) : List Nat := (List.range 514).map fun k => bits m (10 * k) 10
def symsMsg (l : List Nat) : Nat := ((l.take 514).zip (List.range 514)).foldl (fun a y => a + y.1 % 1024 * 2 ^ (10 * y.2)) 0
/-- Symbols of one codeword. -/
def cwLen : Nat := 544
/-- Deal a codeword over `w` lanes, its first symbol to lane `pos`; and collect it again. -/
def deal (w pos : Nat) (syms : List Nat) : List (List Nat) :=
  (List.range w).map fun l => (syms.zip (List.range syms.length)).filterMap fun y => if (pos + y.2) % w = l then some y.1 else none
def collect (w pos : Nat) (lanes : List (List Nat)) : List Nat :=
  (List.range cwLen).map fun i => (lanes.getD ((pos + i) % w) []).getD (i / w) 0
/-- The alignment codeword: symbols of value 0x2B0 + lane (R288). -/
def alignCw (w pos : Nat) : List Nat := (List.range cwLen).map fun i => 0x2B0 + (pos + i) % w
/-- Codewords between two alignment codewords. -/
def alignAfter : Nat := 16383

end Sys2Proof.Machine
end

