-- ==== Sys2Proof/Machine/Operands.lean ====
section
/-! DEFINITION. Operand forms: the number formats of chapter 05 (R159–R166), their rounding (R164), the stochastic
register (R153, R165) and exact F32 arithmetic (R170). -/
namespace Sys2Proof.Machine

/-- Round |a| / b half away from zero, with the sign of `a` (the operator rnd of Table 5-3); b > 0. -/
def rndDiv (a : Int) (b : Nat) : Int :=
  let q := ((2 * a.natAbs + b) / (2 * b) : Nat)
  if a < 0 then -(q : Int) else q

/-- a × 2^e rounded half away from zero. -/
def rndShift (a : Int) (e : Int) : Int :=
  if e ≥ 0 then a * ((2 ^ e.toNat : Nat) : Int) else rndDiv a (2 ^ (-e).toNat)

/-- a / b toward zero (trunc0). -/
def trunc0 (a : Int) (b : Nat) : Int :=
  let q := (a.natAbs / b : Nat)
  if a < 0 then -(q : Int) else q

/-- a / b to nearest, ties to even, for magnitudes (rne). -/
def rneDivNat (a b : Nat) : Nat :=
  let q := a / b
  let r := a % b
  if 2 * r > b then q + 1 else if 2 * r = b then q + q % 2 else q

/-- One advance of the 16-bit Galois register of R153: right shift, toggle mask 0xB400. -/
def lfsrNext (z : Nat) : Nat := if z % 2 = 1 then (z / 2) ^^^ 0xB400 else z / 2

/-- A seed, with 0 taken as 0xACE1. -/
def lfsrSeed (z : Nat) : Nat := if z % 65536 = 0 then 0xACE1 else z % 65536

/-- a / 2^n with stochastic rounding of the magnitude against `z` (stoch of Table 5-3). -/
def stochShift (a : Int) (n : Nat) (z : Nat) : Int :=
  let m := a.natAbs
  let f := (m % 2 ^ n) * 65536 / 2 ^ n
  let q := (m / 2 ^ n + (if f > z then 1 else 0) : Nat)
  if a < 0 then -(q : Int) else q

/-- A floating-point value: NaN, infinity, or (−1)^neg × m × 2^e. -/
inductive FVal where
  | nan
  | inf (neg : Bool)
  | fin (neg : Bool) (m : Nat) (e : Int)
deriving DecidableEq, Repr

/-- A floating-point layout of Table 5-2: exponent width, mantissa width, and whether it has infinities. -/
structure FFmt where
  ew : Nat
  mw : Nat
  inf : Bool
deriving DecidableEq, Repr

def fE4M3 : FFmt := ⟨4, 3, false⟩
def fE5M2 : FFmt := ⟨5, 2, true⟩
def fBF16 : FFmt := ⟨8, 7, true⟩
def fH16 : FFmt := ⟨5, 10, true⟩
def fF32 : FFmt := ⟨8, 23, true⟩

/-- The exponent bias of a layout. -/
def FFmt.bias (f : FFmt) : Nat := 2 ^ (f.ew - 1) - 1
/-- The canonical NaN of a layout (Table 5-2). -/
def FFmt.nan (f : FFmt) : Nat :=
  if f.inf then (2 ^ f.ew - 1) * 2 ^ f.mw + 2 ^ (f.mw - 1) else 2 ^ (f.ew + f.mw) - 1
/-- The largest finite bit pattern of a layout. -/
def FFmt.maxFin (f : FFmt) : Nat :=
  if f.inf then (2 ^ f.ew - 1) * 2 ^ f.mw - 1 else 2 ^ (f.ew + f.mw) - 2
/-- The infinity of a layout that has one. -/
def FFmt.infBits (f : FFmt) : Nat := (2 ^ f.ew - 1) * 2 ^ f.mw
/-- The sign bit of a layout as a number. -/
def FFmt.sign (f : FFmt) (neg : Bool) : Nat := if neg then 2 ^ (f.ew + f.mw) else 0

/-- The value of a bit pattern (R161). -/
def fdec (f : FFmt) (v : Nat) : FVal :=
  let neg := v.testBit (f.ew + f.mw)
  let e := bits v f.mw f.ew
  let m := bits v 0 f.mw
  if e = 2 ^ f.ew - 1 ∧ f.inf ∧ m = 0 then .inf neg
  else if e = 2 ^ f.ew - 1 ∧ (f.inf ∨ m = 2 ^ f.mw - 1) then .nan
  else if e = 0 then .fin neg m (1 - (f.bias : Int) - (f.mw : Int))
  else .fin neg (2 ^ f.mw + m) ((e : Int) - (f.bias : Int) - (f.mw : Int))

/-- m × 2^e in lowest unit 2^q, ties to even. -/
def rneScale (m : Nat) (e q : Int) : Nat :=
  if e ≥ q then m * 2 ^ (e - q).toNat else rneDivNat m (2 ^ (q - e).toNat)

/-- Convert a value to a layout with rne and the SATF rule of Table 5-4: the bit pattern, and whether it was clipped. -/
def fenc (f : FFmt) (satf : Bool) : FVal → Nat × Bool
  | .nan => (f.nan, true)
  | .inf neg =>
    if satf then (f.sign neg + f.maxFin, true)
    else if f.inf then (f.sign neg + f.infBits, false) else (f.nan, true)
  | .fin neg m e =>
    if m = 0 then (f.sign neg, false)
    else
      let lead : Int := e + (Nat.log2 m : Int)
      let emin : Int := 1 - (f.bias : Int)
      let q : Int := (if lead < emin then emin else lead) - (f.mw : Int)
      let r := rneScale m e q
      let (r, q) := if r = 2 ^ (f.mw + 1) then (2 ^ f.mw, q + 1) else (r, q)
      let pat : Nat := if r < 2 ^ f.mw then r else (q + (f.mw : Int) + (f.bias : Int)).toNat * 2 ^ f.mw + (r - 2 ^ f.mw)
      if pat > f.maxFin then
        (if satf then (f.sign neg + f.maxFin, true)
         else if f.inf then (f.sign neg + f.infBits, true) else (f.nan, true))
      else (f.sign neg + pat, false)

/-- F32 product of two values with one rounding (R170). -/
def fmul : FVal → FVal → FVal
  | .nan, _ => .nan
  | _, .nan => .nan
  | .inf a, .inf b => .inf (xor a b)
  | .inf a, .fin b m _ => if m = 0 then .nan else .inf (xor a b)
  | .fin a m _, .inf b => if m = 0 then .nan else .inf (xor a b)
  | .fin a m e, .fin b n g => .fin (xor a b) (m * n) (e + g)

/-- Exact sum of two values (R170); a zero sum is +0 unless both are −0. -/
def fadd : FVal → FVal → FVal
  | .nan, _ => .nan
  | _, .nan => .nan
  | .inf a, .inf b => if a = b then .inf a else .nan
  | .inf a, .fin _ _ _ => .inf a
  | .fin _ _ _, .inf b => .inf b
  | .fin a m e, .fin b n g =>
    let l := if e < g then e else g
    let x : Int := (m * 2 ^ (e - l).toNat : Nat)
    let y : Int := (n * 2 ^ (g - l).toNat : Nat)
    let t := (if a then -x else x) + (if b then -y else y)
    if t = 0 then .fin (a && b) 0 0 else .fin (decide (t < 0)) t.natAbs l

/-- rne_F32 of a value, as a value. -/
def rneF32 (v : FVal) : FVal := fdec fF32 (fenc fF32 false v).1

/-- The canonical F32 bit pattern of a value. -/
def f32Bits (v : FVal) : Nat := (fenc fF32 false v).1

/-- A finite value as an integer times 2^e. -/
def FVal.int : FVal → Int × Int
  | .fin neg m e => (if neg then -(m : Int) else m, e)
  | _ => (0, 0)

/-- E4M3 × 512 as an integer; 0 for NaN (R163). -/
def e4m3x512 (v : Nat) : Int :=
  match fdec fE4M3 (v % 256) with
  | .fin neg m e => let x : Int := (m * 2 ^ (e + 9).toNat : Nat); if neg then -x else x
  | _ => 0

/-- Rounding of a × 2^e to an integer with rnd, or stoch against `z`. -/
def roundInt (stoch : Bool) (z : Nat) (a : Int) (e : Int) : Int :=
  if e ≥ 0 then a * ((2 ^ e.toNat : Nat) : Int)
  else if stoch then stochShift a (-e).toNat z else rndDiv a (2 ^ (-e).toNat)

/-- A format code of Table 5-1. -/
abbrev FmtCode := Nat

/-- The float layout of a format code. -/
def floatOf : FmtCode → Option FFmt
  | 5 => some fE4M3 | 6 => some fE5M2 | 7 => some fBF16 | 8 => some fH16 | 9 => some fF32 | _ => none

/-- Saturate to an integer format (S4, S8, U8, S16, S32, M24): the value and whether it saturated. -/
def satFmt (c : FmtCode) (v : Int) : Int × Bool :=
  let r := match c with
    | 0 => satS 4 v
    | 1 => satS 8 v
    | 2 => if v < 0 then 0 else if v > 255 then 255 else v
    | 3 => satS 16 v
    | 4 => satS 32 v
    | _ => satS 24 v
  (r, decide (r ≠ v))

/-- Bytes of a row of `n` elements of a format (R173). -/
def rowBytes (c : FmtCode) (n : Nat) : Nat :=
  match c with
  | 0 => (n + 1) / 2
  | 1 => n | 2 => n | 5 => n | 6 => n
  | 3 => 2 * n | 7 => 2 * n | 8 => 2 * n
  | 4 => 4 * n | 9 => 4 * n | 10 => 4 * n
  | 11 => n / 32 * 36
  | 12 => n / 32 * 20
  | _ => 0

/-- Convert an integer to an element of a format (Table 5-4): bit pattern and whether it was clipped. -/
def convInt (c : FmtCode) (satf : Bool) (v : Int) : Nat × Bool :=
  match floatOf c with
  | some f => fenc f satf (.fin (decide (v < 0)) v.natAbs 0)
  | none => let (r, b) := satFmt c v; (tc (if c = 0 then 4 else if c = 3 then 16 else if c = 4 ∨ c = 10 then 32 else 8) r, b)

/-- Convert a float to an element of a format (Table 5-4). -/
def convFloat (c : FmtCode) (satf stoch : Bool) (z : Nat) (v : FVal) : Nat × Bool :=
  match floatOf c with
  | some f => fenc f satf v
  | none =>
    let w := if c = 0 then 4 else if c = 3 then 16 else if c = 4 ∨ c = 10 then 32 else 8
    match v with
    | .nan => (0, true)
    | .inf neg => (tc w (satFmt c (if neg then -(2 ^ 64) else 2 ^ 64)).1, true)
    | .fin _ _ _ =>
      let (a, e) := v.int
      let (r, b) := satFmt c (roundInt stoch z a (if c = 10 then e + 12 else e))
      (tc w r, b)

end Sys2Proof.Machine
end

