-- ==== Sys2Proof/Config.lean ====
section
/-! DEFINITION. What the spec leaves open: opaque constants with no body, so that no proof can see a value. Each is
named in the assumption log. -/
namespace Sys2Proof.Config

/-- A value the spec leaves open, as number `n` of the run (State.fresh counts them). Log entry 5. -/
opaque freeNat : Nat → Nat
/-- What byte `a` of module memory reads as under key `now` when it holds byte `b` written under another key `old` (0: never
written) (R359). Log entry 6. -/
opaque moduleByte (now old b a : Nat) : BitVec 8
/-- SHA-384 digest of the firmware image of component `c` that the store holds when the module leaves the factory, and of the
fuse map. Log entry 7. -/
opaque factoryDigest (c : Nat) : List (BitVec 8)
opaque fuseDigest : List (BitVec 8)
/-- The certificate chain of slot 0 for the given measurements 1 to 4, an Alias signature over a message, and the debug key of the
thimble ROM (R463, R480). Log entry 7. -/
opaque certChain (meas : List (BitVec 8)) : List (BitVec 8)
opaque aliasSign (msg : List (BitVec 8)) : List (BitVec 8)
opaque debugKey : List (BitVec 8)
/-- The Merzal firmware key (R505). Log entry 7. -/
opaque firmwareKey : List (BitVec 8)

end Sys2Proof.Config
end

