-- ==== Sys2Proof/Machine/Regs.lean ====
section
/-! DEFINITION. Every configuration-space register of the register tables of spec/: its offset (a key of the register
file), its fields with place, access code (R6, Table 0-3) and reset value, and the table of each block. A register
marked with `q` exists once per requester (R16, R188, R310, R373, R481, R493) and is keyed by the requester too.
Where the spec's Reset column gives no number (Stored, Fuse, Factory, Per stepping) the value here is DESIGN CHOICE 0,
log entry 3; `resetSpecial` gives the values that R32 and the variant set. -/
namespace Sys2Proof.Machine

/-- The access codes of Table 0-3. -/
inductive Acc where
  | rw | ro | wo | w1c | w1s | rc | rwl
deriving DecidableEq, Repr

/-- A field: lowest bit, width, access code and reset value. -/
structure Fld where
  lo : Nat
  w : Nat
  acc : Acc
  rst : Nat
deriving DecidableEq, Repr

/-- One row of a register table: `n` registers `stride` bytes apart from `off`; `pair` marks a declared 64-bit pair. -/
structure RegD where
  name : String
  off : Nat
  n : Nat
  stride : Nat
  pair : Bool
  req : Bool
  flds : List Fld
deriving DecidableEq, Repr

/-- The blocks of Table 1-10 and their repeated windows. -/
inductive Blk where
  | glb | mgt | pwr | step | time | tmr | sync | dnet | dnetEp | shm | shmSl | jlk | jlkDev | host | hostFn | eth
  | memc | sec | secKey | pat | cla | core
deriving DecidableEq, Repr

/-- A 32-bit and a 64-bit read-only counter field. -/
def cnt32 : Fld := ⟨0, 32, .ro, 0⟩
def cnt64 : Fld := ⟨0, 64, .ro, 0⟩

/-- Key of a requester's (or instance's) own copy of a register; copy 0 is the plain key. -/
def bankKey (q k : Nat) : Nat := q * 2 ^ 32 + k

def base_glb : Nat := 0
def base_mgt : Nat := 0x10000
def base_pwr : Nat := 0x20000
def base_step (i : Nat) : Nat := 0x30000 + 0x80 * i
def base_time : Nat := 0x30800
def base_tmr (n : Nat) : Nat := 0x31000 + 0x80 * n
def base_sync : Nat := 0x40000
def base_dnet : Nat := 0x100000
def base_dnetEp (e : Nat) : Nat := 0x102000 + 0x20 * e
def base_shm : Nat := 0x200000
def base_shmSl (sl : Nat) : Nat := 0x204000 + 0x40 * sl
def base_jlk (p : Nat) : Nat := 0x300000 + 0x10000 * p
def base_jlkDev : Nat := 0x308000
def base_host : Nat := 0x400000
def base_hostFn (f : Nat) : Nat := 0x410000 + 0x1000 * f
def base_eth (p : Nat) : Nat := 0x500000 + 0x10000 * p
def base_memc : Nat := 0x600000
def base_sec : Nat := 0x700000
def base_secKey (k : Nat) : Nat := 0x700400 + 0x80 * k
def base_pat : Nat := 0x800000
def base_cla (c : Nat) : Nat := 0x1000000 + 0x40000 * c
/-- The core control port of PCID `p` (Table 1-11): cluster `p / 32`, slot `p % 32`. -/
def base_core (p : Nat) : Nat := 0x1000000 + 0x40000 * (p / 32) + 0x10000 + 0x2000 * (p % 32)

def GLB_ID : Nat := base_glb + 0x0
def GLB_ID.FAMILY : Fld := ⟨0, 16, .ro, 0xc1a⟩
def GLB_ID.PART : Fld := ⟨16, 16, .ro, 0x400⟩
def GLB_STEPPING : Nat := base_glb + 0x4
def GLB_STEPPING.MINOR : Fld := ⟨0, 8, .ro, 0⟩
def GLB_STEPPING.MAJOR : Fld := ⟨8, 8, .ro, 0⟩
def GLB_VARIANT : Nat := base_glb + 0x8
def GLB_VARIANT.VARIANT : Fld := ⟨0, 16, .ro, 0⟩
def GLB_SERIAL : Nat := base_glb + 0x10
def GLB_SERIAL.SERIAL : Fld := ⟨0, 64, .ro, 0⟩
def GLB_CAP_OFS : Nat := base_glb + 0x20
def GLB_CAP_OFS.OFS : Fld := ⟨0, 32, .ro, 0x1000⟩
def GLB_CAP_LEN : Nat := base_glb + 0x24
def GLB_CAP_LEN.LEN : Fld := ⟨0, 32, .ro, 0x1b⟩
def GLB_FPM_OFS : Nat := base_glb + 0x28
def GLB_FPM_OFS.OFS : Fld := ⟨0, 32, .ro, 0x4000⟩
def GLB_FPM_LEN : Nat := base_glb + 0x2C
def GLB_FPM_LEN.LEN : Fld := ⟨0, 32, .ro, 0x1580⟩
def GLB_FPM_GEN : Nat := base_glb + 0x30
def GLB_FPM_GEN.MGEN : Fld := ⟨0, 32, .ro, 0⟩
def GLB_CFG_ERR (q : Nat) : Nat := bankKey q (base_glb + 0x40)
def GLB_CFG_ERR.NARROW : Fld := ⟨0, 1, .w1c, 0⟩
def GLB_CFG_ERR.UNALIGNED : Fld := ⟨1, 1, .w1c, 0⟩
def GLB_CFG_ERR.LAST_CODE : Fld := ⟨8, 8, .ro, 0⟩
def GLB_CFG_ERR.CLR_LAST : Fld := ⟨31, 1, .wo, 0⟩
def GLB_DEV_STATE : Nat := base_glb + 0x44
def GLB_DEV_STATE.STATE : Fld := ⟨0, 4, .ro, 1⟩
def GLB_DEV_STATE.TRANSIT : Fld := ⟨4, 1, .ro, 0⟩
def GLB_SCRATCH (q : Nat) : Nat := bankKey q (base_glb + 0x48)
def GLB_SCRATCH.DATA : Fld := ⟨0, 32, .rw, 0⟩
def MGT_MP_STAT : Nat := base_mgt + 0x0
def MGT_MP_STAT.ACTIVE : Fld := ⟨0, 1, .ro, 0⟩
def MGT_MP_STAT.A_FAIL : Fld := ⟨1, 1, .ro, 0⟩
def MGT_MP_STAT.B_FAIL : Fld := ⟨2, 1, .ro, 0⟩
def MGT_MP_CTRL : Nat := base_mgt + 0x4
def MGT_MP_CTRL.HB_MS : Fld := ⟨0, 8, .rw, 0x14⟩
def MGT_MP_CTRL.SWAP : Fld := ⟨8, 1, .wo, 0⟩
def MGT_MP_CTRL.RSTMAX : Fld := ⟨12, 4, .rw, 3⟩
def MGT_LED : Nat := base_mgt + 0x10
def MGT_LED.LOCATE : Fld := ⟨0, 1, .rw, 0⟩
def MGT_ATTN : Nat := base_mgt + 0x14
def MGT_ATTN.REQ : Fld := ⟨0, 1, .wo, 0⟩
def MGT_ATTN.CANCEL : Fld := ⟨1, 1, .wo, 0⟩
def MGT_ATTN.FM_ACK : Fld := ⟨2, 1, .wo, 0⟩
def MGT_ATTN.NOSHORT : Fld := ⟨3, 1, .rw, 0⟩
def MGT_ATTN.GRACE : Fld := ⟨8, 8, .rw, 0xa⟩
def MGT_ATTN.QUIET : Fld := ⟨16, 16, .rw, 0x64⟩
def MGT_ATTN_STAT : Nat := base_mgt + 0x18
def MGT_ATTN_STAT.PHASE : Fld := ⟨0, 4, .ro, 0⟩
def MGT_ATTN_STAT.SAFE : Fld := ⟨4, 1, .ro, 0⟩
def MGT_NET_CTRL : Nat := base_mgt + 0x20
def MGT_NET_CTRL.DHCP : Fld := ⟨0, 1, .rw, 1⟩
def MGT_NET_IP : Nat := base_mgt + 0x24
def MGT_NET_IP.ADDR : Fld := ⟨0, 32, .rw, 0⟩
def MGT_NET_MASK : Nat := base_mgt + 0x28
def MGT_NET_MASK.ADDR : Fld := ⟨0, 32, .rw, 0⟩
def MGT_NET_GW : Nat := base_mgt + 0x2C
def MGT_NET_GW.ADDR : Fld := ⟨0, 32, .rw, 0⟩
def MGT_PTP : Nat := base_mgt + 0x30
def MGT_PTP.DOMAIN : Fld := ⟨0, 8, .rw, 0⟩
def MGT_PTP.P2P : Fld := ⟨8, 1, .rw, 0⟩
def MGT_PTP.TRANSPORT : Fld := ⟨9, 2, .rw, 0⟩
def MGT_PTP.ANN_TMO : Fld := ⟨11, 4, .rw, 3⟩
def MGT_PTP_SRCIP : Nat := base_mgt + 0x34
def MGT_PTP_SRCIP.ADDR : Fld := ⟨0, 32, .rw, 0⟩
def MGT_CMX_CTRL : Nat := base_mgt + 0x40
def MGT_CMX_CTRL.EN : Fld := ⟨0, 1, .rw, 0⟩
def MGT_CMX_CTRL.DIV : Fld := ⟨8, 8, .rw, 1⟩
def MGT_CMX_CTRL.PORT : Fld := ⟨16, 16, .rw, 0x2710⟩
def MGT_CMX_IP : Nat := base_mgt + 0x44
def MGT_CMX_IP.ADDR : Fld := ⟨0, 32, .rw, 0⟩
def MGT_CMX_SKIP : Nat := base_mgt + 0x48
def MGT_FWU_CTRL : Nat := base_mgt + 0x100
def MGT_FWU_CTRL.GO : Fld := ⟨0, 1, .wo, 0⟩
def MGT_FWU_CTRL.CONFIRM : Fld := ⟨1, 1, .wo, 0⟩
def MGT_FWU_CTRL.ABORT : Fld := ⟨2, 1, .wo, 0⟩
def MGT_FWU_CTRL.AUTOCONF : Fld := ⟨3, 1, .rw, 0⟩
def MGT_FWU_CTRL.RAISE_SVN : Fld := ⟨4, 1, .wo, 0⟩
def MGT_FWU_STAT : Nat := base_mgt + 0x104
def MGT_FWU_STAT.STATE : Fld := ⟨0, 3, .ro, 0⟩
def MGT_FWU_STAT.HEALTHY : Fld := ⟨3, 1, .ro, 0⟩
def MGT_FWU_STAT.COMP : Fld := ⟨4, 4, .ro, 0⟩
def MGT_FWU_STAT.CODE : Fld := ⟨8, 8, .ro, 0⟩
def MGT_FWU_STAT.CAUSE : Fld := ⟨16, 4, .ro, 0⟩
def MGT_FWU_SRC : Nat := base_mgt + 0x108
def MGT_FWU_SRC.ADDR : Fld := ⟨0, 48, .rw, 0⟩
def MGT_FWU_LEN : Nat := base_mgt + 0x110
def MGT_FWU_LEN.LEN : Fld := ⟨0, 32, .rw, 0⟩
def MGT_FWU_WIN : Nat := base_mgt + 0x114
def MGT_FWU_WIN.S : Fld := ⟨0, 16, .rw, 0x12c⟩
def MGT_FW_CUR (x : Nat) : Nat := base_mgt + 0x150 + 16 * x
def MGT_FW_CUR.VERSION : Fld := ⟨0, 32, .ro, 0⟩
def MGT_FW_LKG (x : Nat) : Nat := base_mgt + 0x154 + 16 * x
def MGT_FW_LKG.VERSION : Fld := ⟨0, 32, .ro, 0⟩
def MGT_FW_PEND (x : Nat) : Nat := base_mgt + 0x158 + 16 * x
def MGT_FW_PEND.VERSION : Fld := ⟨0, 32, .ro, 0⟩
def MGT_FW_SVN (x : Nat) : Nat := base_mgt + 0x15C + 16 * x
def MGT_FW_SVN.SVN : Fld := ⟨0, 8, .ro, 0⟩
def MGT_FW_SVN.MINSVN : Fld := ⟨8, 8, .ro, 0⟩
def MGT_SENS (x : Nat) : Nat := base_mgt + 0x400 + 4 * x
def MGT_SENS.VALUE : Fld := ⟨0, 16, .ro, 0⟩
def MGT_SENS.VALID : Fld := ⟨16, 1, .ro, 0⟩
def MGT_SENS.WARN : Fld := ⟨17, 1, .ro, 0⟩
def MGT_SENS.CRIT : Fld := ⟨18, 1, .ro, 0⟩
def MGT_THERM_CTRL : Nat := base_mgt + 0x500
def MGT_THERM_CTRL.EN : Fld := ⟨0, 1, .rw, 1⟩
def MGT_THERM_CTRL.TPT : Fld := ⟨4, 8, .rw, 0x64⟩
def MGT_THERM_STAT : Nat := base_mgt + 0x504
def MGT_THERM_STAT.THROT : Fld := ⟨0, 4, .ro, 0⟩
def MGT_THERM_STAT.DEVTHR : Fld := ⟨4, 1, .ro, 0⟩
def MGT_THERM_CNT : Nat := base_mgt + 0x508
def MGT_BOOT_STAT : Nat := base_mgt + 0x800
def MGT_BOOT_STAT.STAGE : Fld := ⟨0, 4, .ro, 0⟩
def MGT_BOOT_STAT.FHCAUSE : Fld := ⟨8, 4, .ro, 0⟩
def MGT_BOOT_STAT.DEGRADED : Fld := ⟨12, 1, .ro, 0⟩
def MGT_BOOT_STAT.CLFAIL : Fld := ⟨16, 8, .ro, 0⟩
def MGT_BOOT_LNK : Nat := base_mgt + 0x804
def MGT_BOOT_LNK.WAIT : Fld := ⟨0, 16, .rw, 0x12c⟩
def MGT_BOOT_LNK.QFAIL : Fld := ⟨16, 4, .rw, 1⟩
def MGT_BOOT_T : Nat := base_mgt + 0x808
def MGT_BOOT_T.NS : Fld := ⟨0, 64, .ro, 0⟩
def MGT_RST_CTRL : Nat := base_mgt + 0x810
def MGT_RST_CTRL.DEV : Fld := ⟨0, 1, .wo, 0⟩
def MGT_RST_CTRL.MGTR : Fld := ⟨1, 1, .wo, 0⟩
def MGT_RST_CTRL.PART : Fld := ⟨4, 4, .wo, 0⟩
def MGT_RST_STAT : Nat := base_mgt + 0x814
def MGT_RST_STAT.BUSY : Fld := ⟨0, 4, .ro, 0⟩
def MGT_RST_STAT.CODE : Fld := ⟨8, 8, .ro, 0⟩
def MGT_RST_STAT.ABSORB : Fld := ⟨16, 4, .ro, 0⟩
def MGT_RST_TMO : Nat := base_mgt + 0x818
def MGT_RST_TMO.US : Fld := ⟨0, 20, .rw, 0x64⟩
def MGT_RST_CAUSE : Nat := base_mgt + 0x81C
def MGT_RST_CAUSE.CAUSE : Fld := ⟨0, 4, .ro, 0⟩
def RAS_STAT : Nat := base_mgt + 0x900
def RAS_STAT.EXPOSED : Fld := ⟨0, 1, .ro, 0⟩
def RAS_STAT.DEGRADED : Fld := ⟨1, 1, .ro, 0⟩
def RAS_STAT.SPSLOT : Fld := ⟨8, 7, .ro, 0⟩
def RAS_STAT.SPSEG : Fld := ⟨16, 7, .ro, 0⟩
def RAS_FREC_CNT : Nat := base_mgt + 0x904
def RAS_FREC_SEL (q : Nat) : Nat := bankKey q (base_mgt + 0x908)
def RAS_FREC_SEL.IDX : Fld := ⟨0, 6, .rw, 0⟩
def RAS_FREC_DATA (q : Nat) (x : Nat) : Nat := bankKey q (base_mgt + 0x910 + 4 * x)
def RAS_FREC_DATA.WORD : Fld := ⟨0, 32, .ro, 0⟩
def RAS_CNT_MASKED : Nat := base_mgt + 0x930
def RAS_CNT_VISIBLE : Nat := base_mgt + 0x934
def RAS_CNT_DUP : Nat := base_mgt + 0x938
def LOG_CTRL : Nat := base_mgt + 0xC00
def LOG_CTRL.PMIN : Fld := ⟨0, 3, .rw, 2⟩
def LOG_CTRL.SYSLOG : Fld := ⟨3, 1, .rw, 0⟩
def LOG_HEAD : Nat := base_mgt + 0xC04
def LOG_HEAD.NUM : Fld := ⟨0, 32, .ro, 0⟩
def LOG_TAIL : Nat := base_mgt + 0xC08
def LOG_TAIL.NUM : Fld := ⟨0, 32, .ro, 0⟩
def LOG_SEL (q : Nat) : Nat := bankKey q (base_mgt + 0xC0C)
def LOG_SEL.NUM : Fld := ⟨0, 32, .wo, 0⟩
def LOG_STAT (q : Nat) : Nat := bankKey q (base_mgt + 0xC10)
def LOG_STAT.SRC : Fld := ⟨0, 1, .rw, 0⟩
def LOG_STAT.GONE : Fld := ⟨1, 1, .ro, 0⟩
def LOG_DROP : Nat := base_mgt + 0xC14
def LOG_SYSLOG : Nat := base_mgt + 0xC18
def LOG_SYSLOG.ADDR : Fld := ⟨0, 32, .rw, 0⟩
def LOG_DATA (q : Nat) (x : Nat) : Nat := bankKey q (base_mgt + 0xC40 + 4 * x)
def LOG_DATA.WORD : Fld := ⟨0, 32, .ro, 0⟩
def PWR_STATUS : Nat := base_pwr + 0x0
def PWR_STATUS.ON : Fld := ⟨0, 6, .ro, 0⟩
def PWR_DEV_CTRL : Nat := base_pwr + 0x4
def PWR_DEV_CTRL.STANDBY : Fld := ⟨0, 1, .wo, 0⟩
def PWR_DEV_CTRL.HOLD : Fld := ⟨1, 1, .rw, 0⟩
def PWR_WAKE_EN : Nat := base_pwr + 0x8
def PWR_WAKE_EN.SRC : Fld := ⟨0, 6, .rw, 0x1f⟩
def PWR_WAKE_EN.TMR : Fld := ⟨8, 3, .rw, 0⟩
def PWR_WAKE_CAUSE : Nat := base_pwr + 0xC
def PWR_WAKE_CAUSE.SRC : Fld := ⟨0, 6, .ro, 0⟩
def PWR_REQ : Nat := base_pwr + 0x10
def PWR_REQ.DOMAIN : Fld := ⟨0, 7, .rw, 0⟩
def PWR_REQ.ACTION : Fld := ⟨8, 2, .rw, 0⟩
def PWR_REQ.GO : Fld := ⟨31, 1, .wo, 0⟩
def PWR_REQ_STAT : Nat := base_pwr + 0x14
def PWR_REQ_STAT.BUSY : Fld := ⟨0, 1, .ro, 0⟩
def PWR_REQ_STAT.PHASE : Fld := ⟨1, 2, .ro, 0⟩
def PWR_REQ_STAT.CODE : Fld := ⟨8, 8, .ro, 0⟩
def PWR_REQ_STAT.DOMAIN : Fld := ⟨16, 7, .ro, 0⟩
def PWR_DRAIN_TMO : Nat := base_pwr + 0x18
def PWR_DRAIN_TMO.US : Fld := ⟨0, 20, .rw, 0x64⟩
def PWR_FEED_CTRL : Nat := base_pwr + 0x1C
def PWR_FEED_CTRL.STICKY : Fld := ⟨0, 1, .rw, 0⟩
def PWR_FEED_STAT : Nat := base_pwr + 0x20
def PWR_FEED_STAT.A_OK : Fld := ⟨0, 1, .ro, 0⟩
def PWR_FEED_STAT.B_OK : Fld := ⟨1, 1, .ro, 0⟩
def PWR_FEED_STAT.ON_B : Fld := ⟨2, 1, .ro, 0⟩
def PWR_FEED_STAT.HOLDUP : Fld := ⟨3, 1, .ro, 0⟩
def PWR_FEED_STAT.A_SEEN_BAD : Fld := ⟨4, 1, .w1c, 0⟩
def PWR_FEED_STAT.B_SEEN_BAD : Fld := ⟨5, 1, .w1c, 0⟩
def PWR_FEED_STAT.LOSS : Fld := ⟨6, 1, .w1c, 0⟩
def PWR_FEED_SW : Nat := base_pwr + 0x24
def PWR_DRAIN_FAIL : Nat := base_pwr + 0x28
def CLK_STATUS : Nat := base_pwr + 0x800
def CLK_STATUS.MP_PLL : Fld := ⟨0, 1, .ro, 0⟩
def CLK_STATUS.NET_LOCK : Fld := ⟨1, 1, .ro, 0⟩
def CLK_STATUS.REF100_OK : Fld := ⟨2, 1, .ro, 0⟩
def CLK_STATUS.REF156_OK : Fld := ⟨3, 1, .ro, 0⟩
def CLK_STATUS.HOLDOVER : Fld := ⟨4, 1, .ro, 0⟩
def CLK_SRC : Nat := base_pwr + 0x804
def CLK_SRC.SRC : Fld := ⟨0, 1, .rw, 0⟩
def CLK_CL_OSC : Nat := base_pwr + 0x808
def CLK_CL_OSC.OSC : Fld := ⟨0, 64, .ro, 0⟩
def CLK_CL_SW : Nat := base_pwr + 0x810
def CLK_CL_SW.CLUSTER : Fld := ⟨0, 6, .wo, 0⟩
def CLK_CTRL : Nat := base_pwr + 0x814
def CLK_CTRL.AUTOSW : Fld := ⟨0, 1, .rw, 0⟩
def CLK_REF_LOSS : Nat := base_pwr + 0x818
def PWR_CL_STATE (x : Nat) : Nat := base_pwr + 0x30 + 4 * x
def PWR_CL_STATE.CL_0 : Fld := ⟨0, 2, .ro, 0⟩
def PWR_CL_STATE.CL_1 : Fld := ⟨2, 2, .ro, 0⟩
def PWR_CL_STATE.CL_2 : Fld := ⟨4, 2, .ro, 0⟩
def PWR_CL_STATE.CL_3 : Fld := ⟨6, 2, .ro, 0⟩
def PWR_CL_STATE.CL_4 : Fld := ⟨8, 2, .ro, 0⟩
def PWR_CL_STATE.CL_5 : Fld := ⟨10, 2, .ro, 0⟩
def PWR_CL_STATE.CL_6 : Fld := ⟨12, 2, .ro, 0⟩
def PWR_CL_STATE.CL_7 : Fld := ⟨14, 2, .ro, 0⟩
def PWR_CL_STATE.CL_8 : Fld := ⟨16, 2, .ro, 0⟩
def PWR_CL_STATE.CL_9 : Fld := ⟨18, 2, .ro, 0⟩
def PWR_CL_STATE.CL_10 : Fld := ⟨20, 2, .ro, 0⟩
def PWR_CL_STATE.CL_11 : Fld := ⟨22, 2, .ro, 0⟩
def PWR_CL_STATE.CL_12 : Fld := ⟨24, 2, .ro, 0⟩
def PWR_CL_STATE.CL_13 : Fld := ⟨26, 2, .ro, 0⟩
def PWR_CL_STATE.CL_14 : Fld := ⟨28, 2, .ro, 0⟩
def PWR_CL_STATE.CL_15 : Fld := ⟨30, 2, .ro, 0⟩
def STEP_CTRL (i : Nat) : Nat := base_step i + 0x0
def STEP_CTRL.MODE : Fld := ⟨0, 1, .rw, 0⟩
def STEP_CTRL.TSRC : Fld := ⟨1, 1, .rw, 0⟩
def STEP_CTRL.TMR : Fld := ⟨2, 3, .rw, 0⟩
def STEP_CTRL.START : Fld := ⟨8, 1, .wo, 0⟩
def STEP_CTRL.STOP : Fld := ⟨9, 1, .wo, 0⟩
def STEP_CTRL.LAGMAX : Fld := ⟨16, 4, .rw, 4⟩
def STEP_STATUS (i : Nat) : Nat := base_step i + 0x4
def STEP_STATUS.STATE : Fld := ⟨0, 2, .ro, 0⟩
def STEP_STATUS.SLIP : Fld := ⟨2, 1, .ro, 0⟩
def STEP_STATUS.BAR_TMO : Fld := ⟨3, 1, .w1c, 0⟩
def STEP_STATUS.FWDSHIFT : Fld := ⟨4, 1, .w1c, 0⟩
def STEP_STATUS.LIMIT_HIT : Fld := ⟨5, 1, .w1c, 0⟩
def STEP_CUR (i : Nat) : Nat := base_step i + 0x8
def STEP_CUR.STEP : Fld := ⟨0, 48, .rw, 0⟩
def STEP_LIMIT (i : Nat) : Nat := base_step i + 0x10
def STEP_LIMIT.LIMIT : Fld := ⟨0, 48, .rw, 0xfffffffffffe⟩
def STEP_PERIOD (i : Nat) : Nat := base_step i + 0x18
def STEP_PERIOD.NS : Fld := ⟨0, 32, .rw, 0x186a0⟩
def STEP_MINLEN (i : Nat) : Nat := base_step i + 0x1C
def STEP_MINLEN.NS : Fld := ⟨0, 32, .rw, 0x3e8⟩
def STEP_ANCHOR_T (i : Nat) : Nat := base_step i + 0x20
def STEP_ANCHOR_T.T : Fld := ⟨0, 64, .rw, 0⟩
def STEP_ANCHOR_S (i : Nat) : Nat := base_step i + 0x28
def STEP_ANCHOR_S.S : Fld := ⟨0, 48, .rw, 0⟩
def STEP_OPEN_T (i : Nat) : Nat := base_step i + 0x30
def STEP_OPEN_T.T : Fld := ⟨0, 64, .ro, 0⟩
def STEP_SHIFT (i : Nat) : Nat := base_step i + 0x38
def STEP_SHIFT.SHIFT : Fld := ⟨0, 64, .ro, 0⟩
def STEP_BAR_TMO (i : Nat) : Nat := base_step i + 0x40
def STEP_BAR_TMO.US : Fld := ⟨0, 32, .rw, 0x2710⟩
def STEP_SGRP (i : Nat) : Nat := base_step i + 0x44
def STEP_SGRP.PARENT : Fld := ⟨0, 12, .rw, 0⟩
def STEP_SGRP.ROOT : Fld := ⟨12, 1, .rw, 1⟩
def STEP_SGRP.NCHILD : Fld := ⟨16, 4, .rw, 0⟩
def STEP_OVR (i : Nat) : Nat := base_step i + 0x48
def STEP_SLIP (i : Nat) : Nat := base_step i + 0x4C
def STEP_TMO (i : Nat) : Nat := base_step i + 0x50
def STEP_DUPTOK (i : Nat) : Nat := base_step i + 0x54
def TIME_CTRL : Nat := base_time + 0x0
def TIME_CTRL.SRC : Fld := ⟨0, 3, .rw, 0⟩
def TIME_CTRL.BIGSLEW : Fld := ⟨4, 1, .rw, 0⟩
def TIME_CTRL.PPSO_EN : Fld := ⟨8, 1, .rw, 0⟩
def TIME_STATUS : Nat := base_time + 0x4
def TIME_STATUS.LOCK : Fld := ⟨0, 2, .ro, 0⟩
def TIME_STATUS.SLEWING : Fld := ⟨2, 1, .ro, 0⟩
def TIME_STATUS.BACKSTEP : Fld := ⟨3, 1, .ro, 0⟩
def TIME_STATUS.BACKSEEN : Fld := ⟨4, 1, .w1c, 0⟩
def TIME_STATUS.FWDSTEP : Fld := ⟨5, 1, .w1c, 0⟩
def TIME_STATUS.PPS_MISS : Fld := ⟨6, 1, .w1c, 0⟩
def TIME_STATUS.TOD_LATE : Fld := ⟨7, 1, .w1c, 0⟩
def TIME_STATUS.REFLOSS : Fld := ⟨8, 1, .ro, 0⟩
def TIME64 : Nat := base_time + 0x8
def TIME64.NS : Fld := ⟨0, 64, .ro, 0⟩
def TIME_EXT : Nat := base_time + 0x10
def TIME_EXT.NS : Fld := ⟨0, 64, .ro, 0⟩
def TIME_BACKSTEP_OFS : Nat := base_time + 0x18
def TIME_BACKSTEP_OFS.OFS : Fld := ⟨0, 64, .ro, 0⟩
def TIME_ADJ : Nat := base_time + 0x20
def TIME_ADJ.O : Fld := ⟨0, 64, .wo, 0⟩
def TIME_RATE : Nat := base_time + 0x28
def TIME_RATE.TRIM : Fld := ⟨0, 32, .rw, 0⟩
def TIME_SLEW : Nat := base_time + 0x2C
def TIME_SLEW.PPM : Fld := ⟨0, 8, .rw, 0xc8⟩
def TIME_PPS_CAP : Nat := base_time + 0x30
def TIME_PPS_CAP.NS : Fld := ⟨0, 64, .ro, 0⟩
def TIME_TOD : Nat := base_time + 0x38
def TIME_TOD.SEC : Fld := ⟨0, 48, .rw, 0⟩
def TIME_PPSO : Nat := base_time + 0x40
def TIME_PPSO.WIDTH : Fld := ⟨0, 16, .rw, 0x64⟩
def TIME_PPSO_OFS : Nat := base_time + 0x44
def TIME_PPSO_OFS.OFS : Fld := ⟨0, 32, .rw, 0⟩
def TIME_LOCKWIN : Nat := base_time + 0x48
def TIME_LOCKWIN.NS : Fld := ⟨0, 32, .rw, 0x1f4⟩
def TMR_CTRL (n : Nat) : Nat := base_tmr n + 0x0
def TMR_CTRL.EN : Fld := ⟨0, 1, .rw, 0⟩
def TMR_CTRL.CLR : Fld := ⟨1, 1, .wo, 0⟩
def TMR_CTRL.SRC : Fld := ⟨4, 3, .rw, 1⟩
def TMR_CTRL.GATE : Fld := ⟨8, 2, .rw, 0⟩
def TMR_CTRL.LEAD : Fld := ⟨10, 3, .rw, 0⟩
def TMR_CTRL.FMODE : Fld := ⟨13, 2, .rw, 0⟩
def TMR_CTRL.CMP0_IE : Fld := ⟨16, 1, .rw, 0⟩
def TMR_CTRL.CMP1_IE : Fld := ⟨17, 1, .rw, 0⟩
def TMR_STATUS (n : Nat) : Nat := base_tmr n + 0x4
def TMR_STATUS.RUNNING : Fld := ⟨0, 1, .ro, 0⟩
def TMR_STATUS.CMP0_HIT : Fld := ⟨1, 1, .w1c, 0⟩
def TMR_STATUS.CMP1_HIT : Fld := ⟨2, 1, .w1c, 0⟩
def TMR_PRE_INC (n : Nat) : Nat := base_tmr n + 0x8
def TMR_PRE_INC.INC : Fld := ⟨0, 32, .rw, 0⟩
def TMR_COUNT (n : Nat) : Nat := base_tmr n + 0x10
def TMR_COUNT.COUNT : Fld := ⟨0, 64, .rw, 0⟩
def TMR_CMP0 (n : Nat) : Nat := base_tmr n + 0x18
def TMR_CMP0.CMP : Fld := ⟨0, 64, .rw, 0xffffffffffffffff⟩
def TMR_INT0 (n : Nat) : Nat := base_tmr n + 0x20
def TMR_INT0.INT : Fld := ⟨0, 64, .rw, 0⟩
def TMR_CMP1 (n : Nat) : Nat := base_tmr n + 0x28
def TMR_CMP1.CMP : Fld := ⟨0, 64, .rw, 0xffffffffffffffff⟩
def TMR_INT1 (n : Nat) : Nat := base_tmr n + 0x30
def TMR_INT1.INT : Fld := ⟨0, 64, .rw, 0⟩
def TMR_MISS (n : Nat) : Nat := base_tmr n + 0x38
def TMR_OWN (n : Nat) : Nat := base_tmr n + 0x3C
def TMR_OWN.INST : Fld := ⟨0, 4, .rw, 0⟩
def TMR_OWN.VALID : Fld := ⟨4, 1, .rw, 0⟩
def SYNC_MEAS_CTRL : Nat := base_sync + 0x0
def SYNC_MEAS_CTRL.GO : Fld := ⟨0, 1, .wo, 0⟩
def SYNC_MEAS_CTRL.MODE : Fld := ⟨1, 2, .rw, 0⟩
def SYNC_MEAS_CTRL.CANCEL : Fld := ⟨3, 1, .wo, 0⟩
def SYNC_MEAS_CTRL.INST : Fld := ⟨4, 4, .rw, 0⟩
def SYNC_MEAS_STEP : Nat := base_sync + 0x8
def SYNC_MEAS_STEP.STEP : Fld := ⟨0, 48, .rw, 0⟩
def SYNC_MEAS_TIME : Nat := base_sync + 0x10
def SYNC_MEAS_TIME.T : Fld := ⟨0, 64, .rw, 0⟩
def SYNC_MEAS_STAT : Nat := base_sync + 0x18
def SYNC_MEAS_STAT.BUSY : Fld := ⟨0, 1, .ro, 0⟩
def SYNC_MEAS_STAT.PEND : Fld := ⟨1, 1, .ro, 0⟩
def SYNC_MEAS_STAT.TMO : Fld := ⟨2, 1, .ro, 0⟩
def SYNC_MEAS_STAT.MISS : Fld := ⟨8, 8, .ro, 0⟩
def SYNC_MEAS_STAT.LAST : Fld := ⟨16, 16, .ro, 0⟩
def SYNC_MEAS_VIEW (q : Nat) : Nat := bankKey q (base_sync + 0x1C)
def SYNC_MEAS_VIEW.SHADOW : Fld := ⟨0, 1, .rw, 0⟩
def SYNC_MEAS_T : Nat := base_sync + 0x20
def SYNC_MEAS_T.T : Fld := ⟨0, 64, .ro, 0⟩
def SYNC_STAT_CTRL (q : Nat) : Nat := bankKey q (base_sync + 0x800)
def SYNC_STAT_CTRL.GO : Fld := ⟨0, 1, .wo, 0⟩
def SYNC_STAT_CTRL.WHEN : Fld := ⟨1, 2, .rw, 0⟩
def SYNC_STAT_CTRL.CLR : Fld := ⟨3, 1, .rw, 0⟩
def SYNC_STAT_CTRL.INST : Fld := ⟨4, 4, .rw, 0⟩
def SYNC_STAT_CTRL.BUSY : Fld := ⟨8, 1, .ro, 0⟩
def SYNC_STAT_CTRL.TAG : Fld := ⟨16, 16, .ro, 0⟩
def SYNC_MAXABS_I_P (q : Nat) (x : Nat) : Nat := bankKey q (base_sync + 0x810 + 4 * x)
def SYNC_MAXABS_I_P.MAX : Fld := ⟨0, 32, .ro, 0⟩
def SYNC_MAXABS_I_DEV (q : Nat) : Nat := bankKey q (base_sync + 0x820)
def SYNC_MAXABS_I_DEV.MAX : Fld := ⟨0, 32, .ro, 0⟩
def SYNC_MAXABS_F_P (q : Nat) (x : Nat) : Nat := bankKey q (base_sync + 0x830 + 4 * x)
def SYNC_MAXABS_F_P.MAX : Fld := ⟨0, 32, .ro, 0⟩
def SYNC_MAXABS_F_DEV (q : Nat) : Nat := bankKey q (base_sync + 0x840)
def SYNC_MAXABS_F_DEV.MAX : Fld := ⟨0, 32, .ro, 0⟩
def SYNC_CLIP_DEV (q : Nat) : Nat := bankKey q (base_sync + 0x848)
def SYNC_ELEM_DEV (q : Nat) : Nat := bankKey q (base_sync + 0x850)
def DNET_STATUS : Nat := base_dnet + 0x0
def DNET_STATUS.SPINE_OK : Fld := ⟨0, 16, .ro, 0xffff⟩
def DNET_SPMAP : Nat := base_dnet + 0x8
def DNET_SPMAP.SPN : Fld := ⟨0, 64, .rw, 0xfedcba9876543210⟩
def DNET_STALL_TMO : Nat := base_dnet + 0x10
def DNET_STALL_TMO.CYC : Fld := ⟨0, 24, .rw, 0x186a00⟩
def DNET_CMAP_CTRL : Nat := base_dnet + 0x14
def DNET_CMAP_CTRL.PERIOD : Fld := ⟨0, 10, .rw, 0x64⟩
def DNET_CMAP_CTRL.EN : Fld := ⟨16, 1, .rw, 0⟩
def DNET_CNT_CLR : Nat := base_dnet + 0x1C
def DNET_CNT_CLR.CLR : Fld := ⟨0, 1, .wo, 0⟩
def DNET_SHARE (x : Nat) : Nat := base_dnet + 0x40 + 4 * x
def DNET_SHARE.WEIGHT : Fld := ⟨0, 8, .rw, 0x10⟩
def DNET_SHARE_TR : Nat := base_dnet + 0x80
def DNET_SHARE_TR.WEIGHT : Fld := ⟨0, 8, .rw, 0x10⟩
def DNET_BLK (x : Nat) : Nat := base_dnet + 0x100 + 4 * x
def DNET_BLK.CLNUM : Fld := ⟨0, 6, .rw, 0⟩
def DNET_BLK.INST : Fld := ⟨8, 4, .rw, 0⟩
def DNET_BLK.IVAL : Fld := ⟨12, 1, .rw, 0⟩
def DNET_BLK.VALID : Fld := ⟨31, 1, .rw, 0⟩
def DNET_HDR_CE : Nat := base_dnet + 0x800
def DNET_HDR_UE : Nat := base_dnet + 0x804
def DNET_UNROUTE : Nat := base_dnet + 0x808
def DNET_INST_ERR : Nat := base_dnet + 0x80C
def DNET_HOP_RETRY : Nat := base_dnet + 0x810
def DNET_DUP : Nat := base_dnet + 0x814
def DNET_STALL : Nat := base_dnet + 0x818
def DNET_SPINE_FAIL : Nat := base_dnet + 0x81C
def DNET_SYNC_UE : Nat := base_dnet + 0x820
def DNET_CTL_TMO : Nat := base_dnet + 0x824
def DNET_CMAP (x : Nat) : Nat := base_dnet + 0x1000 + 4 * x
def DNET_CMAP.WORD : Fld := ⟨0, 32, .ro, 0⟩
def DNET_EP_TXF (e : Nat) : Nat := base_dnetEp e + 0x0
def DNET_EP_RXF (e : Nat) : Nat := base_dnetEp e + 0x8
def DNET_EP_STALL (e : Nat) : Nat := base_dnetEp e + 0x10
def DNET_EP_LOAD (e : Nat) : Nat := base_dnetEp e + 0x14
def DNET_EP_LOAD.EVT : Fld := ⟨0, 10, .ro, 0⟩
def DNET_EP_LOAD.ALL : Fld := ⟨16, 10, .ro, 0⟩
def SHM_TEST : Nat := base_shm + 0x0
def SHM_TEST.EN : Fld := ⟨0, 1, .rw, 0⟩
def SHM_TEST.INTV : Fld := ⟨16, 16, .rw, 0x640⟩
def SHM_XWIN : Nat := base_shm + 0x4
def SHM_XWIN.ACTIVE : Fld := ⟨0, 1, .rw, 0⟩
def SHM_XWIN.BASE : Fld := ⟨10, 15, .rwl, 0⟩
def SHM_XWIN_LEN : Nat := base_shm + 0x8
def SHM_XWIN_LEN.LEN : Fld := ⟨10, 15, .rwl, 0⟩
def SHM_CLR_BASE : Nat := base_shm + 0x10
def SHM_CLR_BASE.BASE : Fld := ⟨0, 25, .rw, 0⟩
def SHM_CLR_LEN : Nat := base_shm + 0x14
def SHM_CLR_LEN.LEN : Fld := ⟨0, 26, .rw, 0⟩
def SHM_CLR_CTRL : Nat := base_shm + 0x18
def SHM_CLR_CTRL.GO : Fld := ⟨0, 1, .wo, 0⟩
def SHM_CLR_CTRL.BUSY : Fld := ⟨1, 1, .ro, 0⟩
def SHM_CLR_CTRL.CODE : Fld := ⟨8, 8, .ro, 0⟩
def SHM_CNT_CLR : Nat := base_shm + 0x1C
def SHM_CNT_CLR.CLR : Fld := ⟨0, 1, .wo, 0⟩
def SHM_OWN (x : Nat) : Nat := base_shm + 0x100 + 4 * x
def SHM_OWN.INST : Fld := ⟨0, 4, .rw, 0⟩
def SHM_OWN.VALID : Fld := ⟨4, 1, .rw, 0⟩
def SHM_CONF (x : Nat) : Nat := base_shm + 0x1000 + 4 * x
def SHM_SL_STAT (sl : Nat) : Nat := base_shmSl sl + 0x0
def SHM_SL_STAT.FAILED : Fld := ⟨0, 1, .ro, 0⟩
def SHM_SL_STAT.SPARE_USED : Fld := ⟨1, 1, .ro, 0⟩
def SHM_SL_STAT.SPARE_FOR : Fld := ⟨2, 4, .ro, 0⟩
def SHM_SL_STAT.COPYING : Fld := ⟨6, 1, .ro, 0⟩
def SHM_SL_STAT.BANKOK : Fld := ⟨16, 16, .ro, 0xffff⟩
def SHM_SL_COLL (sl : Nat) : Nat := base_shmSl sl + 0x4
def SHM_SL_CONF (sl : Nat) : Nat := base_shmSl sl + 0x8
def SHM_SL_ATOM (sl : Nat) : Nat := base_shmSl sl + 0xC
def SHM_SL_TWAIT (sl : Nat) : Nat := base_shmSl sl + 0x10
def SHM_SL_DEFER (sl : Nat) : Nat := base_shmSl sl + 0x14
def SHM_SL_TFAIL (sl : Nat) : Nat := base_shmSl sl + 0x18
def SHM_SL_RDB (sl : Nat) : Nat := base_shmSl sl + 0x20
def SHM_SL_WRB (sl : Nat) : Nat := base_shmSl sl + 0x28
def JLK_CTRL (p : Nat) : Nat := base_jlk p + 0x0
def JLK_CTRL.EN : Fld := ⟨0, 1, .rw, 1⟩
def JLK_CTRL.SLEEP : Fld := ⟨1, 1, .rw, 0⟩
def JLK_CTRL.FM_EN : Fld := ⟨2, 1, .rw, 1⟩
def JLK_CTRL.RETRAIN : Fld := ⟨3, 1, .wo, 0⟩
def JLK_STATUS (p : Nat) : Nat := base_jlk p + 0x4
def JLK_STATUS.STATE : Fld := ⟨0, 3, .ro, 1⟩
def JLK_STATUS.WIDTH : Fld := ⟨3, 4, .ro, 0⟩
def JLK_STATUS.WLOK : Fld := ⟨7, 9, .ro, 0⟩
def JLK_STATUS.SPARE : Fld := ⟨16, 4, .ro, 0xf⟩
def JLK_STATUS.DEGRADED : Fld := ⟨20, 1, .ro, 0⟩
def JLK_STATUS.REROUTING : Fld := ⟨21, 1, .ro, 0⟩
def JLK_STATUS.TXWIDTH : Fld := ⟨24, 4, .ro, 0⟩
def JLK_PEER (p : Nat) : Nat := base_jlk p + 0xC
def JLK_PEER.FADDR : Fld := ⟨0, 16, .ro, 0xffff⟩
def JLK_PEER.PORT : Fld := ⟨16, 4, .ro, 0⟩
def JLK_PEER.VALID : Fld := ⟨31, 1, .ro, 0⟩
def JLK_QUAL (p : Nat) : Nat := base_jlk p + 0x10
def JLK_QUAL.TIME : Fld := ⟨0, 16, .rw, 0x64⟩
def JLK_QUAL.SERMAX : Fld := ⟨16, 16, .rw, 0x3e8⟩
def JLK_THR (p : Nat) : Nat := base_jlk p + 0x14
def JLK_THR.SWAP : Fld := ⟨0, 24, .rw, 0x5780⟩
def JLK_TMO (p : Nat) : Nat := base_jlk p + 0x18
def JLK_TMO.LOS : Fld := ⟨0, 8, .rw, 0xa⟩
def JLK_TMO.LCF : Fld := ⟨8, 8, .rw, 0x14⟩
def JLK_TMO.STORM : Fld := ⟨16, 8, .rw, 8⟩
def JLK_FIT (p : Nat) : Nat := base_jlk p + 0x1C
def JLK_FIT.EN : Fld := ⟨0, 1, .rw, 1⟩
def JLK_FIT.PERIOD : Fld := ⟨8, 8, .rw, 0xa⟩
def JLK_CMAP (p : Nat) : Nat := base_jlk p + 0x20
def JLK_CMAP.WIDTH : Fld := ⟨0, 4, .ro, 0⟩
def JLK_CMAP.TXOCC : Fld := ⟨4, 2, .ro, 0⟩
def JLK_CMAP.RXOCC : Fld := ⟨6, 2, .ro, 0⟩
def JLK_CMAP.DOWN : Fld := ⟨8, 1, .ro, 0⟩
def JLK_CNT_CLR (p : Nat) : Nat := base_jlk p + 0x24
def JLK_CNT_CLR.CLR : Fld := ⟨0, 1, .wo, 0⟩
def JLK_LANEMAP (p : Nat) : Nat := base_jlk p + 0x8
def JLK_LANEMAP.WL : Fld := ⟨0, 32, .ro, 0xffffffff⟩
def JLK_RING (p : Nat) (x : Nat) : Nat := base_jlk p + 0x40 + 4 * x
def JLK_RING.TXH : Fld := ⟨0, 12, .ro, 0⟩
def JLK_RING.RXH : Fld := ⟨16, 12, .ro, 0⟩
def JLK_WL_SER (p : Nat) (x : Nat) : Nat := base_jlk p + 0x80 + 4 * x
def JLK_CW (p : Nat) : Nat := base_jlk p + 0x100
def JLK_CW_CORR (p : Nat) : Nat := base_jlk p + 0x108
def JLK_CW_UNCORR (p : Nat) : Nat := base_jlk p + 0x110
def JLK_GRP_ERR (p : Nat) : Nat := base_jlk p + 0x114
def JLK_NAK_TX (p : Nat) : Nat := base_jlk p + 0x118
def JLK_REPLAY (p : Nat) : Nat := base_jlk p + 0x11C
def JLK_LANE_SWAP (p : Nat) : Nat := base_jlk p + 0x120
def JLK_NARROW (p : Nat) : Nat := base_jlk p + 0x124
def JLK_DOWN (p : Nat) : Nat := base_jlk p + 0x128
def JLK_QUAL_FAIL (p : Nat) : Nat := base_jlk p + 0x12C
def JLK_REROUTE_FLITS (p : Nat) : Nat := base_jlk p + 0x130
def JLK_REROUTE_DROP (p : Nat) : Nat := base_jlk p + 0x134
def JLK_RX_CHKERR (p : Nat) : Nat := base_jlk p + 0x138
def JLK_RX_INST_ERR (p : Nat) : Nat := base_jlk p + 0x13C
def JLK_RX_BAD (p : Nat) : Nat := base_jlk p + 0x140
def JLK_TX_UNROUTE (p : Nat) : Nat := base_jlk p + 0x144
def JLK_QUENCH_DROP (p : Nat) : Nat := base_jlk p + 0x148
def JLK_RAW_REFUSED (p : Nat) : Nat := base_jlk p + 0x14C
def JLK_RBK_TMO (p : Nat) : Nat := base_jlk p + 0x150
def JLK_RX_DUP (p : Nat) : Nat := base_jlk p + 0x154
def JLK_FADDR : Nat := base_jlkDev + 0x0
def JLK_FADDR.FADDR : Fld := ⟨0, 16, .rw, 0xffff⟩
def JLK_RANK_CMD (q : Nat) : Nat := bankKey q (base_jlkDev + 0x4)
def JLK_RANK_CMD.RANK : Fld := ⟨0, 16, .rw, 0⟩
def JLK_RANK_CMD.INST : Fld := ⟨16, 4, .rw, 0⟩
def JLK_RANK_CMD.OP : Fld := ⟨20, 2, .wo, 0⟩
def JLK_RANK_CMD.CODE : Fld := ⟨24, 8, .ro, 0⟩
def JLK_RANK_DATA (q : Nat) : Nat := bankKey q (base_jlkDev + 0x8)
def JLK_RANK_DATA.ENTRY : Fld := ⟨0, 21, .rw, 0⟩
def JLK_ROUTE_CMD (q : Nat) : Nat := bankKey q (base_jlkDev + 0xC)
def JLK_ROUTE_CMD.FADDR : Fld := ⟨0, 16, .rw, 0⟩
def JLK_ROUTE_CMD.OP : Fld := ⟨20, 2, .wo, 0⟩
def JLK_ROUTE_CMD.CODE : Fld := ⟨24, 8, .ro, 0⟩
def JLK_ROUTE_DATA (q : Nat) : Nat := bankKey q (base_jlkDev + 0x10)
def JLK_ROUTE_DATA.ENTRY : Fld := ⟨0, 17, .rw, 0⟩
def JLK_REROUTE : Nat := base_jlkDev + 0x14
def JLK_REROUTE.WAIT : Fld := ⟨0, 16, .rw, 0x32⟩
def JLK_REROUTE.RBK_TMO : Fld := ⟨16, 16, .rw, 0x64⟩
def JLK_LASER : Nat := base_jlkDev + 0x18
def JLK_LASER.BANK : Fld := ⟨0, 9, .rw, 0⟩
def JLK_LASER.AFAULT : Fld := ⟨9, 9, .w1c, 0⟩
def JLK_LASER.BFAULT : Fld := ⟨18, 9, .w1c, 0⟩
def JLK_TBL_UE : Nat := base_jlkDev + 0x1C
def JLK_QUENCH_FULL : Nat := base_jlkDev + 0x20
def JLK_LASER_SW : Nat := base_jlkDev + 0x24
def JLK_OWNRANK (x : Nat) : Nat := base_jlkDev + 0x100 + 4 * x
def JLK_OWNRANK.RANK : Fld := ⟨0, 12, .rw, 0⟩
def JLK_OWNRANK.VALID : Fld := ⟨31, 1, .rw, 0⟩
def JLK_LAND_BASE (x : Nat) : Nat := base_jlkDev + 0x200 + 16 * x
def JLK_LAND_BASE.BASE : Fld := ⟨12, 36, .rw, 0⟩
def JLK_LAND_LEN (x : Nat) : Nat := base_jlkDev + 0x208 + 16 * x
def JLK_LAND_LEN.LEN : Fld := ⟨0, 23, .rw, 0⟩
def JLK_LAND_EN (x : Nat) : Nat := base_jlkDev + 0x20C + 16 * x
def JLK_LAND_EN.EN : Fld := ⟨0, 1, .rw, 0⟩
def JLK_QSTAT (x : Nat) : Nat := base_jlkDev + 0x300 + 4 * x
def JLK_QSTAT.QINST : Fld := ⟨0, 1, .ro, 0⟩
def JLK_QSTAT.DROP : Fld := ⟨1, 1, .ro, 0⟩
def JLK_QSTAT.NTGT : Fld := ⟨2, 7, .ro, 0⟩
def HOST_LINK : Nat := base_host + 0x0
def HOST_LINK.RATE : Fld := ⟨0, 3, .ro, 0⟩
def HOST_LINK.WIDTH : Fld := ⟨3, 5, .ro, 0⟩
def HOST_LINK.FLIT : Fld := ⟨8, 1, .ro, 0⟩
def HOST_LINK.L0PW : Fld := ⟨9, 5, .ro, 0⟩
def HOST_LINK.UP : Fld := ⟨31, 1, .ro, 0⟩
def HOST_CNT_CLR : Nat := base_host + 0x4
def HOST_CNT_CLR.CLR : Fld := ⟨0, 1, .wo, 0⟩
def HOST_PDLY (x : Nat) : Nat := base_host + 0x40 + 4 * x
def HOST_PDLY.US : Fld := ⟨0, 12, .rw, 0x20⟩
def HOST_EGR (x : Nat) : Nat := base_host + 0x80 + 4 * x
def HOST_EGR.RANK : Fld := ⟨0, 12, .rw, 0⟩
def HOST_EGR.RING : Fld := ⟨12, 3, .rw, 0⟩
def HOST_EGR.FNPF : Fld := ⟨15, 1, .rw, 0⟩
def HOST_EGR.MAXK : Fld := ⟨16, 8, .rw, 0x10⟩
def HOST_EGR.HOLD : Fld := ⟨30, 1, .rw, 0⟩
def HOST_EGR.VALID : Fld := ⟨31, 1, .rw, 0⟩
def HOST_FN_STAT (f : Nat) : Nat := base_hostFn f + 0x0
def HOST_FN_STAT.DBERR : Fld := ⟨0, 1, .w1c, 0⟩
def HOST_FN_STAT.LAST_MCODE : Fld := ⟨8, 8, .ro, 0⟩
def HOST_APER (f : Nat) : Nat := base_hostFn f + 0x8
def HOST_APER.BASE : Fld := ⟨30, 18, .rw, 0⟩
def RING_BASE (f : Nat) (x : Nat) : Nat := base_hostFn f + 0x100 + 32 * x
def RING_BASE.BASE : Fld := ⟨12, 52, .rw, 0⟩
def RING_IDXADDR (f : Nat) (x : Nat) : Nat := base_hostFn f + 0x108 + 32 * x
def RING_IDXADDR.ADDR : Fld := ⟨4, 60, .rw, 0⟩
def RING_CFG (f : Nat) (x : Nat) : Nat := base_hostFn f + 0x110 + 32 * x
def RING_CFG.EN : Fld := ⟨0, 1, .rw, 0⟩
def RING_CFG.TYPE : Fld := ⟨1, 3, .rw, 0⟩
def RING_CFG.LOG2SZ : Fld := ⟨4, 5, .rw, 6⟩
def RING_CFG.MARK : Fld := ⟨9, 1, .rw, 0⟩
def RING_CFG.VEC : Fld := ⟨16, 6, .rw, 0⟩
def RING_CFG.INST : Fld := ⟨24, 4, .rw, 0⟩
def RING_CFG.CRING : Fld := ⟨29, 3, .rw, 0⟩
def RING_DIDX (f : Nat) (x : Nat) : Nat := base_hostFn f + 0x114 + 32 * x
def RING_DIDX.IDX : Fld := ⟨0, 32, .ro, 0⟩
def RING_HIDX (f : Nat) (x : Nat) : Nat := base_hostFn f + 0x118 + 32 * x
def RING_HIDX.IDX : Fld := ⟨0, 32, .ro, 0⟩
def RING_MOD (f : Nat) (x : Nat) : Nat := base_hostFn f + 0x11C + 32 * x
def RING_MOD.CNT : Fld := ⟨0, 16, .rw, 1⟩
def RING_MOD.US : Fld := ⟨16, 16, .rw, 0⟩
def HOST_EV_BAD (f : Nat) : Nat := base_hostFn f + 0x300
def HOST_EV_CHKERR (f : Nat) : Nat := base_hostFn f + 0x304
def HOST_EV_LATE (f : Nat) : Nat := base_hostFn f + 0x308
def HOST_EGR_DROP (f : Nat) : Nat := base_hostFn f + 0x30C
def HOST_EGR_LATE (f : Nat) : Nat := base_hostFn f + 0x310
def HOST_EGR_RBK (f : Nat) : Nat := base_hostFn f + 0x314
def HOST_BK_STALE (f : Nat) : Nat := base_hostFn f + 0x318
def HOST_DB_ERR (f : Nat) : Nat := base_hostFn f + 0x31C
def HOST_DB_ERR.DB : Fld := ⟨0, 16, .ro, 0⟩
def HOST_DB_ERR.BAR : Fld := ⟨16, 16, .ro, 0⟩
def ETH_CTRL (p : Nat) : Nat := base_eth p + 0x0
def ETH_CTRL.EN : Fld := ⟨0, 1, .rw, 0⟩
def ETH_CTRL.PROMISC : Fld := ⟨1, 1, .rw, 0⟩
def ETH_CTRL.BCAST : Fld := ⟨2, 1, .rw, 1⟩
def ETH_CTRL.PTX : Fld := ⟨3, 1, .rw, 1⟩
def ETH_CTRL.PRX : Fld := ⟨4, 1, .rw, 1⟩
def ETH_STATUS (p : Nat) : Nat := base_eth p + 0x4
def ETH_STATUS.UP : Fld := ⟨0, 1, .ro, 0⟩
def ETH_STATUS.PCSLOCK : Fld := ⟨1, 1, .ro, 0⟩
def ETH_STATUS.PAUSED : Fld := ⟨2, 1, .ro, 0⟩
def ETH_OWN (p : Nat) : Nat := base_eth p + 0x8
def ETH_OWN.INST : Fld := ⟨0, 4, .rw, 0⟩
def ETH_OWN.VALID : Fld := ⟨31, 1, .rw, 0⟩
def ETH_PAUSE (p : Nat) : Nat := base_eth p + 0xC
def ETH_PAUSE.XOFF : Fld := ⟨0, 10, .rw, 0x180⟩
def ETH_PAUSE.XON : Fld := ⟨16, 10, .rw, 0x100⟩
def ETH_MAC (p : Nat) (x : Nat) : Nat := base_eth p + 0x10 + 8 * x
def ETH_MAC.MAC : Fld := ⟨0, 48, .rw, 0⟩
def ETH_MAC.VALID : Fld := ⟨63, 1, .rw, 0⟩
def ETH_FX (p : Nat) (x : Nat) : Nat := base_eth p + 0x100 + 4 * x
def ETH_FX.BASE : Fld := ⟨0, 2, .rw, 0⟩
def ETH_FX.OFS : Fld := ⟨4, 9, .rw, 0⟩
def ETH_FX.WIDTH : Fld := ⟨13, 2, .rw, 0⟩
def ETH_FX.EN : Fld := ⟨31, 1, .rw, 0⟩
def ETH_FXM (p : Nat) (x : Nat) : Nat := base_eth p + 0x140 + 4 * x
def ETH_FXM.MASK : Fld := ⟨0, 32, .rw, 0xffffffff⟩
def ETH_MATCH (p : Nat) (x : Nat) : Nat := base_eth p + 0x180 + 8 * x
def ETH_MATCH.MASK : Fld := ⟨0, 12, .rw, 0⟩
def ETH_MATCH.VALUE : Fld := ⟨16, 12, .rw, 0⟩
def ETH_MATCH.START : Fld := ⟨32, 8, .rw, 0⟩
def ETH_MATCH.EN : Fld := ⟨63, 1, .rw, 0⟩
def ETH_ENC_CTRL (p : Nat) : Nat := base_eth p + 0x1A0
def ETH_ENC_CTRL.EN : Fld := ⟨0, 1, .rw, 0⟩
def ETH_ENC_CTRL.CAUSE : Fld := ⟨4, 4, .ro, 0⟩
def ETH_ENC_CTRL.MIDX : Fld := ⟨8, 2, .ro, 0⟩
def ETH_EGR (p : Nat) : Nat := base_eth p + 0x200
def ETH_EGR.MAXREC : Fld := ⟨0, 11, .rw, 0xb4⟩
def ETH_EGR.FLUSH : Fld := ⟨11, 2, .rw, 0⟩
def ETH_EGR.L3 : Fld := ⟨13, 1, .rw, 0⟩
def ETH_EGR.CSUM : Fld := ⟨14, 1, .rw, 1⟩
def ETH_EGR.TPL_LEN : Fld := ⟨16, 8, .rw, 0x2a⟩
def ETH_EGR_DST (p : Nat) : Nat := base_eth p + 0x204
def ETH_EGR_DST.L3OFS : Fld := ⟨0, 8, .rw, 0xe⟩
def ETH_EGR_DST.L4OFS : Fld := ⟨8, 8, .rw, 0x22⟩
def ETH_EGR_DST.RANK : Fld := ⟨16, 12, .rw, 0⟩
def ETH_EGR_DST.VALID : Fld := ⟨31, 1, .rw, 0⟩
def ETH_CNT_CLR (p : Nat) : Nat := base_eth p + 0x208
def ETH_CNT_CLR.CLR : Fld := ⟨0, 1, .wo, 0⟩
def ETH_TPL (p : Nat) (x : Nat) : Nat := base_eth p + 0x400 + 4 * x
def ETH_TPL.DATA : Fld := ⟨0, 32, .rw, 0⟩
def ETH_PROG (p : Nat) (x : Nat) : Nat := base_eth p + 0x800 + 4 * x
def ETH_PROG.INSTR : Fld := ⟨0, 32, .rw, 0⟩
def ETH_RX_FRAMES (p : Nat) : Nat := base_eth p + 0x300
def ETH_RX_FCS (p : Nat) : Nat := base_eth p + 0x308
def ETH_RX_FILT (p : Nat) : Nat := base_eth p + 0x30C
def ETH_RX_OVF (p : Nat) : Nat := base_eth p + 0x310
def ETH_RX_LONG (p : Nat) : Nat := base_eth p + 0x314
def ETH_RX_STOPPED (p : Nat) : Nat := base_eth p + 0x318
def ETH_PAUSE_TX (p : Nat) : Nat := base_eth p + 0x31C
def ETH_ENC_NOMATCH (p : Nat) : Nat := base_eth p + 0x320
def ETH_ENC_EMITMAX (p : Nat) : Nat := base_eth p + 0x324
def ETH_EV_OUT (p : Nat) : Nat := base_eth p + 0x328
def ETH_TX_DGRAM (p : Nat) : Nat := base_eth p + 0x330
def ETH_EGR_DROP (p : Nat) : Nat := base_eth p + 0x338
def ETH_EGR_LATE (p : Nat) : Nat := base_eth p + 0x33C
def ETH_EGR_RBK (p : Nat) : Nat := base_eth p + 0x340
def MEMC_STATUS : Nat := base_memc + 0x0
def MEMC_STATUS.READY : Fld := ⟨0, 1, .ro, 0⟩
def MEMC_STATUS.PKGOK : Fld := ⟨1, 8, .ro, 0⟩
def MEMC_WIN (x : Nat) : Nat := base_memc + 0x10 + 16 * x
def MEMC_WIN.BASE : Fld := ⟨0, 10, .rw, 0⟩
def MEMC_WIN.LEN : Fld := ⟨16, 10, .rw, 0⟩
def MEMC_WIN.EN : Fld := ⟨31, 1, .rw, 0⟩
def MEMC_SCRUB (x : Nat) : Nat := base_memc + 0x14 + 16 * x
def MEMC_SCRUB.GO : Fld := ⟨0, 1, .wo, 0⟩
def MEMC_SCRUB.BUSY : Fld := ⟨1, 1, .ro, 0⟩
def MEMC_SCRUB.CODE : Fld := ⟨8, 8, .ro, 0⟩
def MEMC_LINK_CE : Nat := base_memc + 0x200
def MEMC_LINK_UE : Nat := base_memc + 0x204
def MEMC_RD_B : Nat := base_memc + 0x208
def MEMC_WR_B : Nat := base_memc + 0x210
def MEMC_ACC_REFUSED : Nat := base_memc + 0x218
def SEC_STATUS : Nat := base_sec + 0x0
def SEC_STATUS.BOOT_OK : Fld := ⟨0, 1, .ro, 0⟩
def SEC_STATUS.LKG : Fld := ⟨1, 1, .ro, 0⟩
def SEC_STATUS.DBG : Fld := ⟨2, 2, .ro, 0⟩
def SEC_STATUS.ANYCONF : Fld := ⟨4, 1, .ro, 0⟩
def SEC_CFG : Nat := base_sec + 0x4
def SEC_CFG.REQSIG : Fld := ⟨0, 1, .rwl, 0⟩
def SEC_CFG.LOCK : Fld := ⟨1, 1, .w1s, 0⟩
def SEC_INST_CMD (q : Nat) : Nat := bankKey q (base_sec + 0x10)
def SEC_INST_CMD.INST : Fld := ⟨0, 4, .rw, 0⟩
def SEC_INST_CMD.ANY : Fld := ⟨4, 1, .rw, 0⟩
def SEC_INST_CMD.OP : Fld := ⟨5, 3, .rw, 0⟩
def SEC_INST_CMD.SCRUB : Fld := ⟨8, 1, .rw, 0⟩
def SEC_INST_CMD.GO : Fld := ⟨31, 1, .wo, 0⟩
def SEC_INST_RES (q : Nat) : Nat := bankKey q (base_sec + 0x14)
def SEC_INST_RES.BUSY : Fld := ⟨0, 1, .ro, 0⟩
def SEC_INST_RES.INST : Fld := ⟨4, 4, .ro, 0⟩
def SEC_INST_RES.CODE : Fld := ⟨8, 8, .ro, 0⟩
def SEC_FENCE_TMO : Nat := base_sec + 0x18
def SEC_FENCE_TMO.MS : Fld := ⟨0, 16, .rw, 0x64⟩
def SEC_INST (x : Nat) : Nat := base_sec + 0x40 + 4 * x
def SEC_INST.STATE : Fld := ⟨0, 3, .ro, 0⟩
def SEC_INST.CONF : Fld := ⟨3, 1, .ro, 0⟩
def SEC_INST.TDI : Fld := ⟨4, 2, .ro, 0⟩
def SEC_INST.CLAIMED : Fld := ⟨6, 1, .ro, 0⟩
def SEC_INST.WRAPPED : Fld := ⟨7, 1, .ro, 0⟩
def SEC_INST.GEN : Fld := ⟨8, 8, .ro, 0⟩
def SEC_INST.PKEY : Fld := ⟨16, 1, .ro, 0⟩
def SEC_INST.SKEY : Fld := ⟨17, 1, .ro, 0⟩
def SEC_EXH (x : Nat) : Nat := base_sec + 0x80 + 4 * x
def SEC_EXH_SRC (x : Nat) : Nat := base_sec + 0xC0 + 4 * x
def SEC_EXH_SRC.ALLOC : Fld := ⟨0, 1, .w1c, 0⟩
def SEC_EXH_SRC.GATHER : Fld := ⟨1, 1, .w1c, 0⟩
def SEC_EXH_SRC.RANK : Fld := ⟨2, 1, .w1c, 0⟩
def SEC_EXH_SRC.CLR : Fld := ⟨31, 1, .wo, 0⟩
def SEC_MEAS_SEL (q : Nat) : Nat := bankKey q (base_sec + 0x100)
def SEC_MEAS_SEL.IDX : Fld := ⟨0, 8, .rw, 1⟩
def SEC_MEAS_DATA (q : Nat) (x : Nat) : Nat := bankKey q (base_sec + 0x104 + 4 * x)
def SEC_MEAS_DATA.DATA : Fld := ⟨0, 32, .ro, 0⟩
def SEC_DBG_CTRL : Nat := base_sec + 0x200
def SEC_DBG_CTRL.REQ : Fld := ⟨0, 2, .rw, 0⟩
def SEC_DBG_CTRL.CODE : Fld := ⟨8, 8, .ro, 0⟩
def SEC_DBG_CTRL.GO : Fld := ⟨31, 1, .wo, 0⟩
def SEC_DBG_NONCE (x : Nat) : Nat := base_sec + 0x210 + 4 * x
def SEC_DBG_NONCE.NONCE : Fld := ⟨0, 32, .ro, 0⟩
def SEC_DBG_RESP (x : Nat) : Nat := base_sec + 0x240 + 4 * x
def SEC_DBG_RESP.SIG : Fld := ⟨0, 32, .wo, 0⟩
def SEC_KEY (k : Nat) (x : Nat) : Nat := base_secKey k + 0x0 + 4 * x
def SEC_KEY.KEY : Fld := ⟨0, 32, .rwl, 0⟩
def SEC_KEY_VALID (k : Nat) : Nat := base_secKey k + 0x60
def SEC_KEY_VALID.VALID : Fld := ⟨0, 1, .rwl, 0⟩
def PAT_CTRL (q : Nat) : Nat := bankKey q (base_pat + 0x0)
def PAT_CTRL.GO : Fld := ⟨0, 1, .wo, 0⟩
def PAT_CTRL.OP : Fld := ⟨1, 3, .rw, 0⟩
def PAT_CTRL.INST : Fld := ⟨4, 4, .rw, 0⟩
def PAT_CTRL.SLOT : Fld := ⟨8, 2, .rw, 0⟩
def PAT_CTRL.SRCSLOT : Fld := ⟨10, 1, .rw, 0⟩
def PAT_CTRL.RUN : Fld := ⟨11, 1, .rw, 1⟩
def PAT_SRC (q : Nat) : Nat := bankKey q (base_pat + 0x8)
def PAT_SRC.ADDR : Fld := ⟨0, 48, .rw, 0⟩
def PAT_LEN (q : Nat) : Nat := bankKey q (base_pat + 0x10)
def PAT_LEN.LEN : Fld := ⟨0, 32, .rw, 0⟩
def PAT_STAT (q : Nat) : Nat := bankKey q (base_pat + 0x14)
def PAT_STAT.BUSY : Fld := ⟨0, 1, .ro, 0⟩
def PAT_STAT.QUEUED : Fld := ⟨1, 1, .ro, 0⟩
def PAT_STAT.PHASE : Fld := ⟨2, 3, .ro, 0⟩
def PAT_STAT.CODE : Fld := ⟨8, 8, .ro, 0⟩
def PAT_STAT.SECIDX : Fld := ⟨16, 16, .ro, 0⟩
def PAT_FAIL (q : Nat) : Nat := bankKey q (base_pat + 0x18)
def PAT_FAIL.CAUSE : Fld := ⟨0, 8, .ro, 0⟩
def PAT_FAIL.LCID : Fld := ⟨8, 12, .ro, 0xfff⟩
def PAT_DONE (q : Nat) : Nat := bankKey q (base_pat + 0x1C)
def PAT_DONE.BYTES : Fld := ⟨0, 32, .ro, 0⟩
def PAT_INST (x : Nat) : Nat := base_pat + 0x40 + 16 * x
def PAT_INST.STATE : Fld := ⟨0, 2, .ro, 0⟩
def PAT_INST_PID (x : Nat) : Nat := base_pat + 0x48 + 16 * x
def PAT_INST_PID.PID : Fld := ⟨0, 64, .ro, 0⟩
def PAT_AUTO : Nat := base_pat + 0x200
def PAT_AUTO.EN : Fld := ⟨0, 1, .rw, 0⟩
def PAT_AUTO.RUN : Fld := ⟨1, 1, .rw, 0⟩
def PAT_AUTO.ENT : Fld := ⟨8, 16, .rw, 0⟩
def PAT_SLOT (x : Nat) : Nat := base_pat + 0x210 + 16 * x
def PAT_SLOT.STATE : Fld := ⟨0, 2, .ro, 0⟩
def PAT_SLOT.INST : Fld := ⟨4, 4, .ro, 0⟩
def PAT_SLOT.KEYIDX : Fld := ⟨8, 8, .ro, 0⟩
def PAT_SLOT_LEN (x : Nat) : Nat := base_pat + 0x214 + 16 * x
def PAT_SLOT_LEN.LEN : Fld := ⟨0, 32, .ro, 0⟩
def PAT_SLOT_PID (x : Nat) : Nat := base_pat + 0x218 + 16 * x
def PAT_SLOT_PID.PID : Fld := ⟨0, 64, .ro, 0⟩
def PAT_LOADS : Nat := base_pat + 0x300
def PAT_FAILS : Nat := base_pat + 0x304
def CLA_SEGMAP (c : Nat) (x : Nat) : Nat := base_cla c + 0x400 + 4 * x
def CLA_SEGMAP.SEG : Fld := ⟨0, 5, .rw, 0⟩
def CLA_SEGMAP.CONN : Fld := ⟨31, 1, .rw, 0⟩
def CLA_SEGOK (c : Nat) : Nat := base_cla c + 0x480
def CLA_SEGOK.OK : Fld := ⟨0, 17, .ro, 0⟩
def CLA_SEG_PERR (c : Nat) : Nat := base_cla c + 0x484
def CLA_SEG_SWITCHES (c : Nat) : Nat := base_cla c + 0x488
def CLA_SEG_FAILING (c : Nat) : Nat := base_cla c + 0x48C
def CLA_SEG_FAILING.FAIL : Fld := ⟨0, 17, .w1c, 0⟩
def CLA_SLOTTAB (c : Nat) (x : Nat) : Nat := base_cla c + 0x500 + 4 * x
def CLA_SLOTTAB.SLOT : Fld := ⟨0, 5, .ro, 0⟩
def CLA_SLOTTAB.HOLD : Fld := ⟨30, 1, .ro, 0⟩
def CLA_SLOTTAB.VALID : Fld := ⟨31, 1, .ro, 0⟩
def CLA_RTR_UNROUTE (c : Nat) : Nat := base_cla c + 0x540
def CLA_RTR_INST_ERR (c : Nat) : Nat := base_cla c + 0x544
def CLA_RTR_HOLD (c : Nat) : Nat := base_cla c + 0x548
def CLA_RTR_FENCE (c : Nat) : Nat := base_cla c + 0x54C
def CLA_RST (c : Nat) : Nat := base_cla c + 0x600
def CLA_RST.SLOTS : Fld := ⟨0, 17, .wo, 0⟩
def CLA_RST.CLUSTER : Fld := ⟨17, 1, .wo, 0⟩
def CLA_RST.BUSY : Fld := ⟨18, 1, .ro, 0⟩
def CLA_RST.RESTORE : Fld := ⟨19, 1, .rw, 0⟩
def CLA_RST.CODE : Fld := ⟨24, 8, .ro, 0⟩
def CLA_RST_DROP (c : Nat) : Nat := base_cla c + 0x604
def CLA_RST_EVT_DROP (c : Nat) : Nat := base_cla c + 0x608
def CLA_PWR_CTRL (c : Nat) : Nat := base_cla c + 0x680
def CLA_PWR_CTRL.DOZE_EN : Fld := ⟨0, 1, .rw, 0⟩
def CLA_PWR_CTRL.WAKE_PER : Fld := ⟨1, 1, .rw, 0⟩
def CLA_PWR_CTRL.SPARE_OFF : Fld := ⟨2, 1, .rw, 0⟩
def CLA_PWR_CTRL.DOZE_DLY : Fld := ⟨4, 8, .rw, 0xa⟩
def CLA_PWR_STAT (c : Nat) : Nat := base_cla c + 0x684
def CLA_PWR_STAT.STATE : Fld := ⟨0, 2, .ro, 0⟩
def CLA_PWR_STAT.ON_OSC : Fld := ⟨2, 1, .ro, 0⟩
def CLA_PWR_DOZES (c : Nat) : Nat := base_cla c + 0x688
def CLA_PWR_ABORT (c : Nat) : Nat := base_cla c + 0x68C
def CLA_REP_CTRL (c : Nat) : Nat := base_cla c + 0x700
def CLA_REP_CTRL.THR : Fld := ⟨0, 4, .rw, 4⟩
def CLA_REP_CTRL.EN : Fld := ⟨4, 1, .rw, 1⟩
def CLA_REP_STAT (c : Nat) : Nat := base_cla c + 0x704
def CLA_REP_STAT.USED : Fld := ⟨0, 8, .ro, 0⟩
def CLA_REP_STAT.EXH : Fld := ⟨8, 8, .ro, 0⟩
def CLA_REP_STAT.BUSY : Fld := ⟨16, 1, .ro, 0⟩
def CLA_REP_CNT (c : Nat) : Nat := base_cla c + 0x708
def CLA_FO_CTRL (c : Nat) : Nat := base_cla c + 0x800
def CLA_FO_CTRL.EN : Fld := ⟨0, 1, .rw, 1⟩
def CLA_FO_CTRL.HANG_US : Fld := ⟨8, 8, .rw, 0x64⟩
def CLA_FO_STAT (c : Nat) : Nat := base_cla c + 0x804
def CLA_FO_STAT.STATE : Fld := ⟨0, 3, .ro, 0⟩
def CLA_FO_STAT.SPSLOT : Fld := ⟨3, 1, .ro, 0⟩
def CLA_FO_STAT.SPSEG : Fld := ⟨4, 1, .ro, 0⟩
def CLA_FO_STAT.EXP_STEP : Fld := ⟨16, 16, .ro, 0⟩
def CLA_JRN_OCC (c : Nat) : Nat := base_cla c + 0x808
def CLA_JRN_OCC.OCC : Fld := ⟨0, 15, .ro, 0⟩
def CLA_JRN_OCC.HWM : Fld := ⟨16, 15, .ro, 0⟩
def CLA_FO_REWIND (c : Nat) : Nat := base_cla c + 0x80C
def CLA_FO_TAKEOVER (c : Nat) : Nat := base_cla c + 0x810
def CLA_JRN_OVF (c : Nat) : Nat := base_cla c + 0x814
def CLA_JRN_CHKERR (c : Nat) : Nat := base_cla c + 0x818
def CLA_FO_LAST_NS (c : Nat) : Nat := base_cla c + 0x81C
def CLA_FO_LAST_NS.NS : Fld := ⟨0, 32, .ro, 0⟩
def CLA_SEG_MIGR (c : Nat) : Nat := base_cla c + 0x820
def CORE_ID (p : Nat) : Nat := base_core p + 0x0
def CORE_ID.PCID : Fld := ⟨0, 11, .ro, 0⟩
def CORE_ID.LCID : Fld := ⟨16, 12, .ro, 0⟩
def CORE_ID.LVALID : Fld := ⟨31, 1, .ro, 0⟩
def CORE_STATE (p : Nat) : Nat := base_core p + 0x4
def CORE_STATE.STATE : Fld := ⟨0, 2, .ro, 1⟩
def CORE_STATE.HALTED : Fld := ⟨2, 1, .ro, 1⟩
def CORE_STATE.FAULT : Fld := ⟨3, 1, .ro, 0⟩
def CORE_STATE.FCAUSE : Fld := ⟨8, 8, .ro, 0⟩
def CORE_STATE.PCHK_OK : Fld := ⟨16, 1, .ro, 0⟩
def CORE_CTRL (p : Nat) : Nat := base_core p + 0x8
def CORE_CTRL.HALT : Fld := ⟨0, 1, .rw, 1⟩
def CORE_CTRL.LATE : Fld := ⟨1, 1, .rw, 0⟩
def CORE_CTRL.IDLE_DLY : Fld := ⟨8, 8, .rw, 0x10⟩
def CORE_NCOMP (p : Nat) : Nat := base_core p + 0xC
def CORE_NCOMP.NCOMP : Fld := ⟨0, 14, .rw, 0x2000⟩
def CORE_WSCALE (p : Nat) : Nat := base_core p + 0x10
def CORE_WSCALE.WSH : Fld := ⟨0, 4, .rw, 0⟩
def CORE_FOD_BASE (p : Nat) : Nat := base_core p + 0x14
def CORE_FOD_BASE.BASE : Fld := ⟨0, 20, .rw, 0⟩
def CORE_PEND (p : Nat) : Nat := base_core p + 0x18
def CORE_PEND.OCC : Fld := ⟨0, 12, .ro, 0⟩
def CORE_PEND.HWM : Fld := ⟨16, 12, .ro, 0⟩
def CORE_CNT_CLR (p : Nat) : Nat := base_core p + 0x1C
def CORE_CNT_CLR.CLR : Fld := ⟨0, 1, .wo, 0⟩
def CORE_STEP (p : Nat) : Nat := base_core p + 0x20
def CORE_STEP.CUR : Fld := ⟨0, 48, .ro, 0⟩
def CORE_EVT_IN (p : Nat) : Nat := base_core p + 0x40
def CORE_SYN_OPS (p : Nat) : Nat := base_core p + 0x48
def CORE_SPK_OUT (p : Nat) : Nat := base_core p + 0x50
def CORE_EVT_OUT (p : Nat) : Nat := base_core p + 0x58
def CORE_LATE (p : Nat) : Nat := base_core p + 0x80
def CORE_EVT_CHKERR (p : Nat) : Nat := base_core p + 0x84
def CORE_EVT_BAD (p : Nat) : Nat := base_core p + 0x88
def CORE_AXN_CHKERR (p : Nat) : Nat := base_core p + 0x8C
def CORE_SYN_CHKERR (p : Nat) : Nat := base_core p + 0x90
def CORE_SYN_RANGE (p : Nat) : Nat := base_core p + 0x94
def CORE_FOD_CHKERR (p : Nat) : Nat := base_core p + 0x98
def CORE_FAN_CHKERR (p : Nat) : Nat := base_core p + 0x9C
def CORE_ACC_SAT (p : Nat) : Nat := base_core p + 0xA0
def CORE_ALU_SAT (p : Nat) : Nat := base_core p + 0xA4
def CORE_BANK_STALL (p : Nat) : Nat := base_core p + 0xA8
def CORE_PEND_FULL (p : Nat) : Nat := base_core p + 0xAC
def CORE_OVERRUN (p : Nat) : Nat := base_core p + 0xB0
def CORE_RB_DISCARD (p : Nat) : Nat := base_core p + 0xB4
def CORE_ECC_CE (p : Nat) : Nat := base_core p + 0xB8
def CORE_ECC_UE (p : Nat) : Nat := base_core p + 0xBC
def CORE_AXT_BASE (p : Nat) : Nat := base_core p + 0xC0
def CORE_AXT_BASE.BASE : Fld := ⟨0, 20, .rw, 0⟩
def CORE_AXT_LEN (p : Nat) : Nat := base_core p + 0xC4
def CORE_AXT_LEN.LEN : Fld := ⟨0, 17, .rw, 0⟩
def CORE_MIR_BASE (p : Nat) : Nat := base_core p + 0xC8
def CORE_MIR_BASE.BASE : Fld := ⟨0, 20, .rw, 0⟩
def CORE_EPB_BASE (p : Nat) : Nat := base_core p + 0xCC
def CORE_EPB_BASE.BASE : Fld := ⟨0, 20, .rw, 0⟩
def CORE_EPB_LEN (p : Nat) : Nat := base_core p + 0xD0
def CORE_EPB_LEN.LEN : Fld := ⟨0, 20, .rw, 0⟩
def CORE_POOL_BASE (p : Nat) : Nat := base_core p + 0xD4
def CORE_POOL_BASE.BASE : Fld := ⟨0, 20, .rw, 0⟩
def CORE_POOL_LEN (p : Nat) : Nat := base_core p + 0xD8
def CORE_POOL_LEN.LEN : Fld := ⟨0, 20, .rw, 0⟩
def CORE_POOL_CTRL (p : Nat) : Nat := base_core p + 0xDC
def CORE_POOL_CTRL.INIT : Fld := ⟨0, 1, .wo, 0⟩
def CORE_POOL_STAT (p : Nat) : Nat := base_core p + 0xE0
def CORE_POOL_STAT.FREE : Fld := ⟨0, 16, .ro, 0⟩
def CORE_POOL_STAT.BROKEN : Fld := ⟨16, 1, .ro, 0⟩
def CORE_POOL_LWM (p : Nat) : Nat := base_core p + 0xE4
def CORE_POOL_LWM.LWM : Fld := ⟨0, 16, .ro, 0⟩
def CORE_SEG_CHK (p : Nat) : Nat := base_core p + 0xE8
def CORE_SEG_CHK.OK : Fld := ⟨0, 1, .ro, 0⟩
def CORE_SEG_CHK.CAUSE : Fld := ⟨4, 4, .ro, 0⟩
def CORE_SEG_CHK.REGION : Fld := ⟨8, 3, .ro, 0⟩
def CORE_AXN_NULL (p : Nat) : Nat := base_core p + 0x100
def CORE_DHDR_CHKERR (p : Nat) : Nat := base_core p + 0x104
def CORE_MIR_CHKERR (p : Nat) : Nat := base_core p + 0x108
def CORE_POOL_CHKERR (p : Nat) : Nat := base_core p + 0x10C
def CORE_ALLOC_FAIL (p : Nat) : Nat := base_core p + 0x110
def CORE_ALLOC_REFUSE (p : Nat) : Nat := base_core p + 0x114
def LRN_CTRL (p : Nat) : Nat := base_core p + 0x800
def LRN_CTRL.EN : Fld := ⟨0, 1, .rw, 0⟩
def LRN_CTRL.GRAN : Fld := ⟨1, 2, .rw, 0⟩
def LRN_CTRL.SOFT : Fld := ⟨3, 1, .rw, 0⟩
def LRN_CTRL.STOCH : Fld := ⟨4, 1, .rw, 0⟩
def LRN_CTRL.ELIG : Fld := ⟨5, 1, .rw, 0⟩
def LRN_CTRL.UNPICK : Fld := ⟨6, 1, .rw, 0⟩
def LRN_CTRL.STITCH : Fld := ⟨7, 1, .rw, 0⟩
def LRN_CTRL.KEEP_STAMPS : Fld := ⟨8, 1, .rw, 0⟩
def LRN_CTRL.CLOSE_ON_RESET : Fld := ⟨9, 1, .rw, 0⟩
def LRN_CTRL.CLOSE_ON_DOZE : Fld := ⟨10, 1, .rw, 0⟩
def LRN_EPOCH (p : Nat) : Nat := base_core p + 0x804
def LRN_EPOCH.LEN : Fld := ⟨0, 15, .rw, 0x10⟩
def LRN_STAT (p : Nat) : Nat := base_core p + 0x808
def LRN_STAT.CHK_OK : Fld := ⟨0, 1, .ro, 0⟩
def LRN_STAT.CAUSE : Fld := ⟨4, 4, .ro, 0⟩
def LRN_STAT.FAULT : Fld := ⟨8, 1, .ro, 0⟩
def LRN_STAT.CLOSING : Fld := ⟨9, 1, .ro, 0⟩
def LRN_PLA_BASE (p : Nat) : Nat := base_core p + 0x80C
def LRN_PLA_BASE.BASE : Fld := ⟨0, 20, .rw, 0⟩
def LRN_PLA_LEN (p : Nat) : Nat := base_core p + 0x810
def LRN_PLA_LEN.LEN : Fld := ⟨0, 20, .rw, 0⟩
def LRN_CAND_CAP (p : Nat) : Nat := base_core p + 0x814
def LRN_CAND_CAP.CAP : Fld := ⟨0, 16, .rw, 0⟩
def LRN_HOLD (p : Nat) : Nat := base_core p + 0x818
def LRN_HOLD.BASE : Fld := ⟨0, 18, .rw, 0⟩
def LRN_HOLD.LEN : Fld := ⟨18, 14, .rw, 0⟩
def LRN_TSEL (p : Nat) : Nat := base_core p + 0x81C
def LRN_TSEL.TPRE : Fld := ⟨0, 2, .rw, 0⟩
def LRN_TSEL.TPOST : Fld := ⟨2, 2, .rw, 0⟩
def LRN_TSEL.TPAIR : Fld := ⟨4, 2, .rw, 0⟩
def LRN_TSEL.SH0 : Fld := ⟨16, 4, .rw, 0⟩
def LRN_TSEL.SH1 : Fld := ⟨20, 4, .rw, 0⟩
def LRN_TSEL.SH2 : Fld := ⟨24, 4, .rw, 0⟩
def LRN_TSEL.SH3 : Fld := ⟨28, 4, .rw, 0⟩
def LRN_WMIN (p : Nat) : Nat := base_core p + 0x820
def LRN_WMIN.WMIN : Fld := ⟨0, 24, .rw, 0xff8000⟩
def LRN_WMAX (p : Nat) : Nat := base_core p + 0x824
def LRN_WMAX.WMAX : Fld := ⟨0, 24, .rw, 0x7f00⟩
def LRN_RESCALE (p : Nat) : Nat := base_core p + 0x828
def LRN_RESCALE.RMUL : Fld := ⟨0, 16, .rw, 0x7f02⟩
def LRN_RESCALE.RSH : Fld := ⟨16, 6, .rw, 0x1f⟩
def LRN_PRUNE (p : Nat) : Nat := base_core p + 0x82C
def LRN_PRUNE.THR : Fld := ⟨0, 8, .rw, 0⟩
def LRN_PRUNE.EPOCHS : Fld := ⟨8, 4, .rw, 0⟩
def LRN_PRUNE.MAX : Fld := ⟨16, 8, .rw, 0⟩
def LRN_STITCH (p : Nat) : Nat := base_core p + 0x830
def LRN_STITCH.W0 : Fld := ⟨0, 8, .rw, 0⟩
def LRN_STITCH.KIND : Fld := ⟨8, 2, .rw, 0⟩
def LRN_STITCH.WIN : Fld := ⟨16, 8, .rw, 0⟩
def LRN_STITCH.MAX : Fld := ⟨24, 8, .rw, 0⟩
def LRN_REWARD (p : Nat) : Nat := base_core p + 0x834
def LRN_REWARD.REW : Fld := ⟨0, 16, .rw, 0⟩
def LRN_SEED (p : Nat) : Nat := base_core p + 0x838
def LRN_SEED.SEED : Fld := ⟨0, 16, .rw, 0⟩
def LRN_EPNUM (p : Nat) : Nat := base_core p + 0x83C
def LRN_EPNUM.EPNUM : Fld := ⟨0, 32, .ro, 0⟩
def LRN_TERM (p : Nat) (x : Nat) : Nat := base_core p + 0x840 + 4 * x
def LRN_TERM.TERM : Fld := ⟨0, 32, .rw, 0⟩
def LRN_DCY (p : Nat) (x : Nat) : Nat := base_core p + 0x880 + 4 * x
def LRN_DCY.E2K : Fld := ⟨0, 16, .rw, 0⟩
def LRN_DCY.E2K1 : Fld := ⟨16, 16, .rw, 0⟩
def LRN_EVALS (p : Nat) : Nat := base_core p + 0x980
def LRN_CLOSES (p : Nat) : Nat := base_core p + 0x988
def LRN_CLOSE_CYC (p : Nat) : Nat := base_core p + 0x98C
def LRN_CLOSE_CYC.CYC : Fld := ⟨0, 32, .ro, 0⟩
def LRN_CLOSE_HOLD (p : Nat) : Nat := base_core p + 0x990
def LRN_STALL (p : Nat) : Nat := base_core p + 0x994
def LRN_HOLD_DROP (p : Nat) : Nat := base_core p + 0x998
def LRN_HOLD_HWM (p : Nat) : Nat := base_core p + 0x99C
def LRN_HOLD_HWM.HWM : Fld := ⟨0, 32, .ro, 0⟩
def LRN_EPB_SAT (p : Nat) : Nat := base_core p + 0x9A0
def LRN_WIN_SKIP (p : Nat) : Nat := base_core p + 0x9A4
def LRN_GRAN_SKIP (p : Nat) : Nat := base_core p + 0x9A8
def LRN_CAND_DROP (p : Nat) : Nat := base_core p + 0x9AC
def LRN_STITCH_OK (p : Nat) : Nat := base_core p + 0x9B0
def LRN_STITCH_DUP (p : Nat) : Nat := base_core p + 0x9B4
def LRN_UNPICK_OK (p : Nat) : Nat := base_core p + 0x9B8
def LRN_CFG_PERR (p : Nat) : Nat := base_core p + 0x9BC
def LRN_EHDR_ERR (p : Nat) : Nat := base_core p + 0x9C0
def MAC_CTRL (p : Nat) : Nat := base_core p + 0xC00
def MAC_CTRL.HOLD : Fld := ⟨0, 1, .rw, 0⟩
def MAC_CTRL.SVEC_EN : Fld := ⟨1, 1, .rw, 0⟩
def MAC_CTRL.SVSH : Fld := ⟨4, 4, .rw, 0⟩
def MAC_STAT (p : Nat) : Nat := base_core p + 0xC04
def MAC_STAT.BUSY : Fld := ⟨0, 1, .ro, 0⟩
def MAC_STAT.SUSP : Fld := ⟨1, 1, .ro, 0⟩
def MAC_STAT.STAND : Fld := ⟨2, 1, .ro, 0⟩
def MAC_STAT.CHK_OK : Fld := ⟨3, 1, .ro, 0⟩
def MAC_STAT.CAUSE : Fld := ⟨4, 4, .ro, 0⟩
def MAC_STAT.LAST_CODE : Fld := ⟨8, 8, .ro, 0⟩
def MAC_STAT.LAST_IDX : Fld := ⟨16, 3, .ro, 0⟩
def MAC_STAT.LAST_Q : Fld := ⟨19, 1, .ro, 0⟩
def MAC_SVEC (p : Nat) : Nat := base_core p + 0xC08
def MAC_SVEC.BASE : Fld := ⟨0, 18, .rw, 0⟩
def MAC_SVEC_RANGE (p : Nat) : Nat := base_core p + 0xC0C
def MAC_SVEC_RANGE.FIRST : Fld := ⟨0, 13, .rw, 0⟩
def MAC_SVEC_RANGE.LEN : Fld := ⟨16, 14, .rw, 0⟩
def MAC_STAND (p : Nat) : Nat := base_core p + 0xC10
def MAC_STAND.BASE : Fld := ⟨0, 18, .rw, 0⟩
def MAC_STAND.COUNT : Fld := ⟨18, 4, .rw, 0⟩
def MAC_DESC (p : Nat) : Nat := base_core p + 0xC20
def MAC_BUSY_CYC (p : Nat) : Nat := base_core p + 0xC28
def MAC_ELEM (p : Nat) : Nat := base_core p + 0xC30
def MAC_CLIP (p : Nat) : Nat := base_core p + 0xC38
def MAC_MAXABS_I (p : Nat) : Nat := base_core p + 0xC40
def MAC_MAXABS_I.MAX : Fld := ⟨0, 32, .ro, 0⟩
def MAC_MAXABS_F (p : Nat) : Nat := base_core p + 0xC44
def MAC_MAXABS_F.MAX : Fld := ⟨0, 32, .ro, 0⟩
def MAC_ACC_SAT (p : Nat) : Nat := base_core p + 0xC48
def MAC_NAN (p : Nat) : Nat := base_core p + 0xC4C
def MAC_FEED_STALL (p : Nat) : Nat := base_core p + 0xC50
def MAC_DESC_ERR (p : Nat) : Nat := base_core p + 0xC54
def MAC_SUSPEND (p : Nat) : Nat := base_core p + 0xC58
def Q_BASE (p : Nat) (x : Nat) : Nat := base_core p + 0x1000 + 16 * x
def Q_BASE.BASE : Fld := ⟨0, 18, .rw, 0⟩
def Q_CFG (p : Nat) (x : Nat) : Nat := base_core p + 0x1004 + 16 * x
def Q_CFG.KIND : Fld := ⟨0, 4, .rw, 0⟩
def Q_CFG.PRI : Fld := ⟨4, 2, .rw, 0⟩
def Q_CFG.DEPTH : Fld := ⟨16, 11, .rw, 0⟩
def Q_PTR (p : Nat) (x : Nat) : Nat := base_core p + 0x1008 + 16 * x
def Q_PTR.HEAD : Fld := ⟨0, 10, .ro, 0⟩
def Q_PTR.TAIL : Fld := ⟨16, 10, .ro, 0⟩
def Q_STAT (p : Nat) (x : Nat) : Nat := base_core p + 0x100C + 16 * x
def Q_STAT.OCC : Fld := ⟨0, 11, .ro, 0⟩
def Q_STAT.HELD : Fld := ⟨11, 1, .ro, 0⟩
def Q_STAT.STALL : Fld := ⟨12, 1, .w1c, 0⟩
def Q_STAT.STARVE : Fld := ⟨13, 1, .w1c, 0⟩
def Q_STAT.HWM : Fld := ⟨16, 11, .ro, 0⟩
def Q_CHK (p : Nat) : Nat := base_core p + 0x1400
def Q_CHK.OK : Fld := ⟨0, 1, .ro, 0⟩
def Q_CHK.PFAULT : Fld := ⟨1, 1, .ro, 0⟩
def Q_CHK.CAUSE : Fld := ⟨4, 4, .ro, 0⟩
def Q_CHK.QNUM : Fld := ⟨8, 6, .ro, 0⟩
def Q_WDOG (p : Nat) : Nat := base_core p + 0x1404
def Q_WDOG.CYC : Fld := ⟨0, 32, .rw, 0x186a00⟩
def Q_DBG_SEL (p : Nat) : Nat := base_core p + 0x1408
def Q_DBG_SEL.QNUM : Fld := ⟨0, 6, .wo, 0⟩
def Q_ENQ (p : Nat) : Nat := base_core p + 0x1410
def Q_TAKE (p : Nat) : Nat := base_core p + 0x1418
def Q_STALL (p : Nat) : Nat := base_core p + 0x1420
def Q_ENV_CHKERR (p : Nat) : Nat := base_core p + 0x1424
def Q_STALE (p : Nat) : Nat := base_core p + 0x1428
def Q_STALE_CPL (p : Nat) : Nat := base_core p + 0x142C
def Q_INST_ERR (p : Nat) : Nat := base_core p + 0x1430
def Q_CTL_BAD (p : Nat) : Nat := base_core p + 0x1434
def Q_CHAIN_ERR (p : Nat) : Nat := base_core p + 0x1438
def Q_ABSORB (p : Nat) : Nat := base_core p + 0x143C
def Q_RESET_DROP (p : Nat) : Nat := base_core p + 0x1440
def Q_GATH_DUP (p : Nat) : Nat := base_core p + 0x1444
def Q_GATH_FULL (p : Nat) : Nat := base_core p + 0x1448
def Q_GATH_EARLY (p : Nat) : Nat := base_core p + 0x144C
def Q_GATH_BAD (p : Nat) : Nat := base_core p + 0x1450
def Q_GATH_SAT (p : Nat) : Nat := base_core p + 0x1454
def Q_GATH_TMO (p : Nat) : Nat := base_core p + 0x1458
def Q_DBG_ENT (p : Nat) (x : Nat) : Nat := base_core p + 0x1480 + 4 * x
def Q_DBG_ENT.WORD : Fld := ⟨0, 32, .ro, 0⟩
def Q_GCFG (p : Nat) (x : Nat) : Nat := base_core p + 0x1500 + 32 * x
def Q_GCFG.QNUM : Fld := ⟨0, 6, .rw, 0⟩
def Q_GCFG.EN : Fld := ⟨6, 1, .rw, 0⟩
def Q_GCFG.FMT : Fld := ⟨8, 4, .rw, 4⟩
def Q_GCFG.FWD : Fld := ⟨12, 1, .rw, 0⟩
def Q_GCFG.CHAIN : Fld := ⟨13, 1, .rw, 0⟩
def Q_GCFG.RSP : Fld := ⟨14, 1, .rw, 0⟩
def Q_GCFG.NCM1 : Fld := ⟨16, 8, .rw, 0⟩
def Q_GACC (p : Nat) (x : Nat) : Nat := base_core p + 0x1504 + 32 * x
def Q_GACC.BASE : Fld := ⟨0, 18, .rw, 0⟩
def Q_GACC.VLEN : Fld := ⟨18, 11, .rw, 0⟩
def Q_GRES (p : Nat) (x : Nat) : Nat := base_core p + 0x1508 + 32 * x
def Q_GRES.RESADDR : Fld := ⟨0, 25, .rw, 0⟩
def Q_GRND (p : Nat) (x : Nat) : Nat := base_core p + 0x150C + 32 * x
def Q_GRND.BASE : Fld := ⟨0, 16, .rw, 0⟩
def Q_GRND.CNT : Fld := ⟨16, 9, .ro, 0⟩
def Q_GTMO (p : Nat) (x : Nat) : Nat := base_core p + 0x1510 + 32 * x
def Q_GTMO.US : Fld := ⟨0, 20, .rw, 0⟩
def Q_GFWD (p : Nat) (x : Nat) : Nat := base_core p + 0x1514 + 32 * x
def Q_GFWD.QID : Fld := ⟨0, 18, .rw, 0⟩
def Q_GFWD.RANK : Fld := ⟨18, 12, .rw, 0⟩
def Q_GFWD.REM : Fld := ⟨30, 1, .rw, 0⟩
def Q_GNXT (p : Nat) (x : Nat) : Nat := base_core p + 0x1518 + 32 * x
def Q_GNXT.NADDR : Fld := ⟨0, 25, .rw, 0⟩
def Q_GNQ (p : Nat) (x : Nat) : Nat := base_core p + 0x151C + 32 * x
def Q_GNQ.NQ : Fld := ⟨0, 18, .rw, 0⟩
def Q_GNQ.FCIDX : Fld := ⟨18, 12, .rw, 0⟩

def regs_glb : List RegD := [
  ⟨"GLB_ID", 0x0, 1, 4, false, false, [GLB_ID.FAMILY, GLB_ID.PART]⟩,
  ⟨"GLB_STEPPING", 0x4, 1, 4, false, false, [GLB_STEPPING.MINOR, GLB_STEPPING.MAJOR]⟩,
  ⟨"GLB_VARIANT", 0x8, 1, 4, false, false, [GLB_VARIANT.VARIANT]⟩,
  ⟨"GLB_SERIAL", 0x10, 1, 8, true, false, [GLB_SERIAL.SERIAL]⟩,
  ⟨"GLB_CAP_OFS", 0x20, 1, 4, false, false, [GLB_CAP_OFS.OFS]⟩,
  ⟨"GLB_CAP_LEN", 0x24, 1, 4, false, false, [GLB_CAP_LEN.LEN]⟩,
  ⟨"GLB_FPM_OFS", 0x28, 1, 4, false, false, [GLB_FPM_OFS.OFS]⟩,
  ⟨"GLB_FPM_LEN", 0x2C, 1, 4, false, false, [GLB_FPM_LEN.LEN]⟩,
  ⟨"GLB_FPM_GEN", 0x30, 1, 4, false, false, [GLB_FPM_GEN.MGEN]⟩,
  ⟨"GLB_CFG_ERR", 0x40, 1, 4, false, true, [GLB_CFG_ERR.NARROW, GLB_CFG_ERR.UNALIGNED, GLB_CFG_ERR.LAST_CODE, GLB_CFG_ERR.CLR_LAST]⟩,
  ⟨"GLB_DEV_STATE", 0x44, 1, 4, false, false, [GLB_DEV_STATE.STATE, GLB_DEV_STATE.TRANSIT]⟩,
  ⟨"GLB_SCRATCH", 0x48, 1, 4, false, true, [GLB_SCRATCH.DATA]⟩]
def regs_mgt_0 : List RegD := [
  ⟨"MGT_MP_STAT", 0x0, 1, 4, false, false, [MGT_MP_STAT.ACTIVE, MGT_MP_STAT.A_FAIL, MGT_MP_STAT.B_FAIL]⟩,
  ⟨"MGT_MP_CTRL", 0x4, 1, 4, false, false, [MGT_MP_CTRL.HB_MS, MGT_MP_CTRL.SWAP, MGT_MP_CTRL.RSTMAX]⟩,
  ⟨"MGT_LED", 0x10, 1, 4, false, false, [MGT_LED.LOCATE]⟩,
  ⟨"MGT_ATTN", 0x14, 1, 4, false, false, [MGT_ATTN.REQ, MGT_ATTN.CANCEL, MGT_ATTN.FM_ACK, MGT_ATTN.NOSHORT, MGT_ATTN.GRACE, MGT_ATTN.QUIET]⟩,
  ⟨"MGT_ATTN_STAT", 0x18, 1, 4, false, false, [MGT_ATTN_STAT.PHASE, MGT_ATTN_STAT.SAFE]⟩,
  ⟨"MGT_NET_CTRL", 0x20, 1, 4, false, false, [MGT_NET_CTRL.DHCP]⟩,
  ⟨"MGT_NET_IP", 0x24, 1, 4, false, false, [MGT_NET_IP.ADDR]⟩,
  ⟨"MGT_NET_MASK", 0x28, 1, 4, false, false, [MGT_NET_MASK.ADDR]⟩,
  ⟨"MGT_NET_GW", 0x2C, 1, 4, false, false, [MGT_NET_GW.ADDR]⟩,
  ⟨"MGT_PTP", 0x30, 1, 4, false, false, [MGT_PTP.DOMAIN, MGT_PTP.P2P, MGT_PTP.TRANSPORT, MGT_PTP.ANN_TMO]⟩,
  ⟨"MGT_PTP_SRCIP", 0x34, 1, 4, false, false, [MGT_PTP_SRCIP.ADDR]⟩,
  ⟨"MGT_CMX_CTRL", 0x40, 1, 4, false, false, [MGT_CMX_CTRL.EN, MGT_CMX_CTRL.DIV, MGT_CMX_CTRL.PORT]⟩,
  ⟨"MGT_CMX_IP", 0x44, 1, 4, false, false, [MGT_CMX_IP.ADDR]⟩,
  ⟨"MGT_CMX_SKIP", 0x48, 1, 4, false, false, [cnt32]⟩,
  ⟨"MGT_FWU_CTRL", 0x100, 1, 4, false, false, [MGT_FWU_CTRL.GO, MGT_FWU_CTRL.CONFIRM, MGT_FWU_CTRL.ABORT, MGT_FWU_CTRL.AUTOCONF, MGT_FWU_CTRL.RAISE_SVN]⟩,
  ⟨"MGT_FWU_STAT", 0x104, 1, 4, false, false, [MGT_FWU_STAT.STATE, MGT_FWU_STAT.HEALTHY, MGT_FWU_STAT.COMP, MGT_FWU_STAT.CODE, MGT_FWU_STAT.CAUSE]⟩,
  ⟨"MGT_FWU_SRC", 0x108, 1, 8, true, false, [MGT_FWU_SRC.ADDR]⟩,
  ⟨"MGT_FWU_LEN", 0x110, 1, 4, false, false, [MGT_FWU_LEN.LEN]⟩,
  ⟨"MGT_FWU_WIN", 0x114, 1, 4, false, false, [MGT_FWU_WIN.S]⟩,
  ⟨"MGT_FW_CUR", 0x150, 4, 16, false, false, [MGT_FW_CUR.VERSION]⟩,
  ⟨"MGT_FW_LKG", 0x154, 4, 16, false, false, [MGT_FW_LKG.VERSION]⟩,
  ⟨"MGT_FW_PEND", 0x158, 4, 16, false, false, [MGT_FW_PEND.VERSION]⟩,
  ⟨"MGT_FW_SVN", 0x15C, 4, 16, false, false, [MGT_FW_SVN.SVN, MGT_FW_SVN.MINSVN]⟩,
  ⟨"MGT_SENS", 0x400, 16, 4, false, false, [MGT_SENS.VALUE, MGT_SENS.VALID, MGT_SENS.WARN, MGT_SENS.CRIT]⟩]
def regs_mgt_1 : List RegD := [
  ⟨"MGT_THERM_CTRL", 0x500, 1, 4, false, false, [MGT_THERM_CTRL.EN, MGT_THERM_CTRL.TPT]⟩,
  ⟨"MGT_THERM_STAT", 0x504, 1, 4, false, false, [MGT_THERM_STAT.THROT, MGT_THERM_STAT.DEVTHR]⟩,
  ⟨"MGT_THERM_CNT", 0x508, 1, 4, false, false, [cnt32]⟩,
  ⟨"MGT_BOOT_STAT", 0x800, 1, 4, false, false, [MGT_BOOT_STAT.STAGE, MGT_BOOT_STAT.FHCAUSE, MGT_BOOT_STAT.DEGRADED, MGT_BOOT_STAT.CLFAIL]⟩,
  ⟨"MGT_BOOT_LNK", 0x804, 1, 4, false, false, [MGT_BOOT_LNK.WAIT, MGT_BOOT_LNK.QFAIL]⟩,
  ⟨"MGT_BOOT_T", 0x808, 1, 8, true, false, [MGT_BOOT_T.NS]⟩,
  ⟨"MGT_RST_CTRL", 0x810, 1, 4, false, false, [MGT_RST_CTRL.DEV, MGT_RST_CTRL.MGTR, MGT_RST_CTRL.PART]⟩,
  ⟨"MGT_RST_STAT", 0x814, 1, 4, false, false, [MGT_RST_STAT.BUSY, MGT_RST_STAT.CODE, MGT_RST_STAT.ABSORB]⟩,
  ⟨"MGT_RST_TMO", 0x818, 1, 4, false, false, [MGT_RST_TMO.US]⟩,
  ⟨"MGT_RST_CAUSE", 0x81C, 1, 4, false, false, [MGT_RST_CAUSE.CAUSE]⟩,
  ⟨"RAS_STAT", 0x900, 1, 4, false, false, [RAS_STAT.EXPOSED, RAS_STAT.DEGRADED, RAS_STAT.SPSLOT, RAS_STAT.SPSEG]⟩,
  ⟨"RAS_FREC_CNT", 0x904, 1, 4, false, false, [cnt32]⟩,
  ⟨"RAS_FREC_SEL", 0x908, 1, 4, false, true, [RAS_FREC_SEL.IDX]⟩,
  ⟨"RAS_FREC_DATA", 0x910, 8, 4, false, true, [RAS_FREC_DATA.WORD]⟩,
  ⟨"RAS_CNT_MASKED", 0x930, 1, 4, false, false, [cnt32]⟩,
  ⟨"RAS_CNT_VISIBLE", 0x934, 1, 4, false, false, [cnt32]⟩,
  ⟨"RAS_CNT_DUP", 0x938, 1, 4, false, false, [cnt32]⟩,
  ⟨"LOG_CTRL", 0xC00, 1, 4, false, false, [LOG_CTRL.PMIN, LOG_CTRL.SYSLOG]⟩,
  ⟨"LOG_HEAD", 0xC04, 1, 4, false, false, [LOG_HEAD.NUM]⟩,
  ⟨"LOG_TAIL", 0xC08, 1, 4, false, false, [LOG_TAIL.NUM]⟩,
  ⟨"LOG_SEL", 0xC0C, 1, 4, false, true, [LOG_SEL.NUM]⟩,
  ⟨"LOG_STAT", 0xC10, 1, 4, false, true, [LOG_STAT.SRC, LOG_STAT.GONE]⟩,
  ⟨"LOG_DROP", 0xC14, 1, 4, false, false, [cnt32]⟩,
  ⟨"LOG_SYSLOG", 0xC18, 1, 4, false, false, [LOG_SYSLOG.ADDR]⟩]
def regs_mgt_2 : List RegD := [
  ⟨"LOG_DATA", 0xC40, 16, 4, false, true, [LOG_DATA.WORD]⟩]
def regs_mgt : List RegD := regs_mgt_0 ++ regs_mgt_1 ++ regs_mgt_2
def regs_pwr : List RegD := [
  ⟨"PWR_STATUS", 0x0, 1, 4, false, false, [PWR_STATUS.ON]⟩,
  ⟨"PWR_DEV_CTRL", 0x4, 1, 4, false, false, [PWR_DEV_CTRL.STANDBY, PWR_DEV_CTRL.HOLD]⟩,
  ⟨"PWR_WAKE_EN", 0x8, 1, 4, false, false, [PWR_WAKE_EN.SRC, PWR_WAKE_EN.TMR]⟩,
  ⟨"PWR_WAKE_CAUSE", 0xC, 1, 4, false, false, [PWR_WAKE_CAUSE.SRC]⟩,
  ⟨"PWR_REQ", 0x10, 1, 4, false, false, [PWR_REQ.DOMAIN, PWR_REQ.ACTION, PWR_REQ.GO]⟩,
  ⟨"PWR_REQ_STAT", 0x14, 1, 4, false, false, [PWR_REQ_STAT.BUSY, PWR_REQ_STAT.PHASE, PWR_REQ_STAT.CODE, PWR_REQ_STAT.DOMAIN]⟩,
  ⟨"PWR_DRAIN_TMO", 0x18, 1, 4, false, false, [PWR_DRAIN_TMO.US]⟩,
  ⟨"PWR_FEED_CTRL", 0x1C, 1, 4, false, false, [PWR_FEED_CTRL.STICKY]⟩,
  ⟨"PWR_FEED_STAT", 0x20, 1, 4, false, false, [PWR_FEED_STAT.A_OK, PWR_FEED_STAT.B_OK, PWR_FEED_STAT.ON_B, PWR_FEED_STAT.HOLDUP, PWR_FEED_STAT.A_SEEN_BAD, PWR_FEED_STAT.B_SEEN_BAD, PWR_FEED_STAT.LOSS]⟩,
  ⟨"PWR_FEED_SW", 0x24, 1, 4, false, false, [cnt32]⟩,
  ⟨"PWR_DRAIN_FAIL", 0x28, 1, 4, false, false, [cnt32]⟩,
  ⟨"CLK_STATUS", 0x800, 1, 4, false, false, [CLK_STATUS.MP_PLL, CLK_STATUS.NET_LOCK, CLK_STATUS.REF100_OK, CLK_STATUS.REF156_OK, CLK_STATUS.HOLDOVER]⟩,
  ⟨"CLK_SRC", 0x804, 1, 4, false, false, [CLK_SRC.SRC]⟩,
  ⟨"CLK_CL_OSC", 0x808, 1, 8, true, false, [CLK_CL_OSC.OSC]⟩,
  ⟨"CLK_CL_SW", 0x810, 1, 4, false, false, [CLK_CL_SW.CLUSTER]⟩,
  ⟨"CLK_CTRL", 0x814, 1, 4, false, false, [CLK_CTRL.AUTOSW]⟩,
  ⟨"CLK_REF_LOSS", 0x818, 1, 4, false, false, [cnt32]⟩,
  ⟨"PWR_CL_STATE", 0x30, 4, 4, false, false, [PWR_CL_STATE.CL_0, PWR_CL_STATE.CL_1, PWR_CL_STATE.CL_2, PWR_CL_STATE.CL_3, PWR_CL_STATE.CL_4, PWR_CL_STATE.CL_5, PWR_CL_STATE.CL_6, PWR_CL_STATE.CL_7, PWR_CL_STATE.CL_8, PWR_CL_STATE.CL_9, PWR_CL_STATE.CL_10, PWR_CL_STATE.CL_11, PWR_CL_STATE.CL_12, PWR_CL_STATE.CL_13, PWR_CL_STATE.CL_14, PWR_CL_STATE.CL_15]⟩]
def regs_step : List RegD := [
  ⟨"STEP_CTRL", 0x0, 1, 4, false, false, [STEP_CTRL.MODE, STEP_CTRL.TSRC, STEP_CTRL.TMR, STEP_CTRL.START, STEP_CTRL.STOP, STEP_CTRL.LAGMAX]⟩,
  ⟨"STEP_STATUS", 0x4, 1, 4, false, false, [STEP_STATUS.STATE, STEP_STATUS.SLIP, STEP_STATUS.BAR_TMO, STEP_STATUS.FWDSHIFT, STEP_STATUS.LIMIT_HIT]⟩,
  ⟨"STEP_CUR", 0x8, 1, 8, true, false, [STEP_CUR.STEP]⟩,
  ⟨"STEP_LIMIT", 0x10, 1, 8, true, false, [STEP_LIMIT.LIMIT]⟩,
  ⟨"STEP_PERIOD", 0x18, 1, 4, false, false, [STEP_PERIOD.NS]⟩,
  ⟨"STEP_MINLEN", 0x1C, 1, 4, false, false, [STEP_MINLEN.NS]⟩,
  ⟨"STEP_ANCHOR_T", 0x20, 1, 8, true, false, [STEP_ANCHOR_T.T]⟩,
  ⟨"STEP_ANCHOR_S", 0x28, 1, 8, true, false, [STEP_ANCHOR_S.S]⟩,
  ⟨"STEP_OPEN_T", 0x30, 1, 8, true, false, [STEP_OPEN_T.T]⟩,
  ⟨"STEP_SHIFT", 0x38, 1, 8, true, false, [STEP_SHIFT.SHIFT]⟩,
  ⟨"STEP_BAR_TMO", 0x40, 1, 4, false, false, [STEP_BAR_TMO.US]⟩,
  ⟨"STEP_SGRP", 0x44, 1, 4, false, false, [STEP_SGRP.PARENT, STEP_SGRP.ROOT, STEP_SGRP.NCHILD]⟩,
  ⟨"STEP_OVR", 0x48, 1, 4, false, false, [cnt32]⟩,
  ⟨"STEP_SLIP", 0x4C, 1, 4, false, false, [cnt32]⟩,
  ⟨"STEP_TMO", 0x50, 1, 4, false, false, [cnt32]⟩,
  ⟨"STEP_DUPTOK", 0x54, 1, 4, false, false, [cnt32]⟩]
def regs_time : List RegD := [
  ⟨"TIME_CTRL", 0x0, 1, 4, false, false, [TIME_CTRL.SRC, TIME_CTRL.BIGSLEW, TIME_CTRL.PPSO_EN]⟩,
  ⟨"TIME_STATUS", 0x4, 1, 4, false, false, [TIME_STATUS.LOCK, TIME_STATUS.SLEWING, TIME_STATUS.BACKSTEP, TIME_STATUS.BACKSEEN, TIME_STATUS.FWDSTEP, TIME_STATUS.PPS_MISS, TIME_STATUS.TOD_LATE, TIME_STATUS.REFLOSS]⟩,
  ⟨"TIME64", 0x8, 1, 8, true, false, [TIME64.NS]⟩,
  ⟨"TIME_EXT", 0x10, 1, 8, true, false, [TIME_EXT.NS]⟩,
  ⟨"TIME_BACKSTEP_OFS", 0x18, 1, 8, true, false, [TIME_BACKSTEP_OFS.OFS]⟩,
  ⟨"TIME_ADJ", 0x20, 1, 8, true, false, [TIME_ADJ.O]⟩,
  ⟨"TIME_RATE", 0x28, 1, 4, false, false, [TIME_RATE.TRIM]⟩,
  ⟨"TIME_SLEW", 0x2C, 1, 4, false, false, [TIME_SLEW.PPM]⟩,
  ⟨"TIME_PPS_CAP", 0x30, 1, 8, true, false, [TIME_PPS_CAP.NS]⟩,
  ⟨"TIME_TOD", 0x38, 1, 8, true, false, [TIME_TOD.SEC]⟩,
  ⟨"TIME_PPSO", 0x40, 1, 4, false, false, [TIME_PPSO.WIDTH]⟩,
  ⟨"TIME_PPSO_OFS", 0x44, 1, 4, false, false, [TIME_PPSO_OFS.OFS]⟩,
  ⟨"TIME_LOCKWIN", 0x48, 1, 4, false, false, [TIME_LOCKWIN.NS]⟩]
def regs_tmr : List RegD := [
  ⟨"TMR_CTRL", 0x0, 1, 4, false, false, [TMR_CTRL.EN, TMR_CTRL.CLR, TMR_CTRL.SRC, TMR_CTRL.GATE, TMR_CTRL.LEAD, TMR_CTRL.FMODE, TMR_CTRL.CMP0_IE, TMR_CTRL.CMP1_IE]⟩,
  ⟨"TMR_STATUS", 0x4, 1, 4, false, false, [TMR_STATUS.RUNNING, TMR_STATUS.CMP0_HIT, TMR_STATUS.CMP1_HIT]⟩,
  ⟨"TMR_PRE_INC", 0x8, 1, 4, false, false, [TMR_PRE_INC.INC]⟩,
  ⟨"TMR_COUNT", 0x10, 1, 8, true, false, [TMR_COUNT.COUNT]⟩,
  ⟨"TMR_CMP0", 0x18, 1, 8, true, false, [TMR_CMP0.CMP]⟩,
  ⟨"TMR_INT0", 0x20, 1, 8, true, false, [TMR_INT0.INT]⟩,
  ⟨"TMR_CMP1", 0x28, 1, 8, true, false, [TMR_CMP1.CMP]⟩,
  ⟨"TMR_INT1", 0x30, 1, 8, true, false, [TMR_INT1.INT]⟩,
  ⟨"TMR_MISS", 0x38, 1, 4, false, false, [cnt32]⟩,
  ⟨"TMR_OWN", 0x3C, 1, 4, false, false, [TMR_OWN.INST, TMR_OWN.VALID]⟩]
def regs_sync : List RegD := [
  ⟨"SYNC_MEAS_CTRL", 0x0, 1, 4, false, false, [SYNC_MEAS_CTRL.GO, SYNC_MEAS_CTRL.MODE, SYNC_MEAS_CTRL.CANCEL, SYNC_MEAS_CTRL.INST]⟩,
  ⟨"SYNC_MEAS_STEP", 0x8, 1, 8, true, false, [SYNC_MEAS_STEP.STEP]⟩,
  ⟨"SYNC_MEAS_TIME", 0x10, 1, 8, true, false, [SYNC_MEAS_TIME.T]⟩,
  ⟨"SYNC_MEAS_STAT", 0x18, 1, 4, false, false, [SYNC_MEAS_STAT.BUSY, SYNC_MEAS_STAT.PEND, SYNC_MEAS_STAT.TMO, SYNC_MEAS_STAT.MISS, SYNC_MEAS_STAT.LAST]⟩,
  ⟨"SYNC_MEAS_VIEW", 0x1C, 1, 4, false, true, [SYNC_MEAS_VIEW.SHADOW]⟩,
  ⟨"SYNC_MEAS_T", 0x20, 1, 8, true, false, [SYNC_MEAS_T.T]⟩,
  ⟨"SYNC_STAT_CTRL", 0x800, 1, 4, false, true, [SYNC_STAT_CTRL.GO, SYNC_STAT_CTRL.WHEN, SYNC_STAT_CTRL.CLR, SYNC_STAT_CTRL.INST, SYNC_STAT_CTRL.BUSY, SYNC_STAT_CTRL.TAG]⟩,
  ⟨"SYNC_MAXABS_I_P", 0x810, 4, 4, false, true, [SYNC_MAXABS_I_P.MAX]⟩,
  ⟨"SYNC_MAXABS_I_DEV", 0x820, 1, 4, false, true, [SYNC_MAXABS_I_DEV.MAX]⟩,
  ⟨"SYNC_MAXABS_F_P", 0x830, 4, 4, false, true, [SYNC_MAXABS_F_P.MAX]⟩,
  ⟨"SYNC_MAXABS_F_DEV", 0x840, 1, 4, false, true, [SYNC_MAXABS_F_DEV.MAX]⟩,
  ⟨"SYNC_CLIP_DEV", 0x848, 1, 8, true, true, [cnt64]⟩,
  ⟨"SYNC_ELEM_DEV", 0x850, 1, 8, true, true, [cnt64]⟩]
def regs_dnet : List RegD := [
  ⟨"DNET_STATUS", 0x0, 1, 4, false, false, [DNET_STATUS.SPINE_OK]⟩,
  ⟨"DNET_SPMAP", 0x8, 1, 8, true, false, [DNET_SPMAP.SPN]⟩,
  ⟨"DNET_STALL_TMO", 0x10, 1, 4, false, false, [DNET_STALL_TMO.CYC]⟩,
  ⟨"DNET_CMAP_CTRL", 0x14, 1, 4, false, false, [DNET_CMAP_CTRL.PERIOD, DNET_CMAP_CTRL.EN]⟩,
  ⟨"DNET_CNT_CLR", 0x1C, 1, 4, false, false, [DNET_CNT_CLR.CLR]⟩,
  ⟨"DNET_SHARE", 0x40, 16, 4, false, false, [DNET_SHARE.WEIGHT]⟩,
  ⟨"DNET_SHARE_TR", 0x80, 1, 4, false, false, [DNET_SHARE_TR.WEIGHT]⟩,
  ⟨"DNET_BLK", 0x100, 256, 4, false, false, [DNET_BLK.CLNUM, DNET_BLK.INST, DNET_BLK.IVAL, DNET_BLK.VALID]⟩,
  ⟨"DNET_HDR_CE", 0x800, 1, 4, false, false, [cnt32]⟩,
  ⟨"DNET_HDR_UE", 0x804, 1, 4, false, false, [cnt32]⟩,
  ⟨"DNET_UNROUTE", 0x808, 1, 4, false, false, [cnt32]⟩,
  ⟨"DNET_INST_ERR", 0x80C, 1, 4, false, false, [cnt32]⟩,
  ⟨"DNET_HOP_RETRY", 0x810, 1, 4, false, false, [cnt32]⟩,
  ⟨"DNET_DUP", 0x814, 1, 4, false, false, [cnt32]⟩,
  ⟨"DNET_STALL", 0x818, 1, 4, false, false, [cnt32]⟩,
  ⟨"DNET_SPINE_FAIL", 0x81C, 1, 4, false, false, [cnt32]⟩,
  ⟨"DNET_SYNC_UE", 0x820, 1, 4, false, false, [cnt32]⟩,
  ⟨"DNET_CTL_TMO", 0x824, 1, 4, false, false, [cnt32]⟩,
  ⟨"DNET_CMAP", 0x1000, 196, 4, false, false, [DNET_CMAP.WORD]⟩]
def regs_dnetEp : List RegD := [
  ⟨"DNET_EP_TXF", 0x0, 1, 8, true, false, [cnt64]⟩,
  ⟨"DNET_EP_RXF", 0x8, 1, 8, true, false, [cnt64]⟩,
  ⟨"DNET_EP_STALL", 0x10, 1, 4, false, false, [cnt32]⟩,
  ⟨"DNET_EP_LOAD", 0x14, 1, 4, false, false, [DNET_EP_LOAD.EVT, DNET_EP_LOAD.ALL]⟩]
def regs_shm : List RegD := [
  ⟨"SHM_TEST", 0x0, 1, 4, false, false, [SHM_TEST.EN, SHM_TEST.INTV]⟩,
  ⟨"SHM_XWIN", 0x4, 1, 4, false, false, [SHM_XWIN.ACTIVE, SHM_XWIN.BASE]⟩,
  ⟨"SHM_XWIN_LEN", 0x8, 1, 4, false, false, [SHM_XWIN_LEN.LEN]⟩,
  ⟨"SHM_CLR_BASE", 0x10, 1, 4, false, false, [SHM_CLR_BASE.BASE]⟩,
  ⟨"SHM_CLR_LEN", 0x14, 1, 4, false, false, [SHM_CLR_LEN.LEN]⟩,
  ⟨"SHM_CLR_CTRL", 0x18, 1, 4, false, false, [SHM_CLR_CTRL.GO, SHM_CLR_CTRL.BUSY, SHM_CLR_CTRL.CODE]⟩,
  ⟨"SHM_CNT_CLR", 0x1C, 1, 4, false, false, [SHM_CNT_CLR.CLR]⟩,
  ⟨"SHM_OWN", 0x100, 64, 4, false, false, [SHM_OWN.INST, SHM_OWN.VALID]⟩,
  ⟨"SHM_CONF", 0x1000, 256, 4, false, false, [cnt32]⟩]
def regs_shmSl : List RegD := [
  ⟨"SHM_SL_STAT", 0x0, 1, 4, false, false, [SHM_SL_STAT.FAILED, SHM_SL_STAT.SPARE_USED, SHM_SL_STAT.SPARE_FOR, SHM_SL_STAT.COPYING, SHM_SL_STAT.BANKOK]⟩,
  ⟨"SHM_SL_COLL", 0x4, 1, 4, false, false, [cnt32]⟩,
  ⟨"SHM_SL_CONF", 0x8, 1, 4, false, false, [cnt32]⟩,
  ⟨"SHM_SL_ATOM", 0xC, 1, 4, false, false, [cnt32]⟩,
  ⟨"SHM_SL_TWAIT", 0x10, 1, 4, false, false, [cnt32]⟩,
  ⟨"SHM_SL_DEFER", 0x14, 1, 4, false, false, [cnt32]⟩,
  ⟨"SHM_SL_TFAIL", 0x18, 1, 4, false, false, [cnt32]⟩,
  ⟨"SHM_SL_RDB", 0x20, 1, 8, true, false, [cnt64]⟩,
  ⟨"SHM_SL_WRB", 0x28, 1, 8, true, false, [cnt64]⟩]
def regs_jlk_0 : List RegD := [
  ⟨"JLK_CTRL", 0x0, 1, 4, false, false, [JLK_CTRL.EN, JLK_CTRL.SLEEP, JLK_CTRL.FM_EN, JLK_CTRL.RETRAIN]⟩,
  ⟨"JLK_STATUS", 0x4, 1, 4, false, false, [JLK_STATUS.STATE, JLK_STATUS.WIDTH, JLK_STATUS.WLOK, JLK_STATUS.SPARE, JLK_STATUS.DEGRADED, JLK_STATUS.REROUTING, JLK_STATUS.TXWIDTH]⟩,
  ⟨"JLK_PEER", 0xC, 1, 4, false, false, [JLK_PEER.FADDR, JLK_PEER.PORT, JLK_PEER.VALID]⟩,
  ⟨"JLK_QUAL", 0x10, 1, 4, false, false, [JLK_QUAL.TIME, JLK_QUAL.SERMAX]⟩,
  ⟨"JLK_THR", 0x14, 1, 4, false, false, [JLK_THR.SWAP]⟩,
  ⟨"JLK_TMO", 0x18, 1, 4, false, false, [JLK_TMO.LOS, JLK_TMO.LCF, JLK_TMO.STORM]⟩,
  ⟨"JLK_FIT", 0x1C, 1, 4, false, false, [JLK_FIT.EN, JLK_FIT.PERIOD]⟩,
  ⟨"JLK_CMAP", 0x20, 1, 4, false, false, [JLK_CMAP.WIDTH, JLK_CMAP.TXOCC, JLK_CMAP.RXOCC, JLK_CMAP.DOWN]⟩,
  ⟨"JLK_CNT_CLR", 0x24, 1, 4, false, false, [JLK_CNT_CLR.CLR]⟩,
  ⟨"JLK_LANEMAP", 0x8, 1, 4, false, false, [JLK_LANEMAP.WL]⟩,
  ⟨"JLK_RING", 0x40, 9, 4, false, false, [JLK_RING.TXH, JLK_RING.RXH]⟩,
  ⟨"JLK_WL_SER", 0x80, 9, 4, false, false, [cnt32]⟩,
  ⟨"JLK_CW", 0x100, 1, 8, true, false, [cnt64]⟩,
  ⟨"JLK_CW_CORR", 0x108, 1, 8, true, false, [cnt64]⟩,
  ⟨"JLK_CW_UNCORR", 0x110, 1, 4, false, false, [cnt32]⟩,
  ⟨"JLK_GRP_ERR", 0x114, 1, 4, false, false, [cnt32]⟩,
  ⟨"JLK_NAK_TX", 0x118, 1, 4, false, false, [cnt32]⟩,
  ⟨"JLK_REPLAY", 0x11C, 1, 4, false, false, [cnt32]⟩,
  ⟨"JLK_LANE_SWAP", 0x120, 1, 4, false, false, [cnt32]⟩,
  ⟨"JLK_NARROW", 0x124, 1, 4, false, false, [cnt32]⟩,
  ⟨"JLK_DOWN", 0x128, 1, 4, false, false, [cnt32]⟩,
  ⟨"JLK_QUAL_FAIL", 0x12C, 1, 4, false, false, [cnt32]⟩,
  ⟨"JLK_REROUTE_FLITS", 0x130, 1, 4, false, false, [cnt32]⟩,
  ⟨"JLK_REROUTE_DROP", 0x134, 1, 4, false, false, [cnt32]⟩]
def regs_jlk_1 : List RegD := [
  ⟨"JLK_RX_CHKERR", 0x138, 1, 4, false, false, [cnt32]⟩,
  ⟨"JLK_RX_INST_ERR", 0x13C, 1, 4, false, false, [cnt32]⟩,
  ⟨"JLK_RX_BAD", 0x140, 1, 4, false, false, [cnt32]⟩,
  ⟨"JLK_TX_UNROUTE", 0x144, 1, 4, false, false, [cnt32]⟩,
  ⟨"JLK_QUENCH_DROP", 0x148, 1, 4, false, false, [cnt32]⟩,
  ⟨"JLK_RAW_REFUSED", 0x14C, 1, 4, false, false, [cnt32]⟩,
  ⟨"JLK_RBK_TMO", 0x150, 1, 4, false, false, [cnt32]⟩,
  ⟨"JLK_RX_DUP", 0x154, 1, 4, false, false, [cnt32]⟩]
def regs_jlk : List RegD := regs_jlk_0 ++ regs_jlk_1
def regs_jlkDev : List RegD := [
  ⟨"JLK_FADDR", 0x0, 1, 4, false, false, [JLK_FADDR.FADDR]⟩,
  ⟨"JLK_RANK_CMD", 0x4, 1, 4, false, true, [JLK_RANK_CMD.RANK, JLK_RANK_CMD.INST, JLK_RANK_CMD.OP, JLK_RANK_CMD.CODE]⟩,
  ⟨"JLK_RANK_DATA", 0x8, 1, 4, false, true, [JLK_RANK_DATA.ENTRY]⟩,
  ⟨"JLK_ROUTE_CMD", 0xC, 1, 4, false, true, [JLK_ROUTE_CMD.FADDR, JLK_ROUTE_CMD.OP, JLK_ROUTE_CMD.CODE]⟩,
  ⟨"JLK_ROUTE_DATA", 0x10, 1, 4, false, true, [JLK_ROUTE_DATA.ENTRY]⟩,
  ⟨"JLK_REROUTE", 0x14, 1, 4, false, false, [JLK_REROUTE.WAIT, JLK_REROUTE.RBK_TMO]⟩,
  ⟨"JLK_LASER", 0x18, 1, 4, false, false, [JLK_LASER.BANK, JLK_LASER.AFAULT, JLK_LASER.BFAULT]⟩,
  ⟨"JLK_TBL_UE", 0x1C, 1, 4, false, false, [cnt32]⟩,
  ⟨"JLK_QUENCH_FULL", 0x20, 1, 4, false, false, [cnt32]⟩,
  ⟨"JLK_LASER_SW", 0x24, 1, 4, false, false, [cnt32]⟩,
  ⟨"JLK_OWNRANK", 0x100, 16, 4, false, false, [JLK_OWNRANK.RANK, JLK_OWNRANK.VALID]⟩,
  ⟨"JLK_LAND_BASE", 0x200, 16, 16, true, false, [JLK_LAND_BASE.BASE]⟩,
  ⟨"JLK_LAND_LEN", 0x208, 16, 16, false, false, [JLK_LAND_LEN.LEN]⟩,
  ⟨"JLK_LAND_EN", 0x20C, 16, 16, false, false, [JLK_LAND_EN.EN]⟩,
  ⟨"JLK_QSTAT", 0x300, 16, 4, false, false, [JLK_QSTAT.QINST, JLK_QSTAT.DROP, JLK_QSTAT.NTGT]⟩]
def regs_host : List RegD := [
  ⟨"HOST_LINK", 0x0, 1, 4, false, false, [HOST_LINK.RATE, HOST_LINK.WIDTH, HOST_LINK.FLIT, HOST_LINK.L0PW, HOST_LINK.UP]⟩,
  ⟨"HOST_CNT_CLR", 0x4, 1, 4, false, false, [HOST_CNT_CLR.CLR]⟩,
  ⟨"HOST_PDLY", 0x40, 16, 4, false, false, [HOST_PDLY.US]⟩,
  ⟨"HOST_EGR", 0x80, 16, 4, false, false, [HOST_EGR.RANK, HOST_EGR.RING, HOST_EGR.FNPF, HOST_EGR.MAXK, HOST_EGR.HOLD, HOST_EGR.VALID]⟩]
def regs_hostFn : List RegD := [
  ⟨"HOST_FN_STAT", 0x0, 1, 4, false, false, [HOST_FN_STAT.DBERR, HOST_FN_STAT.LAST_MCODE]⟩,
  ⟨"HOST_APER", 0x8, 1, 8, true, false, [HOST_APER.BASE]⟩,
  ⟨"RING_BASE", 0x100, 8, 32, true, false, [RING_BASE.BASE]⟩,
  ⟨"RING_IDXADDR", 0x108, 8, 32, true, false, [RING_IDXADDR.ADDR]⟩,
  ⟨"RING_CFG", 0x110, 8, 32, false, false, [RING_CFG.EN, RING_CFG.TYPE, RING_CFG.LOG2SZ, RING_CFG.MARK, RING_CFG.VEC, RING_CFG.INST, RING_CFG.CRING]⟩,
  ⟨"RING_DIDX", 0x114, 8, 32, false, false, [RING_DIDX.IDX]⟩,
  ⟨"RING_HIDX", 0x118, 8, 32, false, false, [RING_HIDX.IDX]⟩,
  ⟨"RING_MOD", 0x11C, 8, 32, false, false, [RING_MOD.CNT, RING_MOD.US]⟩,
  ⟨"HOST_EV_BAD", 0x300, 1, 4, false, false, [cnt32]⟩,
  ⟨"HOST_EV_CHKERR", 0x304, 1, 4, false, false, [cnt32]⟩,
  ⟨"HOST_EV_LATE", 0x308, 1, 4, false, false, [cnt32]⟩,
  ⟨"HOST_EGR_DROP", 0x30C, 1, 4, false, false, [cnt32]⟩,
  ⟨"HOST_EGR_LATE", 0x310, 1, 4, false, false, [cnt32]⟩,
  ⟨"HOST_EGR_RBK", 0x314, 1, 4, false, false, [cnt32]⟩,
  ⟨"HOST_BK_STALE", 0x318, 1, 4, false, false, [cnt32]⟩,
  ⟨"HOST_DB_ERR", 0x31C, 1, 4, false, false, [HOST_DB_ERR.DB, HOST_DB_ERR.BAR]⟩]
def regs_eth_0 : List RegD := [
  ⟨"ETH_CTRL", 0x0, 1, 4, false, false, [ETH_CTRL.EN, ETH_CTRL.PROMISC, ETH_CTRL.BCAST, ETH_CTRL.PTX, ETH_CTRL.PRX]⟩,
  ⟨"ETH_STATUS", 0x4, 1, 4, false, false, [ETH_STATUS.UP, ETH_STATUS.PCSLOCK, ETH_STATUS.PAUSED]⟩,
  ⟨"ETH_OWN", 0x8, 1, 4, false, false, [ETH_OWN.INST, ETH_OWN.VALID]⟩,
  ⟨"ETH_PAUSE", 0xC, 1, 4, false, false, [ETH_PAUSE.XOFF, ETH_PAUSE.XON]⟩,
  ⟨"ETH_MAC", 0x10, 8, 8, true, false, [ETH_MAC.MAC, ETH_MAC.VALID]⟩,
  ⟨"ETH_FX", 0x100, 16, 4, false, false, [ETH_FX.BASE, ETH_FX.OFS, ETH_FX.WIDTH, ETH_FX.EN]⟩,
  ⟨"ETH_FXM", 0x140, 16, 4, false, false, [ETH_FXM.MASK]⟩,
  ⟨"ETH_MATCH", 0x180, 4, 8, true, false, [ETH_MATCH.MASK, ETH_MATCH.VALUE, ETH_MATCH.START, ETH_MATCH.EN]⟩,
  ⟨"ETH_ENC_CTRL", 0x1A0, 1, 4, false, false, [ETH_ENC_CTRL.EN, ETH_ENC_CTRL.CAUSE, ETH_ENC_CTRL.MIDX]⟩,
  ⟨"ETH_EGR", 0x200, 1, 4, false, false, [ETH_EGR.MAXREC, ETH_EGR.FLUSH, ETH_EGR.L3, ETH_EGR.CSUM, ETH_EGR.TPL_LEN]⟩,
  ⟨"ETH_EGR_DST", 0x204, 1, 4, false, false, [ETH_EGR_DST.L3OFS, ETH_EGR_DST.L4OFS, ETH_EGR_DST.RANK, ETH_EGR_DST.VALID]⟩,
  ⟨"ETH_CNT_CLR", 0x208, 1, 4, false, false, [ETH_CNT_CLR.CLR]⟩,
  ⟨"ETH_TPL", 0x400, 32, 4, false, false, [ETH_TPL.DATA]⟩,
  ⟨"ETH_PROG", 0x800, 256, 4, false, false, [ETH_PROG.INSTR]⟩,
  ⟨"ETH_RX_FRAMES", 0x300, 1, 8, true, false, [cnt64]⟩,
  ⟨"ETH_RX_FCS", 0x308, 1, 4, false, false, [cnt32]⟩,
  ⟨"ETH_RX_FILT", 0x30C, 1, 4, false, false, [cnt32]⟩,
  ⟨"ETH_RX_OVF", 0x310, 1, 4, false, false, [cnt32]⟩,
  ⟨"ETH_RX_LONG", 0x314, 1, 4, false, false, [cnt32]⟩,
  ⟨"ETH_RX_STOPPED", 0x318, 1, 4, false, false, [cnt32]⟩,
  ⟨"ETH_PAUSE_TX", 0x31C, 1, 4, false, false, [cnt32]⟩,
  ⟨"ETH_ENC_NOMATCH", 0x320, 1, 4, false, false, [cnt32]⟩,
  ⟨"ETH_ENC_EMITMAX", 0x324, 1, 4, false, false, [cnt32]⟩,
  ⟨"ETH_EV_OUT", 0x328, 1, 8, true, false, [cnt64]⟩]
def regs_eth_1 : List RegD := [
  ⟨"ETH_TX_DGRAM", 0x330, 1, 8, true, false, [cnt64]⟩,
  ⟨"ETH_EGR_DROP", 0x338, 1, 4, false, false, [cnt32]⟩,
  ⟨"ETH_EGR_LATE", 0x33C, 1, 4, false, false, [cnt32]⟩,
  ⟨"ETH_EGR_RBK", 0x340, 1, 4, false, false, [cnt32]⟩]
def regs_eth : List RegD := regs_eth_0 ++ regs_eth_1
def regs_memc : List RegD := [
  ⟨"MEMC_STATUS", 0x0, 1, 4, false, false, [MEMC_STATUS.READY, MEMC_STATUS.PKGOK]⟩,
  ⟨"MEMC_WIN", 0x10, 16, 16, false, false, [MEMC_WIN.BASE, MEMC_WIN.LEN, MEMC_WIN.EN]⟩,
  ⟨"MEMC_SCRUB", 0x14, 16, 16, false, false, [MEMC_SCRUB.GO, MEMC_SCRUB.BUSY, MEMC_SCRUB.CODE]⟩,
  ⟨"MEMC_LINK_CE", 0x200, 1, 4, false, false, [cnt32]⟩,
  ⟨"MEMC_LINK_UE", 0x204, 1, 4, false, false, [cnt32]⟩,
  ⟨"MEMC_RD_B", 0x208, 1, 8, true, false, [cnt64]⟩,
  ⟨"MEMC_WR_B", 0x210, 1, 8, true, false, [cnt64]⟩,
  ⟨"MEMC_ACC_REFUSED", 0x218, 1, 4, false, false, [cnt32]⟩]
def regs_sec : List RegD := [
  ⟨"SEC_STATUS", 0x0, 1, 4, false, false, [SEC_STATUS.BOOT_OK, SEC_STATUS.LKG, SEC_STATUS.DBG, SEC_STATUS.ANYCONF]⟩,
  ⟨"SEC_CFG", 0x4, 1, 4, false, false, [SEC_CFG.REQSIG, SEC_CFG.LOCK]⟩,
  ⟨"SEC_INST_CMD", 0x10, 1, 4, false, true, [SEC_INST_CMD.INST, SEC_INST_CMD.ANY, SEC_INST_CMD.OP, SEC_INST_CMD.SCRUB, SEC_INST_CMD.GO]⟩,
  ⟨"SEC_INST_RES", 0x14, 1, 4, false, true, [SEC_INST_RES.BUSY, SEC_INST_RES.INST, SEC_INST_RES.CODE]⟩,
  ⟨"SEC_FENCE_TMO", 0x18, 1, 4, false, false, [SEC_FENCE_TMO.MS]⟩,
  ⟨"SEC_INST", 0x40, 16, 4, false, false, [SEC_INST.STATE, SEC_INST.CONF, SEC_INST.TDI, SEC_INST.CLAIMED, SEC_INST.WRAPPED, SEC_INST.GEN, SEC_INST.PKEY, SEC_INST.SKEY]⟩,
  ⟨"SEC_EXH", 0x80, 16, 4, false, false, [cnt32]⟩,
  ⟨"SEC_EXH_SRC", 0xC0, 16, 4, false, false, [SEC_EXH_SRC.ALLOC, SEC_EXH_SRC.GATHER, SEC_EXH_SRC.RANK, SEC_EXH_SRC.CLR]⟩,
  ⟨"SEC_MEAS_SEL", 0x100, 1, 4, false, true, [SEC_MEAS_SEL.IDX]⟩,
  ⟨"SEC_MEAS_DATA", 0x104, 12, 4, false, true, [SEC_MEAS_DATA.DATA]⟩,
  ⟨"SEC_DBG_CTRL", 0x200, 1, 4, false, false, [SEC_DBG_CTRL.REQ, SEC_DBG_CTRL.CODE, SEC_DBG_CTRL.GO]⟩,
  ⟨"SEC_DBG_NONCE", 0x210, 12, 4, false, false, [SEC_DBG_NONCE.NONCE]⟩,
  ⟨"SEC_DBG_RESP", 0x240, 24, 4, false, false, [SEC_DBG_RESP.SIG]⟩]
def regs_secKey : List RegD := [
  ⟨"SEC_KEY", 0x0, 24, 4, false, false, [SEC_KEY.KEY]⟩,
  ⟨"SEC_KEY_VALID", 0x60, 1, 4, false, false, [SEC_KEY_VALID.VALID]⟩]
def regs_pat : List RegD := [
  ⟨"PAT_CTRL", 0x0, 1, 4, false, true, [PAT_CTRL.GO, PAT_CTRL.OP, PAT_CTRL.INST, PAT_CTRL.SLOT, PAT_CTRL.SRCSLOT, PAT_CTRL.RUN]⟩,
  ⟨"PAT_SRC", 0x8, 1, 8, true, true, [PAT_SRC.ADDR]⟩,
  ⟨"PAT_LEN", 0x10, 1, 4, false, true, [PAT_LEN.LEN]⟩,
  ⟨"PAT_STAT", 0x14, 1, 4, false, true, [PAT_STAT.BUSY, PAT_STAT.QUEUED, PAT_STAT.PHASE, PAT_STAT.CODE, PAT_STAT.SECIDX]⟩,
  ⟨"PAT_FAIL", 0x18, 1, 4, false, true, [PAT_FAIL.CAUSE, PAT_FAIL.LCID]⟩,
  ⟨"PAT_DONE", 0x1C, 1, 4, false, true, [PAT_DONE.BYTES]⟩,
  ⟨"PAT_INST", 0x40, 16, 16, false, false, [PAT_INST.STATE]⟩,
  ⟨"PAT_INST_PID", 0x48, 16, 16, true, false, [PAT_INST_PID.PID]⟩,
  ⟨"PAT_AUTO", 0x200, 1, 4, false, false, [PAT_AUTO.EN, PAT_AUTO.RUN, PAT_AUTO.ENT]⟩,
  ⟨"PAT_SLOT", 0x210, 4, 16, false, false, [PAT_SLOT.STATE, PAT_SLOT.INST, PAT_SLOT.KEYIDX]⟩,
  ⟨"PAT_SLOT_LEN", 0x214, 4, 16, false, false, [PAT_SLOT_LEN.LEN]⟩,
  ⟨"PAT_SLOT_PID", 0x218, 4, 16, true, false, [PAT_SLOT_PID.PID]⟩,
  ⟨"PAT_LOADS", 0x300, 1, 4, false, false, [cnt32]⟩,
  ⟨"PAT_FAILS", 0x304, 1, 4, false, false, [cnt32]⟩]
def regs_cla_0 : List RegD := [
  ⟨"CLA_SEGMAP", 0x400, 17, 4, false, false, [CLA_SEGMAP.SEG, CLA_SEGMAP.CONN]⟩,
  ⟨"CLA_SEGOK", 0x480, 1, 4, false, false, [CLA_SEGOK.OK]⟩,
  ⟨"CLA_SEG_PERR", 0x484, 1, 4, false, false, [cnt32]⟩,
  ⟨"CLA_SEG_SWITCHES", 0x488, 1, 4, false, false, [cnt32]⟩,
  ⟨"CLA_SEG_FAILING", 0x48C, 1, 4, false, false, [CLA_SEG_FAILING.FAIL]⟩,
  ⟨"CLA_SLOTTAB", 0x500, 16, 4, false, false, [CLA_SLOTTAB.SLOT, CLA_SLOTTAB.HOLD, CLA_SLOTTAB.VALID]⟩,
  ⟨"CLA_RTR_UNROUTE", 0x540, 1, 4, false, false, [cnt32]⟩,
  ⟨"CLA_RTR_INST_ERR", 0x544, 1, 4, false, false, [cnt32]⟩,
  ⟨"CLA_RTR_HOLD", 0x548, 1, 4, false, false, [cnt32]⟩,
  ⟨"CLA_RTR_FENCE", 0x54C, 1, 4, false, false, [cnt32]⟩,
  ⟨"CLA_RST", 0x600, 1, 4, false, false, [CLA_RST.SLOTS, CLA_RST.CLUSTER, CLA_RST.BUSY, CLA_RST.RESTORE, CLA_RST.CODE]⟩,
  ⟨"CLA_RST_DROP", 0x604, 1, 4, false, false, [cnt32]⟩,
  ⟨"CLA_RST_EVT_DROP", 0x608, 1, 4, false, false, [cnt32]⟩,
  ⟨"CLA_PWR_CTRL", 0x680, 1, 4, false, false, [CLA_PWR_CTRL.DOZE_EN, CLA_PWR_CTRL.WAKE_PER, CLA_PWR_CTRL.SPARE_OFF, CLA_PWR_CTRL.DOZE_DLY]⟩,
  ⟨"CLA_PWR_STAT", 0x684, 1, 4, false, false, [CLA_PWR_STAT.STATE, CLA_PWR_STAT.ON_OSC]⟩,
  ⟨"CLA_PWR_DOZES", 0x688, 1, 4, false, false, [cnt32]⟩,
  ⟨"CLA_PWR_ABORT", 0x68C, 1, 4, false, false, [cnt32]⟩,
  ⟨"CLA_REP_CTRL", 0x700, 1, 4, false, false, [CLA_REP_CTRL.THR, CLA_REP_CTRL.EN]⟩,
  ⟨"CLA_REP_STAT", 0x704, 1, 4, false, false, [CLA_REP_STAT.USED, CLA_REP_STAT.EXH, CLA_REP_STAT.BUSY]⟩,
  ⟨"CLA_REP_CNT", 0x708, 1, 4, false, false, [cnt32]⟩,
  ⟨"CLA_FO_CTRL", 0x800, 1, 4, false, false, [CLA_FO_CTRL.EN, CLA_FO_CTRL.HANG_US]⟩,
  ⟨"CLA_FO_STAT", 0x804, 1, 4, false, false, [CLA_FO_STAT.STATE, CLA_FO_STAT.SPSLOT, CLA_FO_STAT.SPSEG, CLA_FO_STAT.EXP_STEP]⟩,
  ⟨"CLA_JRN_OCC", 0x808, 1, 4, false, false, [CLA_JRN_OCC.OCC, CLA_JRN_OCC.HWM]⟩,
  ⟨"CLA_FO_REWIND", 0x80C, 1, 4, false, false, [cnt32]⟩]
def regs_cla_1 : List RegD := [
  ⟨"CLA_FO_TAKEOVER", 0x810, 1, 4, false, false, [cnt32]⟩,
  ⟨"CLA_JRN_OVF", 0x814, 1, 4, false, false, [cnt32]⟩,
  ⟨"CLA_JRN_CHKERR", 0x818, 1, 4, false, false, [cnt32]⟩,
  ⟨"CLA_FO_LAST_NS", 0x81C, 1, 4, false, false, [CLA_FO_LAST_NS.NS]⟩,
  ⟨"CLA_SEG_MIGR", 0x820, 1, 4, false, false, [cnt32]⟩]
def regs_cla : List RegD := regs_cla_0 ++ regs_cla_1
def regs_core_0 : List RegD := [
  ⟨"CORE_ID", 0x0, 1, 4, false, false, [CORE_ID.PCID, CORE_ID.LCID, CORE_ID.LVALID]⟩,
  ⟨"CORE_STATE", 0x4, 1, 4, false, false, [CORE_STATE.STATE, CORE_STATE.HALTED, CORE_STATE.FAULT, CORE_STATE.FCAUSE, CORE_STATE.PCHK_OK]⟩,
  ⟨"CORE_CTRL", 0x8, 1, 4, false, false, [CORE_CTRL.HALT, CORE_CTRL.LATE, CORE_CTRL.IDLE_DLY]⟩,
  ⟨"CORE_NCOMP", 0xC, 1, 4, false, false, [CORE_NCOMP.NCOMP]⟩,
  ⟨"CORE_WSCALE", 0x10, 1, 4, false, false, [CORE_WSCALE.WSH]⟩,
  ⟨"CORE_FOD_BASE", 0x14, 1, 4, false, false, [CORE_FOD_BASE.BASE]⟩,
  ⟨"CORE_PEND", 0x18, 1, 4, false, false, [CORE_PEND.OCC, CORE_PEND.HWM]⟩,
  ⟨"CORE_CNT_CLR", 0x1C, 1, 4, false, false, [CORE_CNT_CLR.CLR]⟩,
  ⟨"CORE_STEP", 0x20, 1, 8, true, false, [CORE_STEP.CUR]⟩,
  ⟨"CORE_EVT_IN", 0x40, 1, 8, true, false, [cnt64]⟩,
  ⟨"CORE_SYN_OPS", 0x48, 1, 8, true, false, [cnt64]⟩,
  ⟨"CORE_SPK_OUT", 0x50, 1, 8, true, false, [cnt64]⟩,
  ⟨"CORE_EVT_OUT", 0x58, 1, 8, true, false, [cnt64]⟩,
  ⟨"CORE_LATE", 0x80, 1, 4, false, false, [cnt32]⟩,
  ⟨"CORE_EVT_CHKERR", 0x84, 1, 4, false, false, [cnt32]⟩,
  ⟨"CORE_EVT_BAD", 0x88, 1, 4, false, false, [cnt32]⟩,
  ⟨"CORE_AXN_CHKERR", 0x8C, 1, 4, false, false, [cnt32]⟩,
  ⟨"CORE_SYN_CHKERR", 0x90, 1, 4, false, false, [cnt32]⟩,
  ⟨"CORE_SYN_RANGE", 0x94, 1, 4, false, false, [cnt32]⟩,
  ⟨"CORE_FOD_CHKERR", 0x98, 1, 4, false, false, [cnt32]⟩,
  ⟨"CORE_FAN_CHKERR", 0x9C, 1, 4, false, false, [cnt32]⟩,
  ⟨"CORE_ACC_SAT", 0xA0, 1, 4, false, false, [cnt32]⟩,
  ⟨"CORE_ALU_SAT", 0xA4, 1, 4, false, false, [cnt32]⟩,
  ⟨"CORE_BANK_STALL", 0xA8, 1, 4, false, false, [cnt32]⟩]
def regs_core_1 : List RegD := [
  ⟨"CORE_PEND_FULL", 0xAC, 1, 4, false, false, [cnt32]⟩,
  ⟨"CORE_OVERRUN", 0xB0, 1, 4, false, false, [cnt32]⟩,
  ⟨"CORE_RB_DISCARD", 0xB4, 1, 4, false, false, [cnt32]⟩,
  ⟨"CORE_ECC_CE", 0xB8, 1, 4, false, false, [cnt32]⟩,
  ⟨"CORE_ECC_UE", 0xBC, 1, 4, false, false, [cnt32]⟩,
  ⟨"CORE_AXT_BASE", 0xC0, 1, 4, false, false, [CORE_AXT_BASE.BASE]⟩,
  ⟨"CORE_AXT_LEN", 0xC4, 1, 4, false, false, [CORE_AXT_LEN.LEN]⟩,
  ⟨"CORE_MIR_BASE", 0xC8, 1, 4, false, false, [CORE_MIR_BASE.BASE]⟩,
  ⟨"CORE_EPB_BASE", 0xCC, 1, 4, false, false, [CORE_EPB_BASE.BASE]⟩,
  ⟨"CORE_EPB_LEN", 0xD0, 1, 4, false, false, [CORE_EPB_LEN.LEN]⟩,
  ⟨"CORE_POOL_BASE", 0xD4, 1, 4, false, false, [CORE_POOL_BASE.BASE]⟩,
  ⟨"CORE_POOL_LEN", 0xD8, 1, 4, false, false, [CORE_POOL_LEN.LEN]⟩,
  ⟨"CORE_POOL_CTRL", 0xDC, 1, 4, false, false, [CORE_POOL_CTRL.INIT]⟩,
  ⟨"CORE_POOL_STAT", 0xE0, 1, 4, false, false, [CORE_POOL_STAT.FREE, CORE_POOL_STAT.BROKEN]⟩,
  ⟨"CORE_POOL_LWM", 0xE4, 1, 4, false, false, [CORE_POOL_LWM.LWM]⟩,
  ⟨"CORE_SEG_CHK", 0xE8, 1, 4, false, false, [CORE_SEG_CHK.OK, CORE_SEG_CHK.CAUSE, CORE_SEG_CHK.REGION]⟩,
  ⟨"CORE_AXN_NULL", 0x100, 1, 4, false, false, [cnt32]⟩,
  ⟨"CORE_DHDR_CHKERR", 0x104, 1, 4, false, false, [cnt32]⟩,
  ⟨"CORE_MIR_CHKERR", 0x108, 1, 4, false, false, [cnt32]⟩,
  ⟨"CORE_POOL_CHKERR", 0x10C, 1, 4, false, false, [cnt32]⟩,
  ⟨"CORE_ALLOC_FAIL", 0x110, 1, 4, false, false, [cnt32]⟩,
  ⟨"CORE_ALLOC_REFUSE", 0x114, 1, 4, false, false, [cnt32]⟩,
  ⟨"LRN_CTRL", 0x800, 1, 4, false, false, [LRN_CTRL.EN, LRN_CTRL.GRAN, LRN_CTRL.SOFT, LRN_CTRL.STOCH, LRN_CTRL.ELIG, LRN_CTRL.UNPICK, LRN_CTRL.STITCH, LRN_CTRL.KEEP_STAMPS, LRN_CTRL.CLOSE_ON_RESET, LRN_CTRL.CLOSE_ON_DOZE]⟩,
  ⟨"LRN_EPOCH", 0x804, 1, 4, false, false, [LRN_EPOCH.LEN]⟩]
def regs_core_2 : List RegD := [
  ⟨"LRN_STAT", 0x808, 1, 4, false, false, [LRN_STAT.CHK_OK, LRN_STAT.CAUSE, LRN_STAT.FAULT, LRN_STAT.CLOSING]⟩,
  ⟨"LRN_PLA_BASE", 0x80C, 1, 4, false, false, [LRN_PLA_BASE.BASE]⟩,
  ⟨"LRN_PLA_LEN", 0x810, 1, 4, false, false, [LRN_PLA_LEN.LEN]⟩,
  ⟨"LRN_CAND_CAP", 0x814, 1, 4, false, false, [LRN_CAND_CAP.CAP]⟩,
  ⟨"LRN_HOLD", 0x818, 1, 4, false, false, [LRN_HOLD.BASE, LRN_HOLD.LEN]⟩,
  ⟨"LRN_TSEL", 0x81C, 1, 4, false, false, [LRN_TSEL.TPRE, LRN_TSEL.TPOST, LRN_TSEL.TPAIR, LRN_TSEL.SH0, LRN_TSEL.SH1, LRN_TSEL.SH2, LRN_TSEL.SH3]⟩,
  ⟨"LRN_WMIN", 0x820, 1, 4, false, false, [LRN_WMIN.WMIN]⟩,
  ⟨"LRN_WMAX", 0x824, 1, 4, false, false, [LRN_WMAX.WMAX]⟩,
  ⟨"LRN_RESCALE", 0x828, 1, 4, false, false, [LRN_RESCALE.RMUL, LRN_RESCALE.RSH]⟩,
  ⟨"LRN_PRUNE", 0x82C, 1, 4, false, false, [LRN_PRUNE.THR, LRN_PRUNE.EPOCHS, LRN_PRUNE.MAX]⟩,
  ⟨"LRN_STITCH", 0x830, 1, 4, false, false, [LRN_STITCH.W0, LRN_STITCH.KIND, LRN_STITCH.WIN, LRN_STITCH.MAX]⟩,
  ⟨"LRN_REWARD", 0x834, 1, 4, false, false, [LRN_REWARD.REW]⟩,
  ⟨"LRN_SEED", 0x838, 1, 4, false, false, [LRN_SEED.SEED]⟩,
  ⟨"LRN_EPNUM", 0x83C, 1, 4, false, false, [LRN_EPNUM.EPNUM]⟩,
  ⟨"LRN_TERM", 0x840, 8, 4, false, false, [LRN_TERM.TERM]⟩,
  ⟨"LRN_DCY", 0x880, 64, 4, false, false, [LRN_DCY.E2K, LRN_DCY.E2K1]⟩,
  ⟨"LRN_EVALS", 0x980, 1, 8, true, false, [cnt64]⟩,
  ⟨"LRN_CLOSES", 0x988, 1, 4, false, false, [cnt32]⟩,
  ⟨"LRN_CLOSE_CYC", 0x98C, 1, 4, false, false, [LRN_CLOSE_CYC.CYC]⟩,
  ⟨"LRN_CLOSE_HOLD", 0x990, 1, 4, false, false, [cnt32]⟩,
  ⟨"LRN_STALL", 0x994, 1, 4, false, false, [cnt32]⟩,
  ⟨"LRN_HOLD_DROP", 0x998, 1, 4, false, false, [cnt32]⟩,
  ⟨"LRN_HOLD_HWM", 0x99C, 1, 4, false, false, [LRN_HOLD_HWM.HWM]⟩,
  ⟨"LRN_EPB_SAT", 0x9A0, 1, 4, false, false, [cnt32]⟩]
def regs_core_3 : List RegD := [
  ⟨"LRN_WIN_SKIP", 0x9A4, 1, 4, false, false, [cnt32]⟩,
  ⟨"LRN_GRAN_SKIP", 0x9A8, 1, 4, false, false, [cnt32]⟩,
  ⟨"LRN_CAND_DROP", 0x9AC, 1, 4, false, false, [cnt32]⟩,
  ⟨"LRN_STITCH_OK", 0x9B0, 1, 4, false, false, [cnt32]⟩,
  ⟨"LRN_STITCH_DUP", 0x9B4, 1, 4, false, false, [cnt32]⟩,
  ⟨"LRN_UNPICK_OK", 0x9B8, 1, 4, false, false, [cnt32]⟩,
  ⟨"LRN_CFG_PERR", 0x9BC, 1, 4, false, false, [cnt32]⟩,
  ⟨"LRN_EHDR_ERR", 0x9C0, 1, 4, false, false, [cnt32]⟩,
  ⟨"MAC_CTRL", 0xC00, 1, 4, false, false, [MAC_CTRL.HOLD, MAC_CTRL.SVEC_EN, MAC_CTRL.SVSH]⟩,
  ⟨"MAC_STAT", 0xC04, 1, 4, false, false, [MAC_STAT.BUSY, MAC_STAT.SUSP, MAC_STAT.STAND, MAC_STAT.CHK_OK, MAC_STAT.CAUSE, MAC_STAT.LAST_CODE, MAC_STAT.LAST_IDX, MAC_STAT.LAST_Q]⟩,
  ⟨"MAC_SVEC", 0xC08, 1, 4, false, false, [MAC_SVEC.BASE]⟩,
  ⟨"MAC_SVEC_RANGE", 0xC0C, 1, 4, false, false, [MAC_SVEC_RANGE.FIRST, MAC_SVEC_RANGE.LEN]⟩,
  ⟨"MAC_STAND", 0xC10, 1, 4, false, false, [MAC_STAND.BASE, MAC_STAND.COUNT]⟩,
  ⟨"MAC_DESC", 0xC20, 1, 8, true, false, [cnt64]⟩,
  ⟨"MAC_BUSY_CYC", 0xC28, 1, 8, true, false, [cnt64]⟩,
  ⟨"MAC_ELEM", 0xC30, 1, 8, true, false, [cnt64]⟩,
  ⟨"MAC_CLIP", 0xC38, 1, 8, true, false, [cnt64]⟩,
  ⟨"MAC_MAXABS_I", 0xC40, 1, 4, false, false, [MAC_MAXABS_I.MAX]⟩,
  ⟨"MAC_MAXABS_F", 0xC44, 1, 4, false, false, [MAC_MAXABS_F.MAX]⟩,
  ⟨"MAC_ACC_SAT", 0xC48, 1, 4, false, false, [cnt32]⟩,
  ⟨"MAC_NAN", 0xC4C, 1, 4, false, false, [cnt32]⟩,
  ⟨"MAC_FEED_STALL", 0xC50, 1, 4, false, false, [cnt32]⟩,
  ⟨"MAC_DESC_ERR", 0xC54, 1, 4, false, false, [cnt32]⟩,
  ⟨"MAC_SUSPEND", 0xC58, 1, 4, false, false, [cnt32]⟩]
def regs_core_4 : List RegD := [
  ⟨"Q_BASE", 0x1000, 64, 16, false, false, [Q_BASE.BASE]⟩,
  ⟨"Q_CFG", 0x1004, 64, 16, false, false, [Q_CFG.KIND, Q_CFG.PRI, Q_CFG.DEPTH]⟩,
  ⟨"Q_PTR", 0x1008, 64, 16, false, false, [Q_PTR.HEAD, Q_PTR.TAIL]⟩,
  ⟨"Q_STAT", 0x100C, 64, 16, false, false, [Q_STAT.OCC, Q_STAT.HELD, Q_STAT.STALL, Q_STAT.STARVE, Q_STAT.HWM]⟩,
  ⟨"Q_CHK", 0x1400, 1, 4, false, false, [Q_CHK.OK, Q_CHK.PFAULT, Q_CHK.CAUSE, Q_CHK.QNUM]⟩,
  ⟨"Q_WDOG", 0x1404, 1, 4, false, false, [Q_WDOG.CYC]⟩,
  ⟨"Q_DBG_SEL", 0x1408, 1, 4, false, false, [Q_DBG_SEL.QNUM]⟩,
  ⟨"Q_ENQ", 0x1410, 1, 8, true, false, [cnt64]⟩,
  ⟨"Q_TAKE", 0x1418, 1, 8, true, false, [cnt64]⟩,
  ⟨"Q_STALL", 0x1420, 1, 4, false, false, [cnt32]⟩,
  ⟨"Q_ENV_CHKERR", 0x1424, 1, 4, false, false, [cnt32]⟩,
  ⟨"Q_STALE", 0x1428, 1, 4, false, false, [cnt32]⟩,
  ⟨"Q_STALE_CPL", 0x142C, 1, 4, false, false, [cnt32]⟩,
  ⟨"Q_INST_ERR", 0x1430, 1, 4, false, false, [cnt32]⟩,
  ⟨"Q_CTL_BAD", 0x1434, 1, 4, false, false, [cnt32]⟩,
  ⟨"Q_CHAIN_ERR", 0x1438, 1, 4, false, false, [cnt32]⟩,
  ⟨"Q_ABSORB", 0x143C, 1, 4, false, false, [cnt32]⟩,
  ⟨"Q_RESET_DROP", 0x1440, 1, 4, false, false, [cnt32]⟩,
  ⟨"Q_GATH_DUP", 0x1444, 1, 4, false, false, [cnt32]⟩,
  ⟨"Q_GATH_FULL", 0x1448, 1, 4, false, false, [cnt32]⟩,
  ⟨"Q_GATH_EARLY", 0x144C, 1, 4, false, false, [cnt32]⟩,
  ⟨"Q_GATH_BAD", 0x1450, 1, 4, false, false, [cnt32]⟩,
  ⟨"Q_GATH_SAT", 0x1454, 1, 4, false, false, [cnt32]⟩,
  ⟨"Q_GATH_TMO", 0x1458, 1, 4, false, false, [cnt32]⟩]
def regs_core_5 : List RegD := [
  ⟨"Q_DBG_ENT", 0x1480, 20, 4, false, false, [Q_DBG_ENT.WORD]⟩,
  ⟨"Q_GCFG", 0x1500, 4, 32, false, false, [Q_GCFG.QNUM, Q_GCFG.EN, Q_GCFG.FMT, Q_GCFG.FWD, Q_GCFG.CHAIN, Q_GCFG.RSP, Q_GCFG.NCM1]⟩,
  ⟨"Q_GACC", 0x1504, 4, 32, false, false, [Q_GACC.BASE, Q_GACC.VLEN]⟩,
  ⟨"Q_GRES", 0x1508, 4, 32, false, false, [Q_GRES.RESADDR]⟩,
  ⟨"Q_GRND", 0x150C, 4, 32, false, false, [Q_GRND.BASE, Q_GRND.CNT]⟩,
  ⟨"Q_GTMO", 0x1510, 4, 32, false, false, [Q_GTMO.US]⟩,
  ⟨"Q_GFWD", 0x1514, 4, 32, false, false, [Q_GFWD.QID, Q_GFWD.RANK, Q_GFWD.REM]⟩,
  ⟨"Q_GNXT", 0x1518, 4, 32, false, false, [Q_GNXT.NADDR]⟩,
  ⟨"Q_GNQ", 0x151C, 4, 32, false, false, [Q_GNQ.NQ, Q_GNQ.FCIDX]⟩]
def regs_core : List RegD := regs_core_0 ++ regs_core_1 ++ regs_core_2 ++ regs_core_3 ++ regs_core_4 ++ regs_core_5

/-- The register table of a block. -/
def blkRegs : Blk → List RegD
  | .glb => regs_glb | .mgt => regs_mgt | .pwr => regs_pwr | .step => regs_step | .time => regs_time | .tmr => regs_tmr
  | .sync => regs_sync | .dnet => regs_dnet | .dnetEp => regs_dnetEp | .shm => regs_shm | .shmSl => regs_shmSl
  | .jlk => regs_jlk | .jlkDev => regs_jlkDev | .host => regs_host | .hostFn => regs_hostFn | .eth => regs_eth
  | .memc => regs_memc | .sec => regs_sec | .secKey => regs_secKey | .pat => regs_pat | .cla => regs_cla | .core => regs_core

/-- A place in configuration space: block, unit number (instance, timer, endpoint, slice, port, function, key, cluster
or PCID) and byte offset within the unit. -/
structure Loc where
  blk : Blk
  unit : Nat
  off : Nat
deriving DecidableEq, Repr

/-- The place of a configuration-space offset (Tables 1-10 and 1-11); none outside every block (R45). -/
def locate (a : Nat) : Option Loc :=
  if a < 0x10000 then some ⟨.glb, 0, a⟩
  else if a < 0x20000 then some ⟨.mgt, 0, a - 0x10000⟩
  else if a < 0x30000 then some ⟨.pwr, 0, a - 0x20000⟩
  else if a < 0x30800 then some ⟨.step, (a - 0x30000) / 0x80, a % 0x80⟩
  else if a < 0x30900 then some ⟨.time, 0, a - 0x30800⟩
  else if a < 0x31000 then some ⟨.time, 0, a - 0x30800⟩
  else if a < 0x31400 then some ⟨.tmr, (a - 0x31000) / 0x80, a % 0x80⟩
  else if a < 0x40000 then some ⟨.time, 0, a - 0x30800⟩
  else if a < 0x50000 then some ⟨.sync, 0, a - 0x40000⟩
  else if a < 0x100000 then none
  else if a < 0x102000 then some ⟨.dnet, 0, a - 0x100000⟩
  else if a < 0x104000 then some ⟨.dnetEp, (a - 0x102000) / 0x20, a % 0x20⟩
  else if a < 0x200000 then some ⟨.dnet, 0, a - 0x100000⟩
  else if a < 0x204000 then some ⟨.shm, 0, a - 0x200000⟩
  else if a < 0x205000 then some ⟨.shmSl, (a - 0x204000) / 0x40, a % 0x40⟩
  else if a < 0x300000 then some ⟨.shm, 0, a - 0x200000⟩
  else if a < 0x3C0000 then
    (if a % 0x10000 < 0x8000 then some ⟨.jlk, (a - 0x300000) / 0x10000, a % 0x10000⟩
     else some ⟨.jlkDev, (a - 0x300000) / 0x10000, a % 0x10000 - 0x8000⟩)
  else if a < 0x400000 then none
  else if a < 0x410000 then some ⟨.host, 0, a - 0x400000⟩
  else if a < 0x421000 then some ⟨.hostFn, (a - 0x410000) / 0x1000, a % 0x1000⟩
  else if a < 0x500000 then some ⟨.host, 0, a - 0x400000⟩
  else if a < 0x520000 then some ⟨.eth, (a - 0x500000) / 0x10000, a % 0x10000⟩
  else if a < 0x600000 then some ⟨.host, 0, a - 0x400000⟩
  else if a < 0x700000 then some ⟨.memc, 0, a - 0x600000⟩
  else if a < 0x700400 then some ⟨.sec, 0, a - 0x700000⟩
  else if a < 0x700800 then some ⟨.secKey, (a - 0x700400) / 0x80, a % 0x80⟩
  else if a < 0x800000 then some ⟨.sec, 0, a - 0x700000⟩
  else if a < 0x1000000 then some ⟨.pat, 0, a - 0x800000⟩
  else if a < 0x2000000 then
    (let c := (a - 0x1000000) / 0x40000
     let o := a % 0x40000
     if o < 0x10000 then some ⟨.cla, c, o⟩
     else if o < 0x32000 then some ⟨.core, 32 * c + (o - 0x10000) / 0x2000, (o - 0x10000) % 0x2000⟩
     else some ⟨.cla, c, o⟩)
  else none

/-- The row, index and word (0 low, 1 high) at byte offset `off` (a multiple of 4) of a register table. -/
def findIn (off : Nat) : List RegD → Option (RegD × Nat × Nat)
  | [] => none
  | r :: t =>
    let d := off - r.off
    if r.off ≤ off ∧ d / r.stride < r.n ∧ d % r.stride < (if r.pair then 8 else 4) then some (r, d / r.stride, d % r.stride / 4)
    else findIn off t

/-- The reset value of a whole register (both words of a pair). -/
def rstOf (fs : List Fld) : Nat := fs.foldl (fun a f => a + (f.rst % 2 ^ f.w) * 2 ^ f.lo) 0

/-- Reset values that the Reset column names by rule, on a fully present LM-1024 (log entries 2 and 3): R29 (PCID),
R32 (LCIDs, connections, slot and block tables, spares), R36 (MGEN is 2), the variant code, and good feeds. -/
def resetSpecial (l : Loc) : Option Nat :=
  match l.blk with
  | .glb => if l.off = 0x8 then some 0x0400 else if l.off = 0x30 then some 2 else none
  | .pwr => if l.off = 0x20 then some 0x3 else none
  | .mgt => if l.off = 0x900 then some (64 * 2 ^ 8 + 64 * 2 ^ 16) else none
  | .dnet => if 0x100 ≤ l.off ∧ l.off < 0x200 then some (2 ^ 31 + (l.off - 0x100) / 4) else none
  | .cla =>
    if 0x400 ≤ l.off ∧ l.off < 0x440 then some (2 ^ 31 + (l.off - 0x400) / 4)
    else if l.off = 0x480 then some 0x1FFFF
    else if 0x500 ≤ l.off ∧ l.off < 0x540 then some (2 ^ 31 + (l.off - 0x500) / 4)
    else if l.off = 0x804 then some 0x18 else none
  | .core =>
    if l.off = 0 then
      some (l.unit + (if l.unit % 32 < 16 then 2 ^ 31 + (l.unit / 32 * 16 + l.unit % 32) * 2 ^ 16 else 0xFFF * 2 ^ 16))
    else none
  | _ => none

/-- The reset value of the 32-bit register word at key `k` (the Reset column; 0 where no register lies). -/
def resetVal (k : Nat) : Word :=
  match locate (k % 2 ^ 32) with
  | none => 0
  | some l =>
    match resetSpecial l with
    | some v => BitVec.ofNat 32 v
    | none =>
      match findIn (l.off / 4 * 4) (blkRegs l.blk) with
      | none => 0
      | some (r, _, h) => BitVec.ofNat 32 (rstOf r.flds / 2 ^ (32 * h))

end Sys2Proof.Machine
end

