-- ==== Sys2Proof/Machine/Sparse.lean ====
section
/-! DEFINITION. A map from numbers to plain data, held as a list in ONE canonical form: keys strictly rising, and no
entry equal to what an unlisted key reads as. Registers, memories and per-unit state are held this way. -/
namespace Sys2Proof.Machine

/-- A sparse map as a list of (key, value) pairs. -/
abbrev SMap (α : Type) := List (Nat × α)

/-- The value at key `k`; `d k` when the key is not listed. -/
def sget {α : Type} (d : Nat → α) (k : Nat) : SMap α → α
  | [] => d k
  | (a, v) :: t => if a = k then v else sget d k t

/-- `m` without key `k`. -/
def serase {α : Type} (k : Nat) : SMap α → SMap α
  | [] => []
  | (a, v) :: t => if a = k then serase k t else (a, v) :: serase k t

/-- `m` with the entry `(k, v)` put before the first greater key. -/
def sinsert {α : Type} (k : Nat) (v : α) : SMap α → SMap α
  | [] => [(k, v)]
  | (a, w) :: t => if k < a then (k, v) :: (a, w) :: t else (a, w) :: sinsert k v t

/-- `m` with `v` at key `k`. Writing the value an unlisted key reads as removes the entry. -/
def sset {α : Type} [DecidableEq α] (d : Nat → α) (k : Nat) (v : α) (m : SMap α) : SMap α :=
  if v = d k then serase k m else sinsert k v (serase k m)

/-- The keys of `m` rise strictly, all above `lo`. -/
def srising {α : Type} (lo : Option Nat) : SMap α → Bool
  | [] => true
  | (a, _) :: t => (match lo with | none => true | some l => decide (l < a)) && srising (some a) t

/-- No entry of `m` holds what its key reads as unlisted. -/
def snodef {α : Type} [DecidableEq α] (d : Nat → α) : SMap α → Bool
  | [] => true
  | (a, v) :: t => decide (v ≠ d a) && snodef d t

/-- The canonical form of a sparse map with unlisted value `d`. -/
def swf {α : Type} [DecidableEq α] (d : Nat → α) (m : SMap α) : Bool := srising none m && snodef d m

/-- Every key from `a` to `a + n − 1` returns to its unlisted value. -/
def sclear {α : Type} (a n : Nat) : SMap α → SMap α
  | [] => []
  | (k, v) :: t => if a ≤ k ∧ k < a + n then sclear a n t else (k, v) :: sclear a n t

end Sys2Proof.Machine
end

