-- ==== Sys2Proof/Machine/State.lean ====
section
/-! DEFINITION. The state of the block as plain data: the register file, the memories, and what every unit of the LM-1024
holds beside its registers. INVENTORY.md lists each piece with the rule that names it. -/
namespace Sys2Proof.Machine

/-- Why the machine stops with a fault. No command of this model faults: every refusal of the hardware is a completion
code in the next state. -/
inductive Fault where
  /-- Kept for an access to storage the spec says does not exist; the spec gives such accesses completion codes (R43),
  so no meaning raises it. Safe. -/
  | noSuchStorage
deriving DecidableEq, Repr

/-- Why a command has no meaning. -/
inductive Refusal where
  /-- Raised by an arm of exec whose command has no meaning yet. Safe. -/
  | notModelled (mnemonic : String)
deriving DecidableEq, Repr

/-- The completion of a request (R17–R20): requester, code, data words, and whether it completes at the fixed 2 µs. -/
structure Completion where
  req : Req
  code : Nat
  data : List Nat
  slow : Bool := false
deriving DecidableEq, Repr

/-- What an accumulator bank remembers: M, N and the accumulator kind (true for F32) (R171). -/
structure BankRem where
  m : Nat
  n : Nat
  isF : Bool
deriving DecidableEq, Repr

/-- The MAC array of a core. -/
structure MacSt where
  /-- The accumulator words of the two banks, and the last descriptor's shape each remembers (R171). -/
  bank0 : SMap Nat := []
  rem0 : Option BankRem := none
  bank1 : SMap Nat := []
  rem1 : Option BankRem := none
  /-- The sixteen words of the queued descriptor held (R183). -/
  job : Option (List Nat) := none
deriving DecidableEq, Repr
/-- A queue entry taken by an engine and not yet completed (R263): queue, slot, sequence, code so far, INFO, the words. -/
structure QTaken where
  q : Nat
  slot : Nat
  seq : Nat
  code : Nat
  info : Nat
  words : List Nat
deriving DecidableEq, Repr
/-- The queue unit of a core. -/
structure QueueSt where
  /-- The input buffer, at most 4 packets (R260). -/
  inBuf : List QdescIn := []
  /-- Packets the cluster router holds with REQ credit withheld (R260). -/
  held : List QdescIn := []
  /-- Tenant control and gathering events passed by the core and not yet acted on (R261, R273): EVT64, instance. -/
  events : List (Nat × Nat) := []
  /-- Entries taken from each queue since its last reset (Table 8-4 SEQ). -/
  seq : SMap Nat := []
  /-- Queue served last, plus 1, for each kind and priority (R263): key 4 × KIND + PRI. -/
  rr : SMap Nat := []
  /-- Entries held by the MOVE and GATHER engines and presented to or held by the MAC array (R263). -/
  taken : List QTaken := []
  /-- Queues stopped by a pointer parity error (R266). -/
  stopped : List Nat := []
  /-- The outbound write buffer (Table 8-7): writes that the router has not accepted yet, oldest first; what stands past the
  eighth, the consumer that waits still holds. -/
  out : List (SlReq × SlOp) := []
deriving DecidableEq, Repr

/-- A shared slice beside its registers. -/
structure SliceSt where
  /-- The arrival queue, oldest first, at most 64 (R276). -/
  queue : List (SlReq × SlOp) := []
  /-- The next line of the transparent test, and whether it is held under R281. -/
  testLine : Nat := 0
  deferred : Bool := false
deriving DecidableEq, Repr
/-- The phase of a core within its open step (R79, R191): no step in progress; slot walked; compartments updated;
done reported; close taken (basted); committed, with an epoch close running (R151). -/
inductive CPhase where
  | idle | walked | updated | done | closed | closing
deriving DecidableEq, Repr

/-- A delay-ring slot of the pending area: its chain of blocks in filing order and how many entries it holds (R58). -/
structure RingSlot where
  blocks : List Nat := []
  n : Nat := 0
  /-- Places at the start of the first block whose entries have been released. -/
  first : Nat := 0
  /-- How many entries, the last ones, were filed after the open of the step the slot is walked for: they are for 16 steps later. -/
  later : Nat := 0
deriving DecidableEq, Repr

/-- What a core holds beside its registers and its SRAM (chapters 02 to 05). -/
structure CoreSt where
  /-- The sixteen slots of the delay ring (R56, R58). -/
  ring : SMap RingSlot := []
  /-- Slots being closed up (R59). -/
  closing : List Nat := []
  /-- Where the core stands in its open step (R79, R151, R191). -/
  phase : CPhase := .idle
  /-- Opens of later steps that are held, oldest first (R80, R151, R200). -/
  heldOpens : List Nat := []
  /-- The close that the cluster agent has passed to the core (R191, R440). -/
  closeFor : Option Nat := none
  /-- First staging entry in use and how many are in use (R75); entries beyond 512 that stall the update unit. -/
  stgHead : Nat := 0
  stgN : Nat := 0
  stgWait : List Nat := []
  /-- Next fan-out entry of the head of staging (R76). -/
  emitIdx : Nat := 0
  /-- Compartments basted since the last MCB that landed (the internal new selector of R110). -/
  basted : List Nat := []
  /-- Records in the hold area (R142). -/
  holdN : Nat := 0
  holdHead : Nat := 0
  /-- The modulatory sum of the open step (R143). -/
  modSum : Int := 0
  /-- Compartments that spiked in the open step, in visit order (R148). -/
  spiked : List Nat := []
  /-- Learning configuration words that hold a parity error, by offset in the control port (R139). -/
  lrnPar : List Nat := []
  /-- The last step committed since the core last left the halted state (R157). -/
  lastCommit : Option Nat := none
  /-- The close due at the open step: post-synaptic stamps already swept (Table 4-8 step 0). -/
  swept : Bool := false
  /-- Post-synaptic stamps changed in the open step, and in the step before it, as they stood at the open of that step: compartment,
  stamp (R135). -/
  stampsWas : List (Nat × Nat) := []
  stampsWas1 : List (Nat × Nat) := []
  /-- REWL as it was latched for the step committed last (R136). -/
  rewWas : Nat := 0
  /-- Free-pool formatting in progress, and who asked (R118). -/
  poolFmt : Option Req := none
  /-- The MAC array (R171, R181, R183). -/
  mac : MacSt := {}
  /-- The queue unit (chapter 08). -/
  q : QueueSt := {}
deriving DecidableEq, Repr
/-- An advance token (R192): the step it closes, the step it opens, its earliest open time. -/
structure Token where
  close : Option Nat
  opn : Option Nat
  time : Nat
deriving DecidableEq, Repr
/-- A statistics reduction of an instance (R187): who asked, whether at a boundary, CLR, captured values by cluster (cluster,
max-abs integer, max-abs float, clipped, elements), clusters whose STAT_RSP has been combined. -/
structure StatSt where
  boundary : Bool
  clr : Bool
  cap : Option (List (Nat × Nat × Nat × Nat × Nat)) := none
  rsp : List Nat := []
deriving DecidableEq, Repr
/-- The step sequencer context of an instance beside its STEP registers (chapter 06). -/
structure InstSt where
  /-- Events injected and delivered on the device, and over links, as the barrier counts them (R194). -/
  injected : Nat := 0
  delivered : Nat := 0
  remInj : Nat := 0
  remDel : Nat := 0
  /-- LCIDs of the participants (R191). -/
  parts : List Nat := []
  /-- Epoch number of the last CORE_ALLOC_FAIL discard that was logged (R123). -/
  allocEp : Option Nat := none
  /-- Injected minus delivered events, local and remote, of each endpoint: what its DONE carries (R194, R248). -/
  diffs : SMap Int := []
  rdiffs : SMap Int := []
  /-- The step opened first and last in this run; none before the first open. -/
  first : Option Nat := none
  opened : Option Nat := none
  /-- The close that ends the run has been sent (R203). -/
  final : Bool := false
  /-- Tokens sent and not yet received by the cluster agents, oldest first. -/
  tokens : List Token := []
  /-- Clusters whose DONE for the open step has been combined (R248): cluster, DIFF, RDIFF; and the step of the last report to the
  parent (R195). -/
  doneCl : List (Nat × Nat × Nat) := []
  reported : Option Nat := none
  /-- Reports of child devices for the open step, or for the step at which the instance stands: rank, remote difference (R195);
  and the child ranks seen so far (R318). -/
  reports : List (Nat × Nat) := []
  kids : List Nat := []
  /-- The next step of the Timed schedule, and the ticks held under LAGMAX: step, time (R199, R200). -/
  nextTick : Nat := 0
  ticks : List (Nat × Nat) := []
  /-- The last step committed on the device in this run (R191). -/
  committed : Option Nat := none
  /-- The step whose barrier timed out last, and whether one was logged in this run (R198). -/
  tmoStep : Option Nat := none
  tmoLogged : Bool := false
  /-- Twice max(E, A) of each closed step not yet released as egress (R344). -/
  closeT : SMap Nat := []
  /-- Closed steps that committed after P(t) and are not yet released (R344). -/
  late : List Nat := []
  /-- A statistics reduction in progress (R187). -/
  stat : Option StatSt := none
deriving DecidableEq, Repr
/-- A record of a cluster input journal (Table 14-2); `bad` when its JCHK no longer holds (R442). -/
structure JRec where
  axon : Nat
  payload : Nat
  g : Bool
  rem : Bool
  srank : Nat
  scl : Nat
  dpos : Nat
  sstep5 : Nat
  astep5 : Nat
  tstep5 : Nat
  void : Bool
  bad : Bool := false
deriving DecidableEq, Repr

/-- A cluster rewind in progress (Table 14-4). -/
structure RewSt where
  step : Nat
  slot : Nat
  lcid : Nat
  cause : Nat
  tdet : Nat
  flags : Nat
  refiled : Nat
  lostq : Nat
  /-- Endpoints whose FENCE_ACK is awaited. -/
  fence : List Nat
  /-- A step was open when the rewind began; steps 1–9 are not yet over (the emission of the replay is not released). -/
  wasOpen : Bool
  live : Bool
deriving DecidableEq, Repr

/-- A segment migration in progress (R447): failing segment, spare segment, whether the copy has ended. -/
structure MigSt where
  src : Nat
  dst : Nat
  copied : Bool
  tdet : Nat
deriving DecidableEq, Repr

/-- A FENCE that waits at an endpoint: who sent it, its instance, and how many events of each queue stand before it (R249). -/
structure FenceWait where
  frm : Nat
  inst : Nat
  before : SMap Nat
deriving DecidableEq, Repr
/-- An item that a leaf holds for a cluster router (R236, R249): an event, or a FENCE behind it. -/
inductive Spill where
  | ev (e : EvtIn)
  | fence (frm inst : Nat)
deriving DecidableEq, Repr

/-- What a cluster agent and router hold beside their registers. -/
structure ClusterSt where
  /-- The input journal in filing order (R441). -/
  journal : List JRec := []
  /-- The segment migration and the rewind in progress (R447, R440). -/
  migrate : Option MigSt := none
  rewind : Option RewSt := none
  /-- Latest target step of an event filed without a record (R443). -/
  expStep : Nat := 0
  /-- Slots that have failed (STATE 0x3 of Table 1-6); persists across resets through the log (R32). -/
  failed : List Nat := []
  /-- Fused units (R3, R31), and segments recorded as failed (R32). -/
  fused : Bool := false
  fusedSlots : List Nat := []
  fusedSegs : List Nat := []
  failedSegs : List Nat := []
  /-- Segments whose SYN group is powered off (R428). -/
  synOff : List Nat := []
  /-- The cluster itself has failed (CLSTATE 0x2 of Table 1-5). -/
  dead : Bool := false
  /-- The router injects no event (R249 step 1). -/
  noInject : Bool := false
  /-- Events (and FENCEs) that the router has accepted from its cores and not sent, oldest first (Table 7-6): slot, RHDR64, EVT64. -/
  inj : List (Nat × Nat × Nat) := []
  /-- The delivery queue of each LCID position, oldest first, at most 16 (R227, R236). -/
  dlv : SMap (List EvtIn) := []
  /-- What the leaf holds with EVT credit withheld (R236), oldest first. -/
  spill : List Spill := []
  /-- FENCEs waiting for the events before them (R249): sender, instance, and for each position the events still before it. -/
  fences : List FenceWait := []
  /-- Endpoints the cluster sent events to in its open step (R249). -/
  mask : List Nat := []
  /-- Connection changes in progress, oldest first (R90): slot, old segment, new segment. -/
  swaps : List (Nat × Option Nat × Option Nat) := []
  /-- The step the cluster committed last (R191). -/
  committed : Option Nat := none
  /-- Closes the agent holds until every participant is done (R440), oldest first. -/
  closes : List Nat := []
  /-- Opens held for their earliest open time (R192), oldest first: step, TIME64. -/
  opens : List (Nat × Nat) := []
  /-- A core or cluster reset that runs (R398, R400): TCLK cycles left, the slots, whether it resets the whole cluster. -/
  rst : Option (Nat × List Nat × Bool) := none
deriving DecidableEq, Repr
/-- What leaves the block or passes between its units as a message, newest first in State.out. -/
inductive Output where
  /-- A flit on a lane of the data network (R226): the output that sends it (its byte in the congestion map, or 768 + the endpoint
  that injects it), the spine and sequence number under which it is replayed (R239), 256 data bits, slot-valid bits, CRC-16. -/
  | flit (o sp seq data valid crc : Nat)
  /-- A data-network packet as its source hands it over (R223, R224): destination, source, kind, instance, generation, tag, payload words. -/
  | packet (dep sep pk inst gen tag : Nat) (words : List Nat)
  /-- A sync-network message (Table 7-10): the unit that sends it (an endpoint number; 0x100 the root, 0x110 + n sync node n,
  0x120 + p partition node p), its two words. -/
  | sync (src w0 w1 : Nat)
  /-- What a Jarisk port sends outside its codewords: the training pattern on the wavelengths named (kind 0), an LCF of training (1), the
  wake pattern on a wavelength (2) (R302, R303, R305). -/
  | jlk (port kind : Nat) (words : List Nat)
  /-- A codeword on a Jarisk link: port, and for each wavelength in use its PAM4 levels (R286, R287). -/
  | light (port : Nat) (lanes : List (Nat × List Nat))
  /-- A write to host memory: function, address, bytes. -/
  | hostWrite (fn addr : Nat) (bytes : List Byte)
  /-- An MSI-X vector signalled to a function. -/
  | msix (fn vec : Nat)
  /-- An Ethernet frame sent by an event port. -/
  | frame (port : Nat) (bytes : List Byte)
  /-- A PAUSE frame sent by an event port with its quanta (R347). -/
  | pause (port quanta : Nat)
  /-- A report of a fault or error by a core or unit to its cluster agent: PCID or unit, cause. -/
  | report (unit cause : Nat)
  /-- A management, SPDM, DOE or MCTP response: kind, words. -/
  | mgmt (kind : Nat) (words : List Nat)
  /-- A pin driven: pin number, level. -/
  | pin (n : Nat) (high : Bool)
deriving DecidableEq, Repr

/-- A record posted to the log (R487, Table 16-5): type, instance concerned, arguments. -/
structure LogRec where
  typ : Nat
  inst : Option Nat
  args : List Nat
  time : Nat
deriving DecidableEq, Repr
/-- What the power controller and the device sequences hold beside their registers (chapters 12, 13, 16). -/
structure DevSt where
  /-- Clusters whose domain drains or whose partition resets: their seam is closed (R401, R428). -/
  drainCl : List Nat := []
  /-- NET, and with it the shared slices, drains for Standby (R431). -/
  drainNet : Bool := false
  /-- Jarisk ports and event ports that are fused (R3). -/
  fusedJlk : List Nat := []
  fusedEth : List Nat := []
  /-- Log records discarded since the last OVERFLOW record (R487). -/
  logLost : Nat := 0
  /-- The range of a running slice clear (R283). -/
  shmClr : Option (Nat × Nat) := none
  /-- Fault records FREC256, newest first, at most 64 (R459). -/
  frecs : List (List Nat) := []
  /-- The rank port map (R311, R342): the value for key 4096 × INST + RANK, 15 none. -/
  rankMap : SMap Nat := []
  /-- The 32-bit fraction of TIME64 and the offset still to be applied, in 2^-32 ns (R208). -/
  tfrac : Nat := 0
  slewLeft : Int := 0
  /-- Consecutive offsets within the lock window (R210). -/
  lockRun : Nat := 0
  /-- The writes of TIME_TOD since the last PPS_IN edge, newest first, with their TIME64, and the value before them (R211). -/
  todWrites : List (Nat × Nat) := []
  todBase : Nat := 0
  /-- The last second boundary for which PPS_OUT rose or that passed with it disabled (R212). -/
  ppsSec : Int := 0
  /-- Levels of the pins by pin code: inputs as driven from outside, outputs as driven by the device (chapter 17). -/
  pins : SMap Bool := []
  /-- Prescaler fractions of the timers, and the compares that fired with INT = 0: key 2 × timer + compare (R214, R215). -/
  tmrFrac : SMap Nat := []
  tmrFired : List Nat := []
  /-- The shadows of the last captures (R495). -/
  shadow : SMap Word := []
  /-- A capture issued: its MODE, number, and step or time (R494). -/
  meas : Option (Nat × Nat × Nat) := none
  /-- Units that have acknowledged the capture (R498). -/
  measAcks : List SyncUnit := []
  /-- Units that have retried once after an unexplained mismatch (R456). -/
  dupRetry : List Nat := []
  /-- The pattern loader makes the write under way (R374). -/
  loader : Bool := false
  /-- The control hub completes every configuration access RETRY: a management reset or takeover (R403, R483). -/
  hubDown : Bool := false
  /-- The image source range locked in module memory: base, length, requester (none: the thimble) (R374, R385). -/
  srcLock : Option (Nat × Nat × Option Nat) := none
  /-- The floor-plan map's body as it was written last: words that differ from `fpmD` (R35, R36). -/
  fpm : SMap Nat := []
  /-- The internal test registers by offset (R8, R480). -/
  testRegs : SMap Word := []
  /-- Per requester copy, at most one each: the pair whose high word is captured and that word; the pair whose low word is held
  and that word (R13). -/
  cap : List (Nat × Nat × Nat) := []
  low : List (Nat × Nat × Nat) := []
deriving DecidableEq, Repr
/-- An event staged for egress (R343), with the fields of Table 10-6. -/
structure EgrEnt where
  inst : Nat
  axon : Nat
  payload : Nat
  g : Bool
  dcore : Nat
  sstep5 : Nat
  scl : Nat
deriving DecidableEq, Repr

/-- A 16-byte entry for a device-produced ring that waits for ring space: its two words, PH not yet set; the instance it counts
for at the staging limit (R343), none for a marker or a completion. -/
structure RingEnt where
  w0 : Nat
  w1 : Nat
  inst : Option Nat
deriving DecidableEq, Repr

/-- A ring context beside its registers (R338–R341). -/
structure RingSt where
  /-- Entries that wait for ring space; for an ER ring they are held staging. -/
  pend : List RingEnt := []
  /-- Entries written since the last signal. -/
  unsig : Nat := 0
  /-- The head entry at which an EV ring waits (R341). -/
  wait : Option (Nat × Nat) := none
deriving DecidableEq, Repr

/-- A released record of an event port (Table 10-10): its step, P(t) of that step, the record without DSTEP. -/
structure EthRec where
  step : Nat
  p : Nat
  word : Nat
deriving DecidableEq, Repr

/-- An Ethernet event port beside its registers (R346–R356). -/
structure EthSt where
  /-- The receive buffer, oldest first: frame without FCS, TIME64 at its start. -/
  rx : List (List Byte × Nat) := []
  /-- PAUSE with quanta 0xFFFF has been sent and not taken back. -/
  xoff : Bool := false
  /-- The open datagram, and the closed ones that wait. -/
  recs : List EthRec := []
  dgrams : List (List EthRec) := []
  /-- The next IPv4 identification and the datagram count. -/
  ipid : Nat := 0
  seq : Nat := 0
  /-- TIME64 of the last frame received or sent (R501). -/
  frameT : Option Nat := none
deriving DecidableEq, Repr

/-- A bulk descriptor in an engine (R361): function, BK ring, instance, generation at fetch, the sixteen words. -/
structure BulkJob where
  fn : Nat
  ring : Nat
  inst : Nat
  gen : Nat
  words : List Nat
deriving DecidableEq, Repr

/-- The host port and the event ports (chapter 10). Egress ports: 0 host, 1 and 2 event ports 0 and 1. -/
structure HostSt where
  /-- Staged events by egress port, in the order they were staged; and events held with credit withheld (R343). -/
  stage : SMap (List EgrEnt) := []
  held : SMap (List EvtIn) := []
  /-- FENCEs that wait at the egress ports for the events held before them (R345). -/
  fences : SMap (List FenceWait) := []
  /-- Ring contexts: key 8 × function + k. -/
  rings : SMap RingSt := []
  /-- The two event ports (R346–R356). -/
  eth : SMap EthSt := []
  /-- Bulk engines at work, at most 16 (R362). -/
  jobs : List BulkJob := []
  /-- Descriptors fetched and not yet started, in the order they were fetched; the deficits of the dispatcher's round robin by instance (key
  64 + instance), and the instance served last (R362). -/
  bkq : List BulkJob := []
  bkDfc : SMap Nat := []
  bkLast : Nat := 0
  /-- MSI-X table and pending words in BAR4 (R333): key 0x10000 × function + offset. -/
  msix : SMap Nat := []
  /-- Log2 of each function's BAR2 size (R333). -/
  bar2 : SMap Nat := []
deriving DecidableEq, Repr
/-- What one or more flits carry through a switch (R226): a packet, or two event packets in one flit; its virtual channel, its flow
(the instance, 16 for transit), its flits, the input lane whose buffer holds it, and between leaves the spine and the first sequence
number under which it is replayed (R239). -/
structure NUnit where
  hdr : Nat
  body : List Nat
  second : Option (Nat × Nat) := none
  vc : Nat
  flow : Nat
  n : Nat
  inl : Nat
  sp : Nat := 0
  seq : Nat := 0
deriving DecidableEq, Repr
/-- An output of a switch (R232): what waits, oldest first; the flit cycles that RSP or REQ, and REQ behind RSP, have waited through;
the deficits (key 32 × virtual channel + flow) and the flow served last on each virtual channel. -/
structure OutSt where
  wait : List NUnit := []
  low : Nat := 0
  req : Nat := 0
  dfc : SMap Nat := []
  last : SMap Nat := []
deriving DecidableEq, Repr
/-- An event record JEV128 (Table 9-3) as a port stages it: its two words and, until it has been transmitted once, the instance,
destination rank and SSTEP5 it counts for (R317, R319). -/
structure LRec where
  w0 : Nat
  w1 : Nat
  src : Option (Nat × Nat × Nat)
deriving DecidableEq, Repr

/-- What a flit or a run of flits carries (R290, R292): event records, or a packet with its header words and body. -/
inductive JCont where
  | ev (l : List LRec)
  | pk (w0 w1 : Nat) (body : List Byte)
deriving DecidableEq, Repr

/-- Whom the WR_CPL of a remote write (R322) goes to: endpoint, instance, generation, tag. -/
structure JAns where
  sep : Nat
  inst : Nat
  gen : Nat
  tag : Nat
deriving DecidableEq, Repr

/-- A packet at the transmit side: its content, its flow (the instance of this device, 16 for transit and for what belongs to none),
and whom it answers once it is in the replay buffer (R322). -/
structure JPkt where
  c : JCont
  flow : Nat
  ans : Option JAns := none
deriving DecidableEq, Repr

/-- The packet whose flits are being sent (R292): its channel, the next of its flits, the sequence number of its first. -/
structure JCur where
  vc : Nat
  pkt : JPkt
  k : Nat
  first : Nat
deriving DecidableEq, Repr

/-- A flit in the replay buffer (R295, R296): its sequence number, flit `k` of what it carries, and the number of the first flit of that. -/
structure JFlit where
  seq : Nat
  c : JCont
  k : Nat
  first : Nat
deriving DecidableEq, Repr

/-- An arrival at the transmit side whose credit is withheld (R305, R320, R326, R329): a remote event, a write or a fence of the die, a
record or packet that is ready. -/
inductive JArr where
  | ev (e : EvtIn)
  | raw (r : SlReq) (data : List Byte)
  | fence (r : SlReq)
  | rcd (r : LRec)
  | pk (x : JPkt)
deriving DecidableEq, Repr

/-- A lane change agreed or proposed (R300, R301): receive direction, swap, lane, wavelength, codeword. -/
structure LaneChg where
  rx : Bool
  swap : Bool
  lane : Nat
  wl : Nat
  cwn : Nat
deriving DecidableEq, Repr

/-- A link command (Table 9-6): LCMD, LANE, WL, CWN. -/
structure LCmd where
  cmd : Nat
  lane : Nat
  wl : Nat
  cwn : Nat
deriving DecidableEq, Repr

/-- A rollback notice received over a link (R319 step 4): instance, source rank and cluster, step, sender, fences awaited; the packet
itself when the notice is in transit. -/
structure RbkIn where
  inst : Nat
  rank : Nat
  scl : Nat
  step : Nat
  sfaddr : Nat
  fence : List Nat
  pkt : Option (Nat × Nat × List Byte) := none
deriving DecidableEq, Repr

/-- A Jarisk port beside its registers (chapter 09). -/
structure JPortSt where
  /-- Transmit staging of the three channels (R291, R329): records, event flits that are ready, packets; and the packet being sent. -/
  evStage : List LRec := []
  evOut : List (List LRec) := []
  txReq : List JPkt := []
  txMgt : List JPkt := []
  cur : Option JCur := none
  /-- Arrivals with their credit withheld, by channel (0 MGT, 2 REQ, 3 EVT), oldest first. -/
  held : SMap (List JArr) := []
  /-- The replay buffer, oldest first; the number of the next new flit, that of the flit sent next, and where a resend starts after the
  next LCF; the last NAK's ACKSEQ with the run of NAKs that named it (R295, R296). -/
  replay : List JFlit := []
  txSeq : Nat := 0
  txPtr : Nat := 0
  resend : Option Nat := none
  nakAt : Nat := 0
  nakRun : Nat := 0
  /-- Flits sent on and credits granted for MGT, REQ and EVT, modulo 4,096 (R298); the arbitration of the channels (R297). -/
  sent : SMap Nat := []
  granted : SMap Nat := []
  arb : OutSt := {}
  /-- Link commands to send, one in each LCF, and a NAK to send (R293, R295). -/
  lcmds : List LCmd := []
  nakOut : Bool := false
  /-- The transmitted stream (R287–R289): codewords since the last alignment codeword, the lane of its next symbol, the scrambler, the
  CRC-32 register over the slots since the last LCF, and the part of a codeword that has passed, in 170ths. -/
  txN : Nat := 16383
  txPos : Nat := 0
  txScr : Nat := 0
  txCrc : Nat := 0xFFFFFFFF
  txFrac : Nat := 0
  /-- Wavelengths of the transmit lanes, and the transmit spare (R284, R300). -/
  txLanes : List Nat := []
  txSpare : Option Nat := none
  /-- The received stream: the number of the next codeword since the last alignment codeword, the lane of its first symbol, the last line
  bits, the slots held since the last LCF with whether one of their codewords failed; a good LCF has been seen since training or wake;
  NEXTSEQ of the LCF before the group, where that was good (R288, R294). -/
  rxN : Nat := 0
  rxPos : Nat := 0
  rxScr : Nat := 0
  rxSlots : List (Nat × List Byte) := []
  rxBad : Bool := false
  rxSync : Bool := false
  rxNext : Option Nat := none
  /-- Receiver: expected number, a discarded group not yet answered, a NAK sent for the present gap (R295). -/
  rxExp : Nat := 0
  nakOwed : Bool := false
  gap : Bool := false
  /-- Corrected RS symbols by wavelength in the current window (R299); corrected and received symbols by wavelength since Qualify
  began (R304). -/
  ser : SMap Nat := []
  qual : SMap (Nat × Nat) := []
  /-- Link commands received and not yet acted on, oldest first. -/
  lcmdIn : List LCmd := []
  /-- A packet of which not every flit has arrived: bytes so far, flits to come. -/
  asm : List Byte := []
  asmLeft : Nat := 0
  /-- The receive buffer by channel; an event record with whether it is the last of its flit. -/
  rxEv : List (Nat × Nat × Bool) := []
  rxReq : List (Nat × Nat × List Byte) := []
  rxMgt : List (Nat × Nat × List Byte) := []
  /-- Flits received, and credits granted, by channel since the link entered Up (R298). -/
  rxCnt : SMap Nat := []
  rxGrant : SMap Nat := []
  /-- Rollback destination sets (R319): key 2 × instance + SSTEP5[0], the SSTEP5 and the ranks. -/
  sets : SMap (Nat × List Nat) := []
  /-- Notices sent and not answered: instance, step, SCL, ranks; and notices received. -/
  rbkOut : List (Nat × Nat × Nat × List Nat) := []
  rbkIn : List RbkIn := []
  /-- FENCEs that wait for the records accepted before them (R319 step 1). -/
  fenceIn : List FenceWait := []
  /-- Endpoints the port delivered records to since its last fences. -/
  dmask : List Nat := []
  /-- Fences by slot of the fence table (R324). -/
  fences : SMap (Option JAns) := []
  /-- Lane changes agreed or proposed and not yet made (R300, R301). -/
  change : List LaneChg := []
  /-- SLEEP_REQ and SLEEP_ACK received (R305). -/
  sleepPeer : Bool := false
  sleepAck : Bool := false
  /-- The second before training starts again (R302); an error seen in Qualify (R304); failed trainings and qualifications since
  device reset, and whether the port has stayed Dark for MGT_BOOT_LNK.WAIT (R395). -/
  holdoff : Bool := false
  qualErr : Bool := false
  fails : Nat := 0
  darkDone : Bool := false
  /-- The replay contents of a Down port have been freed and reinjected (R326 steps 4 and 5). -/
  rerouted : Bool := false
deriving DecidableEq, Repr

/-- Device-wide Jarisk state: the rank table (key 4096 × INST + RANK), the route table, the quenches in force (R309, R312, R320). -/
structure JDevSt where
  /-- The rank table (R309) and the route table (R312). -/
  ranks : SMap Nat := []
  routes : SMap Nat := []
  /-- Scope 0x0 by instance: 0 none, else 1 + DROP, and the LEASE. -/
  qInst : SMap (Nat × Nat) := []
  /-- Scope 0x1: target, DROP, LEASE. -/
  qTgt : List (Nat × Bool × Nat) := []
  /-- TCLK cycles of the current 1 ms window of the corrected-symbol counts (R299). -/
  serCyc : Nat := 0
deriving DecidableEq, Repr
/-- Module memory and its keys (R357–R360). -/
structure MemcSt where
  /-- What each byte address holds: the number of the key it was last written under (0 never written) and the plain byte. -/
  cells : SMap (Nat × Nat) := []
  /-- The key of each enabled window, the device key, and the number of the next key. -/
  keys : SMap Nat := []
  devKey : Nat := 1
  nextKey : Nat := 2
  /-- Keys of windows written with zeros as a whole under that key (R360). -/
  scrubbed : List Nat := []
deriving DecidableEq, Repr
/-- A flit in a spine replay buffer (R239, R240): sequence number, destination leaf, the hash of its packet, the spine it was sent
through last, data, slot-valid bits. -/
structure RepFlit where
  seq : Nat
  dst : Nat
  h : Nat
  via : Nat
  data : Nat
  valid : Nat
deriving DecidableEq, Repr
/-- A rollback notice that the root has broadcast (R249): instance, REM, RANK, SCL, step, units whose RBK_ACK is awaited. -/
structure RbkRun where
  inst : Nat
  rem : Bool
  rank : Nat
  scl : Nat
  step : Nat
  wait : List SyncUnit
deriving DecidableEq, Repr
/-- What the data network holds beside its registers (chapter 07). -/
structure NetSt where
  /-- The switch outputs, by their byte in the congestion map (Table 7-13). -/
  outs : SMap OutSt := []
  /-- Packets that wait at an edge endpoint for a credit of its leaf (R235), oldest first: RHDR64, body; and NETCLK cycles until a source
  of MGT packets may inject the next MGT flit (R233). -/
  edge : SMap (List (Nat × List Nat)) := []
  mgtWait : SMap Nat := []
  /-- Spine replay buffers (R239): key 16 × leaf + spine, oldest first, at most 64 flits. -/
  replay : SMap (List RepFlit) := []
  /-- The next sequence number of each (leaf, spine), and the last that a destination leaf delivered: key 256 × destination leaf
  + 16 × source leaf + spine, the number plus 1 (0 none). -/
  seqTx : SMap Nat := []
  seqRx : SMap Nat := []
  /-- Hop retry buffers (R238): the last 16 flits sent on each lane in each direction (data, slot-valid bits), oldest first. -/
  hop : List ((Lane × Bool) × List (Nat × Nat)) := []
  /-- Rollback notices under way. -/
  rbks : List RbkRun := []
  /-- The current load window (DNET_EP_LOAD): its cycles; the EVT flits and all flits of each endpoint lane and direction (key
  4 × endpoint + 2 × lane + direction); and fifths of NETCLK cycles that the last TCLK cycle left. -/
  winCyc : Nat := 0
  winLoad : SMap (Nat × Nat) := []
  netFrac : Nat := 0
  /-- Consecutive failed resends of each lane, and the lanes out of service (R238). -/
  lanes : List (Lane × Nat) := []
  lanesOut : List Lane := []
  /-- Outputs whose watchdog fired in this congestion period, and when each was last logged (R237): place in the map, TIME64. -/
  stalls : List Nat := []
  stallLog : List (Nat × Nat) := []
  /-- Bands whose supervisor has failed: their rows use the bypass (R28). -/
  bandsDown : List Nat := []
deriving DecidableEq, Repr
/-- A firmware image as the thimble holds it (R505): VERSION, SVN, COMPAT1–4, its SHA-384 digest. -/
structure FwImg where
  version : Nat
  svn : Nat
  compat : List Nat
  digest : List Byte
deriving DecidableEq, Repr
/-- A stored pattern: the image and the instance recorded by STORE (R384). -/
structure PatSlot where
  image : List Byte
  inst : Nat
deriving DecidableEq, Repr
/-- The persistent store and the fuses (R25, R32, R384, R386, R481, R491, R507); every reset keeps them. -/
structure PersSt where
  /-- Registers kept in the store: SEC_CFG, SEC_KEY_k, MGT_BOOT_LNK, PAT_AUTO, by offset. -/
  regs : SMap Nat := []
  /-- The stored patterns by slot (R384). -/
  slots : SMap (Option PatSlot) := []
  /-- The persistent log, newest first, at most 512 × 1,024 records; wraps of the sequence number since it was formatted. -/
  log : List (List Nat) := []
  wraps : Nat := 0
  /-- Images of component c: current, last-known-good, pending; the fused minimum SVN. -/
  fwCur : SMap (Option FwImg) := []
  fwLkg : SMap (Option FwImg) := []
  fwPend : SMap (Option FwImg) := []
  minSvn : SMap Nat := []
  /-- The component whose update was confirmed last (R508); 0 none. -/
  fwLast : Nat := 0
  /-- Runtime spares the log records, with how many each array uses; shared-slice banks it records as failed (R408). -/
  spares : List (RepArr × Nat) := []
  banks : List (Nat × Nat) := []
deriving DecidableEq, Repr
/-- A power request in progress (R427–R430). -/
structure PwrReq where
  domain : Nat
  action : Nat
  /-- Half-rows that have drained or joined (R27), for a partition. -/
  halves : List Nat := []
  /-- The clusters that were in Logic off before a power-up. -/
  kept : List Nat := []
deriving DecidableEq, Repr
/-- The power controller and clocks beside their registers (chapter 13, R515–R517, R525–R527). -/
structure PowerSt where
  /-- Requests that run; no two overlap. -/
  reqs : List PwrReq := []
  /-- Clusters whose PLL has locked since the wake; clusters whose move to their PLL is requested (R423, R424). -/
  pll : List Nat := []
  swReq : List Nat := []
  /-- Clusters that run at half the clock, and clusters whose change of speed waits for the switch point (R526). -/
  half : List Nat := []
  halfReq : List (Nat × Bool) := []
  /-- Sensors above their shutdown point (R432, R527), a Standby request that waits (R517), HOST held in reset by PERST_N (R515). -/
  tempHold : List Nat := []
  standbyPend : Bool := false
  hostRst : Bool := false
  /-- Partitions whose own throttle is in force (R526). -/
  thr : List Nat := []
  /-- The device runs on the hold-up after a power-loss record (R435). -/
  lossRec : Bool := false
  /-- Domains LNK, ETH, HOST, MEM whose rail has failed (R436), by their bit of PWR_STATUS. -/
  railBad : List Nat := []
  /-- The 7-bit sideband address (R518). -/
  sbAddr : Nat := 0x58
deriving DecidableEq, Repr
/-- An instance command in progress (R470, R475, R473): requester's copy number (none: not through SEC_INST_CMD), operation
(2 RESET, 3 CLEAR, 4 DESTROY), SCRUB, whether it ends a TDI's tenancy and its claim, whether its fence has timed out, and the message
that answers a tenant when it ends: its code and first words. -/
structure InstCmd where
  who : Option Nat
  op : Nat
  scrub : Bool
  unlock : Bool
  timedOut : Bool := false
  resp : Option (Nat × List Nat) := none
deriving DecidableEq, Repr
/-- The thimble beside its registers (chapter 15). -/
structure SecSt where
  /-- Measurements by index; an unlisted one is 48 zero bytes (R462). -/
  meas : SMap (List Byte) := []
  /-- SPDM sessions whose key exchange is not finished, and secured ones, together at most 8 (Table 15-3); the next number. -/
  handshake : List Nat := []
  sessions : List Nat := []
  nextSess : Nat := 1
  /-- Claims: session and token digest of instance i (R467). -/
  claims : SMap (Option (Nat × List Byte)) := []
  /-- The pattern key and the tenant's signing key of instance i (R387, R466); none present. -/
  pkeys : SMap (List Byte) := []
  skeys : SMap (List Byte) := []
  /-- Enabled TEE-limited IDE streams: stream and the virtual functions inside it (R332, R468). -/
  ide : SMap (List Nat) := []
  /-- A debug nonce that has not been used (R480). -/
  nonce : Bool := false
  /-- Instance commands in progress, by instance (R470, R473, R475). -/
  cmds : SMap (Option InstCmd) := []
deriving DecidableEq, Repr
/-- The management processors and their services beside the registers (chapter 16). -/
structure MgmtSt where
  /-- The volatile log ring, newest first, at most 4,096 records; the next SEQ and the next VSEQ of each instance (R488–R491). -/
  ring : List (List Nat) := []
  seq : Nat := 0
  vseq : SMap Nat := []
  /-- When vector 56 was signalled last (R492). -/
  msiT : Option Nat := none
  /-- A takeover under way; the old processor not yet restarted (R483). -/
  takeover : Bool := false
  noStandby : Bool := false
  /-- Device resets made under R485 in the last hour; kept by the thimble across them. -/
  wdResets : Nat := 0
  /-- A management reset that waits for the pattern loader (R403). -/
  mgtrPend : Bool := false
  /-- ETH_CTRL.EN of the two event ports before step 5 of the removal (R503). -/
  attnEth : List Bool := []
  /-- The firmware update in progress: component and image (R507). -/
  fwu : Option (Nat × FwImg) := none
  /-- The activation of component 0x2 waits for the pattern loader (Table 16-10). -/
  actWait : Bool := false
  /-- Ports' cages: 0 empty, 1 a supported transceiver, 2 an unsupported one (R504). -/
  cage : SMap Nat := []
  /-- Congestion-map periods since the last export datagram (R499). -/
  cmx : Nat := 0
  /-- Half-rows of a partition reset that have reported, and partitions whose remaining writes were absorbed (R401). -/
  rstRep : List (Nat × Nat) := []
  rstAbs : List Nat := []
  /-- Arrays whose repair copy runs, management arrays whose repair is held, arrays that needed a spare and had none (R409–R411). -/
  repair : List RepArr := []
  repHeld : List RepArr := []
  exh : List RepArr := []
  /-- Queues whose discards or watchdog events were logged, with TIME64 of the record (R263, R266). -/
  qLogged : List (Nat × Nat) := []
  /-- A device reset requested through MGT_RST_CTRL.DEV that begins 10 µs after its completion (R414). -/
  devReq : Bool := false
deriving DecidableEq, Repr
/-- A pattern request (R373): requester's copy number (none: auto-load), OP, instance, slot, whether from a slot, RUN, address, length. -/
structure PatReq where
  who : Option Nat
  op : Nat
  inst : Nat
  slot : Nat
  fromSlot : Bool
  run : Bool
  src : Nat
  len : Nat
deriving DecidableEq, Repr
/-- The pattern loader (chapter 11). -/
structure PatSt where
  /-- Requests that wait, oldest first; the one being served and its phase (Table 11-5), and the image bytes read. -/
  queue : List PatReq := []
  cur : Option PatReq := none
  image : List Byte := []
  /-- The signature has been verified (step 2). -/
  sigOk : Bool := false
  /-- The section that step 6 or 7 applies next, and what the failures of the instance's units came to at step 3 (Table 11-6). -/
  todo : Option Nat := none
  mark : Nat := 0
  /-- Auto-load entries still to take, and whether the entry before failed (R386). -/
  auto : List Nat := []
  autoFail : Bool := false
  /-- A write of PAT_AUTO not yet stored, and who made it (R388). -/
  autoWr : Option (Req × Nat) := none
deriving DecidableEq, Repr
/-- The state of the block. -/
structure State where
  /-- Every configuration-space register word that differs from its reset value, by offset (R6; requester copies by `bankKey`). -/
  regs : SMap Word
  /-- On-die memories by device address: synapse store, core SRAM, shared slices (R42). An unlisted byte is 0 (R390). -/
  mem : List Host.Cell
  /-- Syndrome of each core SRAM word's hidden check bits, by device address of the word (R49); 0 is clean. -/
  sramSyn : SMap Nat
  /-- Bond transfers of a segment line that will fail parity, by device address of the line: 1 once, 2 or more for good (R91). -/
  bond : SMap Nat
  /-- The neuron cores, by PCID = 32 × cluster + slot (R29, chapter 02). -/
  cores : SMap CoreSt
  /-- The cluster agents and routers, by cluster (chapters 01, 03, 14). -/
  clusters : SMap ClusterSt
  /-- The step sequencer contexts, by instance (chapter 06). -/
  insts : SMap InstSt
  /-- The shared slices (R274–R283). -/
  slices : SMap SliceSt
  /-- The power controller and the device sequences (chapters 12, 13, 16). -/
  dev : DevSt
  /-- The data network (chapter 07). -/
  net : NetSt
  /-- The module memory controller (R357–R360). -/
  memc : MemcSt
  /-- The Jarisk ports (chapter 09). -/
  jports : SMap JPortSt
  /-- The tables and quenches all Jarisk ports share (R309, R312, R320). -/
  jdev : JDevSt
  /-- The host port, the bulk engines and the event ports (chapter 10). -/
  host : HostSt
  /-- The persistent store and the fuses (R25, R384, R491, R507). -/
  pers : PersSt
  /-- The power controller and the clocks (chapter 13, R515–R527). -/
  power : PowerSt
  /-- The thimble (chapter 15). -/
  sec : SecSt
  /-- The management processors (chapter 16). -/
  mgmt : MgmtSt
  /-- The pattern loader (chapter 11). -/
  pat : PatSt
  /-- Records in the log input queue, oldest first (R487). -/
  logIn : List LogRec
  /-- Completions made (R17–R20), newest first. -/
  cpl : List Completion
  /-- Messages sent, newest first. -/
  out : List Output
  /-- Number of free values used so far (the model's own; log entry 5). -/
  fresh : Nat
  /-- The commands that wait, first in, first out. -/
  pending : List Instr
deriving DecidableEq, Repr

/-- The machine right after a device reset. -/
def State.reset : State :=
  { regs := [], mem := [], sramSyn := [], bond := [], cores := [], clusters := [], insts := [], slices := [], dev := {}, net := {}, memc := {}, jports := [], jdev := {}, host := {}, pers := {}, power := {},
    sec := {}, mgmt := {}, pat := {}, logIn := [], cpl := [],
    out := [], fresh := 0, pending := [] }

end Sys2Proof.Machine
end

