-- ==== Sys2Proof/Machine/Ops.lean ====
section
/-! DEFINITION. The named operations over registers, memories and unit state. Every read and write goes through them. -/
namespace Sys2Proof.Machine

/-- The outcome of a command. -/
abbrev Res := Host.Outcome State Fault Refusal
/-- A command that leaves the state `s`. -/
def ok (s : State) : Res := .next s

/-! Registers -/

/-- The 32-bit register word at key `k`. -/
def State.rd (s : State) (k : Nat) : Nat := (sget resetVal k s.regs).toNat
/-- Write the 32-bit register word at key `k`. -/
def State.wr (k v : Nat) (s : State) : State := { s with regs := sset resetVal k (BitVec.ofNat 32 v) s.regs }
/-- A 64-bit pair, low word at `k`. -/
def State.rd64 (s : State) (k : Nat) : Nat := s.rd k + 2 ^ 32 * s.rd (k + 4)
/-- Write a 64-bit pair. -/
def State.wr64 (k v : Nat) (s : State) : State := (s.wr k (v % 2 ^ 32)).wr (k + 4) (v / 2 ^ 32 % 2 ^ 32)
/-- The value of a field of the register at `k`. -/
def State.fv (s : State) (k : Nat) (f : Fld) : Nat := bits (if f.lo + f.w ≤ 32 then s.rd k else s.rd64 k) f.lo f.w
/-- Whether a field of the register at `k` is not 0. -/
def State.fb (s : State) (k : Nat) (f : Fld) : Bool := s.fv k f != 0
/-- Set a field of the register at `k`. -/
def State.fs (k : Nat) (f : Fld) (v : Nat) (s : State) : State :=
  if f.lo + f.w ≤ 32 then s.wr k (setBits (s.rd k) f.lo f.w v) else s.wr64 k (setBits (s.rd64 k) f.lo f.w v)
/-- Write the listed fields of the register at `k` from the value `v`. -/
def State.wrFlds (k v : Nat) (l : List Fld) (s : State) : State := l.foldl (fun s f => s.fs k f (bits v f.lo f.w)) s
/-- Add to a 32-bit counter that saturates. -/
def State.inc (k n : Nat) (s : State) : State := s.wr k (satU 32 (s.rd k + n))
/-- Add to a 64-bit counter pair that wraps. -/
def State.inc64 (k n : Nat) (s : State) : State := s.wr64 k ((s.rd64 k + n) % 2 ^ 64)
/-- Return `n` bytes of register space from `a` to reset values. -/
def State.resetRegs (a n : Nat) (s : State) : State := { s with regs := sclear a n s.regs }

/-! Memories -/

/-- The byte at device address `a`. -/
def State.rdB (s : State) (a : Nat) : Byte := sget (fun _ => 0#8) a s.mem
/-- Write the byte at device address `a`. -/
def State.wrB (a : Nat) (v : Byte) (s : State) : State := { s with mem := sset (fun _ => 0#8) a v s.mem }
/-- `n` bytes from `a`. -/
def State.rdN (s : State) : Nat → Nat → List Byte
  | 0, _ => []
  | n + 1, a => s.rdB a :: s.rdN n (a + 1)
/-- Write bytes from `a` upward. -/
def State.wrN (a : Nat) (l : List Byte) (s : State) : State :=
  (l.foldl (fun (p : Nat × State) b => (p.1 + 1, p.2.wrB p.1 b)) (a, s)).2
/-- The little-endian number of `n` bytes at `a`. -/
def State.rdLE (s : State) (n a : Nat) : Nat := leNat (s.rdN n a)
/-- Write `n` little-endian bytes at `a`. -/
def State.wrLE (n a v : Nat) (s : State) : State := s.wrN a (leBytes n v)
/-- Set `n` bytes from `a` to 0. -/
def State.clrN (a n : Nat) (s : State) : State := { s with mem := sclear a n s.mem }

/-- Copy `n` bytes from `src` to `dst`. -/
def State.copyN (src dst n : Nat) (s : State) : State :=
  let l := s.mem.filter fun (x : Host.Cell) => src ≤ x.1 && x.1 < src + n
  l.foldl (fun s x => s.wrB (dst + (x.1 - src)) x.2) (s.clrN dst n)

/-! Units -/

/-- PCID of a slot of a cluster (R29). -/
def pcid (c : Cl) (k : Sl) : Nat := 32 * c.val + k.val

def ringSlotD : Nat → RingSlot := fun _ => {}
def State.core (s : State) (p : Nat) : CoreSt := sget (fun _ => {}) p s.cores
def State.setCore (p : Nat) (x : CoreSt) (s : State) : State := { s with cores := sset (fun _ => {}) p x s.cores }
def State.cluster (s : State) (c : Nat) : ClusterSt := sget (fun _ => {}) c s.clusters
def State.setCluster (c : Nat) (x : ClusterSt) (s : State) : State := { s with clusters := sset (fun _ => {}) c x s.clusters }
def State.inst (s : State) (i : Nat) : InstSt := sget (fun _ => {}) i s.insts
def State.slice (s : State) (i : Nat) : SliceSt := sget (fun _ => {}) i s.slices
def State.setSlice (i : Nat) (x : SliceSt) (s : State) : State := { s with slices := sset (fun _ => {}) i x s.slices }
def State.setInst (i : Nat) (x : InstSt) (s : State) : State := { s with insts := sset (fun _ => {}) i x s.insts }

/-! Messages -/

def State.emit (o : Output) (s : State) : State := { s with out := o :: s.out }
/-- Post a record to the log input queue; a record that finds its 1,024 places full is discarded and counted (R487). -/
def State.log (typ : Nat) (inst : Option Nat) (args : List Nat) (s : State) : State :=
  if s.logIn.length < 1024 then { s with logIn := s.logIn ++ [⟨typ, inst, args, s.rd64 TIME64⟩] }
  else { (s.inc LOG_DROP 1) with dev := { s.dev with logLost := s.dev.logLost + 1 } }

/-! Completion codes (Table 0-4) -/

def cOK : Nat := 0x00
def cRETRY : Nat := 0x01
def cREFUSED : Nat := 0x02
def cFULL : Nat := 0x03
def cBAD_ARG : Nat := 0x04
def cABORTED : Nat := 0x05
def cDRAINING : Nat := 0x06
def cCHECK_FAIL : Nat := 0x07
def cTIMEOUT : Nat := 0x08
def cSTALE_GEN : Nat := 0x09
def cUNSUPPORTED : Nat := 0x0A
def cCOLLIDED : Nat := 0x0B

/-- The number of a requester's copies of the registers that exist once per requester (R16). -/
def reqIx : Req → Nat
  | .pf => 1 | .mp => 2 | .fm => 3 | .vf i => 4 + i.val

/-- Complete a configuration-space access: LAST_CODE records a code other than OK (R17). -/
def State.finish (q : Req) (code : Nat) (data : List Nat) (slow : Bool) (s : State) : State :=
  let s := if code = cOK then s else s.fs (GLB_CFG_ERR (reqIx q)) GLB_CFG_ERR.LAST_CODE code
  { s with cpl := ⟨q, code, data, slow⟩ :: s.cpl }
/-- What requester copy `n` holds of the pair at `k` in the list `l` of captured or held words (R13). -/
def heldWord (l : List (Nat × Nat × Nat)) (n k : Nat) : Option Nat := (l.find? fun x => x.1 == n && x.2.1 == k).map (·.2.2)
/-- `l` with what requester copy `n` holds replaced by `v` of the pair at `k`. -/
def setHeld (l : List (Nat × Nat × Nat)) (n k : Nat) (v : Option Nat) : List (Nat × Nat × Nat) :=
  match v with
  | some x => (n, k, x) :: l.filter fun y => y.1 != n
  | none => l.filter fun y => y.1 != n
/-- After an access to the register at `k`, requester `q` holds this captured high word and this low word of it, and none of any other
register (R13). -/
def State.hold (q : Req) (k : Nat) (cap low : Option Nat) (s : State) : State :=
  { s with dev := { s.dev with cap := setHeld s.dev.cap (reqIx q) k cap, low := setHeld s.dev.low (reqIx q) k low } }
/-- An access completes; what the requester held of a pair is discarded (R13). -/
def State.done (q : Req) (code : Nat) (data : List Nat) (slow : Bool) (s : State) : State :=
  (s.finish q code data slow).hold q 0 none none
/-- `s'` after an access to the register at `k` in `s`: what the requester holds of that register stays (R13). -/
def State.keep (q : Req) (k : Nat) (s s' : State) : State := s'.hold q k (heldWord s.dev.cap (reqIx q) k) (heldWord s.dev.low (reqIx q) k)

/-- Refuse an access across an instance boundary at the fixed 2 µs of R20. -/
def State.cross (q : Req) (s : State) : State := s.done q cREFUSED [] true
/-- The code of the completion that led from `s` to `t`; none when the access has not completed. -/
def madeCode (s t : State) : Option Nat := if t.cpl.length > s.cpl.length then t.cpl.head?.map (·.code) else none
/-- What R19 puts after a requester's rights: an access to an absent unit (`gone`) completes UNSUPPORTED, but BAD_ARG for a value that
is `bad` in itself; while a load holds the target (`held`) the access `f` completes RETRY unless `f` turns it away with another code. -/
def State.late (q : Req) (gone bad held : Bool) (f : State → State) (s : State) : State :=
  if gone then s.done q (if bad then cBAD_ARG else cUNSUPPORTED) [] false
  else if held then
    match madeCode s (f s) with
    | some c => if c = cOK then s.done q cRETRY [] false else f s
    | none => s.done q cRETRY [] false
  else f s
/-- The requester is a virtual function. -/
def isVf : Req → Bool
  | .vf _ => true
  | _ => false
/-- The requester is the physical function or the fabric manager, which has its rights (R331). -/
def isPf : Req → Bool
  | .pf => true | .fm => true
  | _ => false

/-- The interface of function `f` is in ERROR: its MMIO completes as an unsupported request and its DMA stops (Table 15-5). -/
def State.tdiErr (s : State) (f : Nat) : Bool := f != 0 && s.fv (SEC_INST (f - 1)) SEC_INST.TDI == 3
/-- Before Ready an access of the physical function or a virtual function to a unit whose stage `n` of Table 12-2 has not completed
completes RETRY (R392); while the control hub is down every access does (R403, R483); an interface in ERROR makes none. -/
def State.hub (q : Req) (n : Nat) (f : State → State) (s : State) : State :=
  let err := match q with
    | .vf i => s.tdiErr (i.val + 1)
    | _ => false
  if err then s.cross q
  else if s.dev.hubDown || ((q == .pf || isVf q) && s.fv GLB_DEV_STATE GLB_DEV_STATE.STATE == 1 && decide (s.fv MGT_BOOT_STAT MGT_BOOT_STAT.STAGE < n)) then
    s.done q cRETRY [] false
  else f s
/-- The same for a unit that the virtual function of a Free instance does not reach (R469). -/
def State.gate (q : Req) (n : Nat) (f : State → State) (s : State) : State :=
  match q with
  | .vf i => if s.dev.hubDown = false ∧ s.fv (SEC_INST i.val) SEC_INST.STATE = 0 then s.cross q else s.hub q n f
  | _ => s.hub q n f

/-! Where a core and a segment lie (R42, R48, R88) -/

def sramBase (p : Nat) : Nat := 0x004100000000 + p * 0x40000
def segBase (c seg : Nat) : Nat := 0x004000000000 + c * 0x4000000 + seg * 0x200000
def shmBase : Nat := 0x004200000000

/-- The segment connected to slot `p % 32` of cluster `p / 32` (R89). -/
def State.segOf (s : State) (p : Nat) : Option Nat :=
  if s.fb (CLA_SEGMAP (p / 32) (p % 32)) CLA_SEGMAP.CONN then some (s.fv (CLA_SEGMAP (p / 32) (p % 32)) CLA_SEGMAP.SEG) else none

/-- Device address of word `w` of the segment connected to PCID `p`; none when none is connected. -/
def State.segAddr (s : State) (p w : Nat) : Option Nat := (s.segOf p).map fun g => segBase (p / 32) g + 4 * w

/-- The LCID a slot holds (CORE_ID). -/
def State.lcid (s : State) (p : Nat) : Option Nat :=
  if s.fb (CORE_ID p) CORE_ID.LVALID then some (s.fv (CORE_ID p) CORE_ID.LCID) else none

/-- The block-table index that names cluster `c` (R227). -/
def State.blkOf (s : State) (c : Nat) : Option Nat :=
  (List.range 64).find? fun n => s.fb (DNET_BLK n) DNET_BLK.VALID && s.fv (DNET_BLK n) DNET_BLK.CLNUM == c

/-- The instance a cluster belongs to (R86). -/
def State.clInst (s : State) (c : Nat) : Option Nat :=
  match s.blkOf c with
  | some n => if s.fb (DNET_BLK n) DNET_BLK.IVAL then some (s.fv (DNET_BLK n) DNET_BLK.INST) else none
  | none => none

/-- Instance `i` holds block-table entry `n`. -/
def State.ownsBlk (s : State) (i n : Nat) : Bool :=
  s.fb (DNET_BLK n) DNET_BLK.VALID && s.fb (DNET_BLK n) DNET_BLK.IVAL && s.fv (DNET_BLK n) DNET_BLK.INST == i
/-- The clusters of an instance, by its block-table entries. -/
def State.instClusters (s : State) (i : Nat) : List Nat :=
  ((List.range 256).filter (s.ownsBlk i)).map fun n => s.fv (DNET_BLK n) DNET_BLK.CLNUM
/-- The lowest LCID of an instance that a slot holds. -/
def State.lowLcid (s : State) (i : Nat) : Option Nat :=
  ((List.range 256).filter (s.ownsBlk i)).findSome? fun n =>
    ((List.range 16).find? fun k => s.fb (CLA_SLOTTAB (s.fv (DNET_BLK n) DNET_BLK.CLNUM) k) CLA_SLOTTAB.VALID).map fun k => 16 * n + k

/-- The slot that holds LCID `l` (R227): cluster through the block table, slot through the slot table. -/
def State.pcidOf (s : State) (l : Nat) : Option Nat :=
  let b := DNET_BLK (l / 16)
  if s.fb b DNET_BLK.VALID then
    let c := s.fv b DNET_BLK.CLNUM
    let t := CLA_SLOTTAB c (l % 16)
    if s.fb t CLA_SLOTTAB.VALID then some (32 * c + s.fv t CLA_SLOTTAB.SLOT) else none
  else none

/-! Core SRAM with its hidden check bits (R49) -/

def State.ncomp (s : State) (p : Nat) : Nat := s.fv (CORE_NCOMP p) CORE_NCOMP.NCOMP

/-- The cause code of the region at core SRAM offset `o` (Table 2-2, FCAUSE); none in an unchecked region. -/
def sramCause (n o : Nat) : Option Nat :=
  if o < 0x800 then some 2 else if o < 0x1800 then some 3 else if o < 0x2800 then some 4
  else if o < 0x3000 then some 6 else if o < 0xB000 then some 5 else if o < 0xB000 + 8 * n then some 1 else none

/-- The core is stopped on an uncorrectable error. -/
def State.faulted (s : State) (p : Nat) : Bool := s.fb (CORE_STATE p) CORE_STATE.FAULT

/-- A core stops: FAULT, the cause, and a report to its cluster agent (R49). -/
def State.stopCore (p cause : Nat) (s : State) : State :=
  ((s.fs (CORE_STATE p) CORE_STATE.FAULT 1).fs (CORE_STATE p) CORE_STATE.FCAUSE cause).emit (.report p cause)

/-- Raw word of core SRAM at byte offset `o` (a multiple of 4), no check. -/
def State.sramW (s : State) (p o : Nat) : Nat := s.rdLE 4 (sramBase p + o)

/-- Write a core SRAM word with its check bits (R49). -/
def State.wrSram (p o v : Nat) (s : State) : State :=
  { (s.wrLE 4 (sramBase p + o) v) with sramSyn := serase (sramBase p + o) s.sramSyn }

/-- A core's read of a word of core SRAM: tested in a checked region only, a single-bit error corrected, written back and
counted, an uncorrectable one stops the core and the word is not used (R49). -/
def State.rdSram (p o : Nat) (s : State) : Nat × State :=
  let w := s.sramW p o
  let y := sget (fun _ => 0) (sramBase p + o) s.sramSyn
  if y = 0 then (w, s) else
  match sramCause (s.ncomp p) o with
  | none => (w, s)
  | some cause =>
    match secDec 32 w ((secEnc 32 w) ^^^ y) with
    | (some d, _) => (d, (s.wrSram p o d).inc (CORE_ECC_CE p) 1)
    | (none, _) => (0, (s.inc (CORE_ECC_UE p) 1).stopCore p cause)

/-- Clear `n` bytes of core SRAM from offset `o` with valid check bits. -/
def State.clrSram (p o n : Nat) (s : State) : State :=
  { (s.clrN (sramBase p + o) n) with sramSyn := sclear (sramBase p + o) n s.sramSyn }

/-- Write bytes of core SRAM from device address `a`, with new check bits for each word touched (R49, R50). -/
def State.wrNs (a : Nat) (l : List Byte) (s : State) : State :=
  { (s.wrN a l) with sramSyn := sclear (a / 4 * 4) (roundUp (a + l.length) 4 - a / 4 * 4) s.sramSyn }
/-- Set `n` bytes of core SRAM from device address `a`, whole words, to 0 with valid check bits. -/
def State.clrNs (a n : Nat) (s : State) : State :=
  { (s.clrN a n) with sramSyn := sclear a n s.sramSyn }

/-! Bitmaps of Table 2-2 -/

def oACT : Nat := 0x1800
def oNXT : Nat := 0x1C00
def oDIRTY : Nat := 0x2000
def oGATE : Nat := 0x2400

/-- Bit `i` of the bitmap at offset `b`. -/
def State.rdBit (p b i : Nat) (s : State) : Bool × State :=
  let (w, s) := s.rdSram p (b + i / 32 * 4)
  (w.testBit (i % 32), s)
/-- Set bit `i` of the bitmap at offset `b` to `v`; a word that cannot be read is not written (R49). -/
def State.wrBit (p b i : Nat) (v : Bool) (s : State) : State :=
  let (w, s) := s.rdSram p (b + i / 32 * 4)
  if s.faulted p ∨ w.testBit (i % 32) = v then s else s.wrSram p (b + i / 32 * 4) (setBits w (i % 32) 1 (b2n v))

/-! Segment words -/

/-- Whether one line transfer of the segment line at device address `l` succeeds, with the retry of R91: true when the
transfer or its repeat is clean. -/
def State.bondLine (c l : Nat) (s : State) : Bool × State :=
  match sget (fun _ => 0) l s.bond with
  | 0 => (true, s)
  | 1 => (true, { s.inc (CLA_SEG_PERR c) 1 with bond := serase l s.bond })
  | _ =>
    let g := (l - segBase c 0) / 0x200000
    let s := s.inc (CLA_SEG_PERR c) 2
    (false, (s.fs (CLA_SEG_FAILING c) CLA_SEG_FAILING.FAIL
      (s.fv (CLA_SEG_FAILING c) CLA_SEG_FAILING.FAIL ||| 2 ^ g)).emit (.report (0x800 + c) g))

/-- Word `w` of the segment of PCID `p`, 0 with none connected; no transfer check. -/
def State.segW (s : State) (p w : Nat) : Nat :=
  match s.segAddr p w with
  | some a => s.rdLE 4 a
  | none => 0
/-- The 64-bit structure at words `w` and `w + 1`. -/
def State.segD (s : State) (p w : Nat) : Nat := s.segW p w + 2 ^ 32 * s.segW p (w + 1)
/-- Write word `w` of the segment of PCID `p`; during a migration the spare segment too (R447). -/
def State.wrSeg (p w v : Nat) (s : State) : State :=
  match s.segAddr p w with
  | some a =>
    let s := s.wrLE 4 a v
    match (s.cluster (p / 32)).migrate with
    | some m => if s.segOf p = some m.src then s.wrLE 4 (segBase (p / 32) m.dst + 4 * w) v else s
    | none => s
  | none => s
def State.wrSegD (p w v : Nat) (s : State) : State := (s.wrSeg p w (v % 2 ^ 32)).wrSeg p (w + 1) (v / 2 ^ 32)

/-- Transfer check of the line that holds word `w` for PCID `p`. -/
def State.segLine (p w : Nat) (s : State) : Bool × State :=
  match s.segAddr p (w / 8 * 8) with
  | some a => s.bondLine (p / 32) a
  | none => (true, s)

/-- The line read last and whether its transfer succeeded: a run of words from one line makes one transfer (R88, R91). -/
structure Tx where
  line : Option Nat := none
  good : Bool := true
deriving DecidableEq, Repr
/-- The transfer of the line that holds word `w` for PCID `p`, made once for a run of words in it. -/
def State.tx (p w : Nat) (x : Tx) (s : State) : Tx × State :=
  if x.line = some (w / 8) then (x, s) else
  let (g, s) := s.segLine p w
  (⟨some (w / 8), g⟩, s)
/-- The transfers of the lines that hold the `n` words from `w`: whether all succeed. -/
def State.segRun (p w n : Nat) (s : State) : Bool × State :=
  if n = 0 then (true, s) else
  (List.range ((w + n - 1) / 8 - w / 8 + 1)).foldl (fun (q : Bool × State) i =>
    let (g, s) := q.2.segLine p (8 * (w / 8 + i))
    (q.1 && g, s)) (true, s)
/-- A value the spec leaves open (log entry 5). -/
def State.free (s : State) : Nat × State := (Config.freeNat s.fresh, { s with fresh := s.fresh + 1 })
/-- Word `w` as the reader has it after its transfer: an unchecked word of a failed transfer is a free value (log entry 69). -/
def State.segTx (p w : Nat) (good : Bool) (s : State) : Nat × State :=
  if good then (s.segW p w, s) else
  let (v, s) := s.free
  (v % 2 ^ 32, s)
/-- The check of a 32-bit structure at word `w` whose line has been transferred: over `k` bits, CHK at bit `c` (R99). -/
def State.chkW (p w k c : Nat) (s : State) : Option Nat × State :=
  match chk64 k c (s.segW p w) with
  | (some v, true) => (some v, s.wrSeg p w v)
  | (some v, false) => (some v, s)
  | (none, _) => (none, s)

/-- Read a checked 64-bit segment structure over `k` bits with its check at bit `c`: corrected in use, written back when
`wb`; none on an uncorrectable error or a failed transfer (R91, R98, R99). -/
def State.segChk (p w k c : Nat) (wb : Bool) (s : State) : Option Nat × State :=
  let (good, s) := s.segLine p w
  if good then
    match chk64 k c (s.segD p w) with
    | (some v, true) => (some v, if wb then s.wrSegD p w v else s)
    | (some v, false) => (some v, s)
    | (none, _) => (none, s)
  else (none, s)

/-- The same over one 32-bit word. -/
def State.segChk32 (p w k c : Nat) (s : State) : Option Nat × State :=
  let (good, s) := s.segLine p w
  if good then s.chkW p w k c else (none, s)

/-- The last word of a segment. -/
def segEnd : Nat := 0x60000

end Sys2Proof.Machine
end

