-- ==== Sys2Proof/Machine/FloorPlan.lean ====
section
/-! DEFINITION. The floor-plan map (R35–R39): its records as the management processor wrote them last, and the rewrite of the records
that changed. -/
namespace Sys2Proof.Machine

/-! Power state of a cluster and the states of a core (Tables 13-3 and 0-10) -/

def State.clPwr (s : State) (c : Nat) : Nat := bits (s.rd (PWR_CL_STATE (c / 16))) (2 * (c % 16)) 2
def stRun : Nat := 0
def stIdle : Nat := 1
def stDoze : Nat := 2
def stOff : Nat := 3
def coreState (p : Nat) (s : State) : Nat := s.fv (CORE_STATE p) CORE_STATE.STATE
def halted (p : Nat) (s : State) : Bool := s.fb (CORE_STATE p) CORE_STATE.HALTED

/-! The stored map: word `w` lies at byte offset 0x10 + 4 × w -/

/-- Word 0 of the record of Jarisk port `p` in state `st` (Table 1-7): the ferrules and fibres of Table 9-1. -/
def fpmPort (p st : Nat) : Nat := p + st * 2 ^ 4 + b2n (decide (p ≥ 6)) * 2 ^ 6 + 2 * (p % 6) * 2 ^ 7 + (40 + 2 * p) * 2 ^ 16
/-- The map of a fully present module after a device reset, word by word (R32, log entry 2). -/
def fpmD (w : Nat) : Nat :=
  if w < 1280 then
    (if w % 20 = 0 then w / 20 + 0x1FFFF * 2 ^ 8
     else if w % 20 ≤ 16 then 16 * (w / 20) + (w % 20 - 1) + (w % 20 - 1) * 2 ^ 12
     else if w % 20 = 17 then 0x3FFFF else 0)
  else if w < 1304 then (if w % 2 = 0 then fpmPort ((w - 1280) / 2) 0 else 0)
  else if w < 1308 then (if w % 2 = 0 then (w - 1304) / 2 else 0)
  else w - 1308 + 0xFFFF * 2 ^ 8
/-- Word `w` of the map's body. -/
def State.fpmW (s : State) (w : Nat) : Nat := sget fpmD w s.dev.fpm
def State.setFpm (w v : Nat) (s : State) : State := { s with dev := { s.dev with fpm := sset fpmD w v s.dev.fpm } }

/-- A slot entry (Table 1-6): `lcid` 0xFFF when the slot holds none. A good slot that holds an LCID while no good segment is connected
to it is not active (R30); it shows as a spare (log entry 67). -/
def fpmSlot (c k lcid : Nat) (off : Bool) (s : State) : Nat :=
  let x := s.cluster c
  let seg := s.segOf (32 * c + k)
  let good := seg.any fun g => bit (s.fv (CLA_SEGOK c) CLA_SEGOK.OK) g
  let st : Nat :=
    if x.fused || x.fusedSlots.contains k then 2 else if x.failed.contains k then 3
    else if off || coreState (32 * c + k) s == stOff then 4 else if lcid == 0xFFF || !good then 1 else 0
  lcid + seg.getD 31 * 2 ^ 12 + st * 2 ^ 17
/-- The record of cluster `c` is written from the state of its units (Table 1-5). -/
def fpmCluster (s : State) (c : Nat) : State :=
  let x := s.cluster c
  let blk := s.blkOf c
  let pos := (List.range 16).filterMap fun j =>
    if s.fb (CLA_SLOTTAB c j) CLA_SLOTTAB.VALID then some (s.fv (CLA_SLOTTAB c j) CLA_SLOTTAB.SLOT, j) else none
  let off := decide (s.clPwr c ≥ 2)
  let head := c + (if x.fused then 1 else if x.dead then 2 else 0) * 2 ^ 6 + s.fv (CLA_SEGOK c) CLA_SEGOK.OK * 2 ^ 8
  let lcid := fun (k : Nat) => match pos.find? (fun y => y.1 == k), blk with
    | some y, some n => 16 * n + y.2
    | _, _ => 0xFFF
  (List.range 17).foldl (fun t k => t.setFpm (20 * c + 1 + k) (fpmSlot c k (lcid k) off s)) (s.setFpm (20 * c) head)
/-- The record of Jarisk port `p`: failed while the rail of LNK is bad (R436). -/
def fpmJlk (s : State) (p : Nat) : State :=
  s.setFpm (1280 + 2 * p) (fpmPort p (if s.dev.fusedJlk.contains p then 1 else if s.power.railBad.contains 4 then 2 else 0))
def fpmEth (s : State) (p : Nat) : State := s.setFpm (1304 + 2 * p) (p + b2n (s.dev.fusedEth.contains p) * 2)
/-- The record of shared slice `x`. -/
def fpmSlice (s : State) (x : Nat) : State :=
  s.setFpm (1308 + x) (x + s.fv (SHM_SL_STAT x) SHM_SL_STAT.FAILED * 2 ^ 6 + s.fv (SHM_SL_STAT x) SHM_SL_STAT.BANKOK * 2 ^ 8)
/-- FPM_REWRITE (R36, R38): the records of clusters `cs` and slices `sl` and those of the ports are written; MGEN passes an odd value
and becomes even again; an FPM record is logged. -/
def fpmRewrite (cs sl : List Nat) (s : State) : State :=
  let s := sl.foldl fpmSlice (cs.foldl fpmCluster s)
  let s := (List.range 2).foldl fpmEth ((List.range 12).foldl fpmJlk s)
  let g := (s.rd GLB_FPM_GEN + 2) % 2 ^ 32
  (s.wr GLB_FPM_GEN g).log 0x03 none [g]

end Sys2Proof.Machine
end

