-- ==== Sys2Proof/Machine/Slices.lean ====
section
/-! DEFINITION. The shared memory slices (R274–R283) and the packets of Table 8-5. -/
namespace Sys2Proof.Machine

/-! Packet kinds (Table 7-4) and a free byte string -/

def pkRD_REQ : Nat := 1
def pkWR_REQ : Nat := 2
def pkRD_RSP : Nat := 3
def pkWR_CPL : Nat := 4
def pkQDESC : Nat := 5
def pkMGMT : Nat := 7
def pkTRANSIT : Nat := 8
def pkFENCE : Nat := 9
def pkFENCE_ACK : Nat := 10

/-- The current generation of an instance. -/
def State.gen (s : State) (i : Nat) : Nat := s.fv (SEC_INST i) SEC_INST.GEN
/-- The filters of confidential instance `i` apply (R472); the pattern loader's own writes pass them (R387, R465). -/
def State.conf (s : State) (i : Nat) : Bool := s.fb (SEC_INST i) SEC_INST.CONF && !s.dev.loader

/-- TIME64 now. -/
def State.now (s : State) : Nat := s.rd64 TIME64

/-! Fault records (R459) -/

/-- FREC256 (Table 14-6). -/
def frec (cls outcome cl slot lcid inst flags step detail tdet ttake refiled lostq : Nat) : List Nat :=
  [cls % 256 + outcome % 4 * 2 ^ 8 + cl % 64 * 2 ^ 16 + slot % 32 * 2 ^ 22,
   lcid % 4096 + inst % 16 * 2 ^ 12 + flags % 65536 * 2 ^ 16,
   step % 2 ^ 32, step / 2 ^ 32 % 65536 + detail % 65536 * 2 ^ 16,
   tdet % 2 ^ 32, tdet / 2 ^ 32 % 2 ^ 32, ttake % 2 ^ 32, refiled % 65536 + lostq % 65536 * 2 ^ 16]
/-- A fault record is written: kept among the 64 newest, counted by outcome, logged as FAULT. -/
def State.fault (r : List Nat) (inst : Option Nat) (s : State) : State :=
  let s := { s with dev := { s.dev with frecs := (r :: s.dev.frecs).take 64 } }.inc RAS_FREC_CNT 1
  let o := bits (r.headD 0) 8 2
  let s := if o = 0 then s.inc RAS_CNT_MASKED 1 else if o = 2 then s.inc RAS_CNT_VISIBLE 1 else s
  s.log 0x04 inst r
/-- The fault record of a unit outside the rewinds of R445: port, slot or lane number `slot`, the step open in the cluster's instance, and
as TTAKE a time that nothing gives beyond Table 14-1's bound (log entry 5). -/
def State.faultAt (cls outcome : Nat) (c : Option Nat) (slot lcid detail bound : Nat) (s : State) : State :=
  let i := c.bind s.clInst
  let t := match i with
    | some i => s.fv (STEP_CUR i) STEP_CUR.STEP
    | none => 0
  let (v, s) := s.free
  s.fault (frec cls outcome (c.getD 0) slot lcid (i.getD 0) 0 t detail s.now (v % (bound + 1)) 0 0) i
/-! Addresses (R274) -/

def slSlice (a : Nat) : Nat := bits a 8 6
/-- Slice-local address of slice offset `a`. -/
def slSla (a : Nat) : Nat := bits a 14 11 * 256 + a % 256
def slBank (a : Nat) : Nat := bits (slSla a) 5 4
/-- The slice offset of line `l` of slice `x`. -/
def slLine (x l : Nat) : Nat := l / 8 * 2 ^ 14 + x * 256 + l % 8 * 32

def slN : SlOp → Nat
  | .rd n => n.toNat + 1
  | .wr d => d.length
  | .unit _ _ d => d.length
  | .atomic a _ => if a.toNat = 1 ∨ a.toNat = 4 then 8 else 4
/-- The banks a request uses, cycle by cycle (R276, R279). -/
def slBanks (a : Nat) : SlOp → List Nat
  | .atomic _ _ => [slBank a, slBank a]
  | o => (List.range ((a % 32 + slN o + 31) / 32)).map fun i => slBank (a + 32 * i)

/-- Instance `i` owns slice `x`. -/
def ownsSlice (i x : Nat) (s : State) : Bool := s.fb (SHM_OWN x) SHM_OWN.VALID && s.fv (SHM_OWN x) SHM_OWN.INST == i
/-- Slice `x` belongs to a confidential instance. -/
def confSlice (x : Nat) (s : State) : Bool :=
  s.fb (SHM_OWN x) SHM_OWN.VALID && s.conf (s.fv (SHM_OWN x) SHM_OWN.INST)

/-- Admission of a request in the order of R19 (R258, R275, R279). -/
def slAdmit (r : SlReq) (o : SlOp) (s : State) : Nat :=
  let a := r.addr.toNat - shmBase
  let n := slN o
  let x := slSlice a
  let bad := r.addr.toNat < shmBase || a ≥ 0x2000000 || n == 0 ||
    match o with
    | .atomic k _ => k.toNat > 4 || a % n != 0
    | _ => a % 256 + n > 256
  let gone := s.fb (SHM_SL_STAT x) SHM_SL_STAT.FAILED ||
    (slBanks a o).any fun b => !bit (s.fv (SHM_SL_STAT x) SHM_SL_STAT.BANKOK) b
  if bad then cBAD_ARG
  else match r.who with
    | some i => if !ownsSlice i.val x s || gone then cREFUSED else if s.dev.drainNet then cDRAINING else cOK
    | none => if confSlice x s then cREFUSED else if gone then cUNSUPPORTED else if s.dev.drainNet then cDRAINING else cOK

/-- The new value of an ATOMIC (R279). -/
def atomicNew (k old v : Nat) : Nat :=
  match k with
  | 0 => (old + v) % 2 ^ 32
  | 1 => (old + v) % 2 ^ 64
  | 2 => f32Bits (fadd (fdec fF32 old) (fdec fF32 (v % 2 ^ 32)))
  | 3 => v % 2 ^ 32
  | _ => v

/-- Perform an admitted request: the payload of its response, and the state. -/
def slPerform (r : SlReq) (o : SlOp) (s : State) : List Nat × State :=
  let a := r.addr.toNat
  let x := slSlice (a - shmBase)
  match o with
  | .rd _ => ((s.rdN (slN o) a).map (·.toNat), s.inc64 (SHM_SL_RDB x) (slN o))
  | .wr d => ([], (s.wrN a d).inc64 (SHM_SL_WRB x) d.length)
  | .unit _ _ d => ([], (s.wrN a d).inc64 (SHM_SL_WRB x) d.length)
  | .atomic k v =>
    let old := s.rdLE (slN o) a
    ([old], (s.wrLE (slN o) a (atomicNew k.toNat old v.toNat)).inc (SHM_SL_ATOM x) 1)

/-! Issue groups (R276–R278) -/

/-- Oldest first, at most four, at most one from each source endpoint: the group and what stays. -/
def slGroup : List (SlReq × SlOp) → List (SlReq × SlOp) → List (SlReq × SlOp) → List (SlReq × SlOp) × List (SlReq × SlOp)
  | g, rest, [] => (g, rest)
  | g, rest, x :: t =>
    if g.length < 4 ∧ g.all (fun y => y.1.sep != x.1.sep) then slGroup (g ++ [x]) rest t else slGroup g (rest ++ [x]) t

/-- Insert by ascending endpoint number. -/
def slInsert (x : SlReq × SlOp) : List (SlReq × SlOp) → List (SlReq × SlOp)
  | [] => [x]
  | y :: t => if x.1.sep.toNat ≤ y.1.sep.toNat then x :: y :: t else y :: slInsert x t

/-- The request is a WR_REQ. -/
def slIsWrite : SlOp → Bool
  | .rd _ => false
  | .wr _ => true
  | .atomic _ _ => false
  | .unit _ _ _ => true
/-- Two writes touch the same 8-byte word. -/
def slSameWord (x y : SlReq × SlOp) : Bool :=
  slIsWrite x.2 && slIsWrite y.2 && x.1.addr.toNat / 8 ≤ (y.1.addr.toNat + slN y.2 - 1) / 8
    && y.1.addr.toNat / 8 ≤ (x.1.addr.toNat + slN x.2 - 1) / 8

/-- Stalled cycles of a group, by endpoint: in each cycle each request, in ascending endpoint order, takes its next bank or
stalls (R277). -/
def slStalls : Nat → List (Nat × List Nat) → State → Nat → State
  | 0, _, s, _ => s
  | fuel + 1, l, s, x =>
    if l.all (fun y => y.2.isEmpty) then s else
    let (l', _, s) := l.foldl (fun (q : List (Nat × List Nat) × List Nat × State) y =>
      match y.2 with
      | [] => (q.1 ++ [y], q.2.1, q.2.2)
      | b :: t =>
        if q.2.1.contains b then (q.1 ++ [y], q.2.1, (q.2.2.inc (SHM_CONF y.1) 1).inc (SHM_SL_CONF x) 1)
        else (q.1 ++ [(y.1, t)], b :: q.2.1, q.2.2)) ([], [], s)
    slStalls fuel l' s x

/-- Answer a request. The WR_CPL of a queue unit's write ends in that unit; after a reset of its core the router drops it (R267). -/
def slAnswer (x : Nat) (r : SlReq) (o : SlOp) (code : Nat) (data : List Nat) (s : State) : State :=
  let send := fun (pk : Nat) => s.emit (.packet r.sep.toNat (0x80 + x) pk ((r.who.map (·.val)).getD 0) r.gen.toNat r.tag.toNat (code :: data))
  match o with
  | .wr _ => send pkWR_CPL
  | .unit p reset _ => if reset then s.inc (Q_ABSORB p) 1 else s
  | .rd _ => send pkRD_RSP
  | .atomic _ _ => send pkRD_RSP

/-- One issue group of slice `x`. -/
def slIssue (x : Nat) (s : State) : State :=
  let c := s.slice x
  let (g, rest) := slGroup [] [] c.queue
  let g := g.foldl (fun l y => slInsert y l) []
  let s := s.setSlice x { c with queue := rest }
  let adm := g.filter fun y => slAdmit y.1 y.2 s == cOK
  let s := slStalls 64 (adm.map fun y => (y.1.sep.toNat, slBanks (y.1.addr.toNat - shmBase) y.2)) s x
  g.foldl (fun s y =>
    let code := slAdmit y.1 y.2 s
    if code ≠ cOK then slAnswer x y.1 y.2 code (match y.2 with | .rd n => List.replicate (n.toNat + 1) 0 | _ => []) s
    else if adm.any (fun z => decide (z.1.sep.toNat < y.1.sep.toNat) && slSameWord z y) then
      slAnswer x y.1 y.2 cCOLLIDED [] (s.inc (SHM_SL_COLL x) 1)
    else
      let (d, s) := slPerform y.1 y.2 s
      slAnswer x y.1 y.2 cOK d s) s

/-- Issue groups until the arrival queue is empty. -/
def slDrain (x : Nat) : Nat → State → State
  | 0, s => s
  | n + 1, s => if (s.slice x).queue.isEmpty then s else slDrain x n (slIssue x s)

/-- A request arrives (R276). With the queue full it stays outside until a group has left. `waits` when the slice forms no
group before the next arrival. -/
def slArrive (r : SlReq) (o : SlOp) (waits : Bool) (s : State) : State :=
  let x := slSlice (r.addr.toNat - shmBase)
  let s := if (s.slice x).queue.length ≥ 64 then slIssue x s else s
  let c := s.slice x
  let s := s.setSlice x { c with queue := c.queue ++ [(r, o)] }
  if waits then s else slDrain x 64 s

/-- SLICE_RD_REQ (R276). -/
def execSliceRdReq (r : SlReq) (nbm1 : Byte) (waits : Bool) (s : State) : Res := ok (slArrive r (.rd nbm1) waits s)
/-- SLICE_WR_REQ (R276, R278). -/
def execSliceWrReq (r : SlReq) (data : List Byte) (waits : Bool) (s : State) : Res := ok (slArrive r (.wr data) waits s)
/-- SLICE_ATOMIC (R279). -/
def execSliceAtomic (r : SlReq) (aop : BitVec 4) (opnd : DWord) (waits : Bool) (s : State) : Res :=
  ok (slArrive r (.atomic aop opnd) waits s)

/-! Requests of cores (MOVE, gathering): admission by ownership, then counted transfers -/

/-- A line of a range lies in a failed slice or in a bank out of service (R275). -/
def shmGone (a n : Nat) (s : State) : Bool :=
  n != 0 && (List.range ((a + n - 1) / 32 - a / 32 + 1)).any fun j =>
    let o := a / 32 * 32 + 32 * j
    let st := SHM_SL_STAT (slSlice o)
    s.fb st SHM_SL_STAT.FAILED || !bit (s.fv st SHM_SL_STAT.BANKOK) (slBank o)
/-- The slices of a range are owned by instance `i` and in service. -/
def shmOk (i a n : Nat) (s : State) : Bool :=
  (slicesTouched a n).all (fun x => ownsSlice i x s) && !shmGone a n s
where
  /-- The slices a range of slice offsets touches. -/
  slicesTouched (a n : Nat) : List Nat :=
    if n = 0 then [] else
    let k := (a + n - 1) / 256 - a / 256 + 1
    if k ≥ 64 then List.range 64 else (List.range k).map fun i => (a / 256 + i) % 64

/-- The code with which the slices meet a range that core of instance `i` asks for (R275, in the order of R19). -/
def shmCode (i a n : Nat) (s : State) : Nat :=
  if shmOk i a n s = false then cREFUSED else if s.dev.drainNet then cDRAINING else cOK

/-! Writes of a queue unit: the outbound buffer (Table 8-7, R267) -/

/-- The cluster router accepts writes in order, each while its slice's arrival queue has room; a slice with nothing waiting performs
its write at once. What it does not accept stays. -/
def outAccept : List (SlReq × SlOp) → State → List (SlReq × SlOp) × State
  | [], s => ([], s)
  | y :: t, s =>
    let q := (s.slice (slSlice (y.1.addr.toNat - shmBase))).queue
    if q.length ≥ 64 then (y :: t, s) else outAccept t (slArrive y.1 y.2 (!q.isEmpty) s)
/-- The outbound buffer of core `p` empties as far as the router accepts. -/
def outPump (p : Nat) (s : State) : State :=
  if (s.core p).q.out = [] then s else
  let (l, s) := outAccept (s.core p).q.out s
  s.setCore p { s.core p with q := { (s.core p).q with out := l } }
/-- The WR_REQs that write `b` at slice offset `a`, one for each 256-byte block it touches (R258). -/
def outReqs (p i gen : Nat) (a : Nat) (b : List Byte) : List (SlReq × SlOp) :=
  if b = [] then [] else
  (List.range ((a + b.length - 1) / 256 - a / 256 + 1)).map fun j =>
    let lo := if j = 0 then a else (a / 256 + j) * 256
    let hi := if (a / 256 + j + 1) * 256 < a + b.length then (a / 256 + j + 1) * 256 else a + b.length
    (⟨BitVec.ofNat 8 (0x40 + p / 32), some (Fin.ofNat 16 i), BitVec.ofNat 48 (shmBase + lo), BitVec.ofNat 8 gen, 0⟩,
      .unit p false ((b.drop (lo - a)).take (hi - lo)))
/-- A queue unit hands a write to its outbound buffer. -/
def outPut (p i a : Nat) (b : List Byte) (s : State) : State :=
  outPump p (s.setCore p { s.core p with q := { (s.core p).q with out := (s.core p).q.out ++ outReqs p i (s.gen i) a b } })
/-- A reset of core `p`: the outbound buffer is discarded; the WR_CPL of each write the router has accepted will be absorbed. -/
def outReset (p : Nat) (s : State) : State :=
  let s := s.setCore p { s.core p with q := { (s.core p).q with out := [] } }
  (List.range 64).foldl (fun s x => outAbsorb (fun k => k == p) x s) s
where
  /-- The waiting writes in slice `x` of cores that `mine` names complete at their target with no answer. -/
  outAbsorb (mine : Nat → Bool) (x : Nat) (s : State) : State :=
    let c := s.slice x
    if c.queue.any fun y => ours mine y.2 then
      s.setSlice x { c with queue := c.queue.map fun y => if ours mine y.2 then (y.1, drop y.2) else y }
    else s
  ours (mine : Nat → Bool) : SlOp → Bool
    | .unit k reset _ => mine k && !reset
    | .rd _ => false
    | .wr _ => false
    | .atomic _ _ => false
  drop : SlOp → SlOp
    | .unit k _ d => .unit k true d
    | o => o

/-- Bytes of slice offset `a`, counted. -/
def shmRead (a n : Nat) (s : State) : List Byte × State :=
  (s.rdN n (shmBase + a), (List.range n).foldl (fun s i => s.inc64 (SHM_SL_RDB (slSlice (a + i))) 1) s)
/-- Write bytes at slice offset `a`, counted. -/
def shmWrite (a : Nat) (l : List Byte) (s : State) : State :=
  (List.range l.length).foldl (fun s i => s.inc64 (SHM_SL_WRB (slSlice (a + i))) 1) (s.wrN (shmBase + a) l)

/-- Count `k` times the bytes of a range of slice offsets in counter `r` of their slices. -/
def shmTally (r : Nat → Nat) (a n k : Nat) (s : State) : State :=
  if n = 0 then s else
  (List.range ((a + n - 1) / 256 - a / 256 + 1)).foldl (fun s j =>
    let g := a / 256 + j
    let lo := if 256 * g < a then a else 256 * g
    let hi := if 256 * g + 256 < a + n then 256 * g + 256 else a + n
    s.inc64 (r (g % 64)) (k * (hi - lo))) s

/-! Transparent test and repair (R280–R282) -/

/-- SHM_LINE_TEST (R280–R282): `bad` when a compare mismatched, `wait` the cycles requests waited for the locked line,
`fetch` the management processor's current fetch offset. -/
def execShmLineTest (sl : Fin 64) (bad : Bool) (wait : Word) (fetch : Option (BitVec 25)) (s : State) : Res :=
  let x := sl.val
  let st := SHM_SL_STAT x
  let c := s.slice x
  if s.fb SHM_TEST SHM_TEST.EN = false ∨ s.fb st SHM_SL_STAT.FAILED then ok s else
  let a := slLine x c.testLine
  let inFetch := s.fb SHM_XWIN SHM_XWIN.ACTIVE && (match fetch with
    | some f => f.toNat / 1024 == a / 1024
    | none => false)
  if inFetch then
    ok (if c.deferred then s else (s.setSlice x { c with deferred := true }).inc (SHM_SL_DEFER x) 1)
  else
  let s := (s.setSlice x { c with testLine := (c.testLine + 1) % 16384, deferred := false }).inc (SHM_SL_TWAIT x) wait.toNat
  if bad = false ∨ bit (s.fv st SHM_SL_STAT.BANKOK) (slBank a) = false then ok s else
  let s := s.inc (SHM_SL_TFAIL x) 1
  let (v, s) := s.free
  let s := s.wrLE 32 (shmBase + a) v
  let b := slBank a
  if s.fb st SHM_SL_STAT.COPYING = true ∧ s.fv st SHM_SL_STAT.SPARE_FOR = b then ok s
  else if s.fb st SHM_SL_STAT.COPYING = false ∧ s.fb st SHM_SL_STAT.SPARE_USED = false then
    ok ((s.fs st SHM_SL_STAT.COPYING 1).fs st SHM_SL_STAT.SPARE_FOR b)
  else
    let s := s.fs st SHM_SL_STAT.BANKOK (setBits (s.fv st SHM_SL_STAT.BANKOK) b 1 0)
    let s := { s with pers := { s.pers with banks := (x, b) :: s.pers.banks } }
    ok (((fpmRewrite [] [x] s).log 0x0E none [x, a]).faultAt 4 2 none 0 0xFFF (x + 64 * b) (2 ^ 32 - 1))

/-- SHM_SPARE_COPY_DONE (R282). -/
def execShmSpareCopyDone (sl : Fin 64) (s : State) : Res :=
  let st := SHM_SL_STAT sl.val
  if s.fb st SHM_SL_STAT.COPYING then
    ok (((s.fs st SHM_SL_STAT.COPYING 0).fs st SHM_SL_STAT.SPARE_USED 1).faultAt 4 0 none 0 0xFFF (sl.val + 64 * s.fv st SHM_SL_STAT.SPARE_FOR) (2 ^ 32 - 1))
  else ok s

/-! Clear (R283) -/

/-- A write of SHM_CLR_CTRL. -/
def writeShmClrCtrl (q : Req) (v : Nat) (s : State) : State := s.gate q 8 fun s =>
  if isVf q then s.cross q else
  if bit v 0 = false then s.done q cOK [] false else
  let b := s.fv SHM_CLR_BASE SHM_CLR_BASE.BASE
  let n := s.fv SHM_CLR_LEN SHM_CLR_LEN.LEN
  let wb := s.fv SHM_XWIN SHM_XWIN.BASE * 1024
  let wn := s.fv SHM_XWIN_LEN SHM_XWIN_LEN.LEN * 1024
  let sls := if n = 0 then [] else List.range 64
  if s.fb SHM_XWIN SHM_XWIN.ACTIVE && b < wb + wn && wb < b + n then s.done q cREFUSED [] false
  else if sls.any (fun x => confSlice x s && (List.range ((n + 255) / 256)).any fun g => (b / 256 + g) % 64 == x) then s.cross q
  else if b % 256 ≠ 0 ∨ n % 256 ≠ 0 ∨ b + n > 0x2000000 then s.done q cBAD_ARG [] false
  else if s.fb SHM_CLR_CTRL SHM_CLR_CTRL.BUSY then s.done q cRETRY [] false
  else ({ s with dev := { s.dev with shmClr := some (b, n) } }.fs SHM_CLR_CTRL SHM_CLR_CTRL.BUSY 1).done q cOK [] false
/-- SHM_CLR_GO (R283). -/
def execShmClrGo (q : Req) (v : Word) (s : State) : Res := ok (writeShmClrCtrl q v.toNat s)
/-- SHM_CLR_DONE (R283). -/
def execShmClrDone (s : State) : Res :=
  match s.dev.shmClr with
  | none => ok s
  | some (b, n) =>
    let s := { s with dev := { s.dev with shmClr := none } }
    ok (((s.clrN (shmBase + b) n).fs SHM_CLR_CTRL SHM_CLR_CTRL.BUSY 0).fs SHM_CLR_CTRL SHM_CLR_CTRL.CODE cOK)

/-- A write of SHM_CNT_CLR. -/
def writeShmCntClr (q : Req) (v : Nat) (s : State) : State := s.gate q 8 fun s =>
  if isVf q then s.cross q else
  let s := if bit v 0 then
      (List.range 64).foldl (fun s x => s.resetRegs (SHM_SL_COLL x) 0x3C) (s.resetRegs (SHM_CONF 0) 0x400)
    else s
  s.done q cOK [] false
/-- SHM_CNT_CLR (R283). -/
def execShmCntClr (q : Req) (v : Word) (s : State) : Res := ok (writeShmCntClr q v.toNat s)

end Sys2Proof.Machine
end

