-- ==== Sys2Proof/Machine/JlkOps.lean ====
section
/-! DEFINITION. Operations of the Jarisk ports that other units use (R289–R298, R308–R312, R318): tables, routes, flits, the rank
port map and sync packets. -/
namespace Sys2Proof.Machine

/-- A FULL refusal charged to instance `i`; a source bit that becomes 1 is logged (R479). -/
def exhaustInst (i : Nat) (src : Fld) (s : State) : State :=
  let t := (s.fs (SEC_EXH_SRC i) src 1).inc (SEC_EXH i) 1
  if s.fb (SEC_EXH_SRC i) src then t else t.log 0x0B (some i) [t.rd (SEC_EXH_SRC i)]

def State.jp (s : State) (p : Nat) : JPortSt := sget (fun _ => {}) p s.jports
def State.setJp (p : Nat) (x : JPortSt) (s : State) : State := { s with jports := sset (fun _ => {}) p x s.jports }

/-! Link states (Table 9-8) -/

def jsOff : Nat := 0
def jsDark : Nat := 1
def jsTrain : Nat := 2
def jsQualify : Nat := 3
def jsUp : Nat := 4
def jsSleep : Nat := 5
def jsDown : Nat := 6
def jState (p : Nat) (s : State) : Nat := s.fv (JLK_STATUS p) JLK_STATUS.STATE
/-- Port `p` is present and in state `st`. -/
def jIn (p st : Nat) (s : State) : Bool := !s.dev.fusedJlk.contains p && jState p s == st
/-- Port endpoints (Table 7-2). -/
def epJlk (p : Nat) : Nat := 0x14 + p

/-! Rank and route tables (R309, R312) -/

/-- A table word with its check: corrected and written back, or counted, logged and taken as not VALID. -/
def rdRank (i r : Nat) (s : State) : Nat × State :=
  let k := 4096 * i + r
  let w := sget (fun _ => 0) k s.jdev.ranks
  match chk64 21 21 w with
  | (some v, true) => (v, { s with jdev := { s.jdev with ranks := sset (fun _ => 0) k v s.jdev.ranks } })
  | (some v, false) => (v, s)
  | (none, _) => (0, (s.inc JLK_TBL_UE 1).log 0x05 (some i) [r, w])
def rdRoute (a : Nat) (s : State) : Nat × State :=
  let w := sget (fun _ => 0) a s.jdev.routes
  match chk64 17 17 w with
  | (some v, true) => (v, { s with jdev := { s.jdev with routes := sset (fun _ => 0) a v s.jdev.routes } })
  | (some v, false) => (v, s)
  | (none, _) => (0, (s.inc JLK_TBL_UE 1).log 0x05 none [a, w])
def rkFaddr (w : Nat) : Nat := bits w 0 16
def rkInst (w : Nat) : Nat := bits w 16 4
def rkValid (w : Nat) : Bool := bit w 20
def wrRank (i r v : Nat) (s : State) : State :=
  { s with jdev := { s.jdev with ranks := sset (fun _ => 0) (4096 * i + r) (v % 2 ^ 21 + secEnc 21 (v % 2 ^ 21) * 2 ^ 21) s.jdev.ranks } }
def wrRoute (a v : Nat) (s : State) : State :=
  { s with jdev := { s.jdev with routes := sset (fun _ => 0) a (v % 2 ^ 17 + secEnc 17 (v % 2 ^ 17) * 2 ^ 17) s.jdev.routes } }
/-- The ports that a route entry names, in order: P0, A1, A2, A3. -/
def rtPorts (w : Nat) : List Nat :=
  if bit w 16 then [bits w 0 4, bits w 4 4, bits w 8 4, bits w 12 4].filter (· < 12) else []
/-- The first port of `l` that is in Up or satisfies `ok`; with none, the first in Sleep, which a staged flit wakes (R305, R312; log entry
82). -/
def firstPort (l : List Nat) (ok : Nat → Bool) (s : State) : Option Nat :=
  match l.find? fun p => jIn p jsUp s || ok p with
  | some p => some p
  | none => l.find? fun p => jIn p jsSleep s
/-- The port that a route entry chooses. -/
def pickPort (w : Nat) (s : State) : Option Nat := firstPort (rtPorts w) (fun _ => false) s
def myFaddr (s : State) : Nat := s.fv JLK_FADDR JLK_FADDR.FADDR
/-- `a` is this device's fabric address; no device has 0xFFFF (R308). -/
def isMine (a : Nat) (s : State) : Bool := a == myFaddr s && a != 0xFFFF
/-- The port for fabric address `a` (R312): the entry of this device's own address is ignored, and 0xFFFF has no route (R308). -/
def routeTo (a : Nat) (s : State) : Option Nat × State :=
  if a = 0xFFFF ∨ isMine a s then (none, s) else
  let (w, s) := rdRoute a s
  (pickPort w s, s)
/-- The lowest present port. -/
def lowJlk (s : State) : Nat := ((List.range 12).find? fun p => !s.dev.fusedJlk.contains p).getD 0
/-- Instance `i`'s own rank. -/
def ownRank (i : Nat) (s : State) : Option Nat :=
  if s.fb (JLK_OWNRANK i) JLK_OWNRANK.VALID then some (s.fv (JLK_OWNRANK i) JLK_OWNRANK.RANK) else none

/-! The rank port map (R311, R342) -/

/-- The port that a route entry gives the map: a Down port keeps its place until it has finished its reroute (R327). -/
def mapPort (w : Nat) (s : State) : Option Nat := firstPort (rtPorts w) (fun p => jIn p jsDown s) s
/-- The map value that the rank and route tables give entry `w`; 15 none. -/
def mapOfEntry (w : Nat) (s : State) : Nat :=
  if !rkValid w then 15
  else if isMine (rkFaddr w) s then lowJlk s
  else if rkFaddr w = 0xFFFF then 15
  else match mapPort (rdRoute (rkFaddr w) s).1 s with
    | some p => p
    | none => 15
/-- The egress bindings: map key and value (12 host port, 13 and 14 event ports). -/
def egressKeys (s : State) : List (Nat × Nat) :=
  ((List.range 16).filter fun i => s.fb (HOST_EGR i) HOST_EGR.VALID).map (fun i => (4096 * i + s.fv (HOST_EGR i) HOST_EGR.RANK, 12))
    ++ ((List.range 2).filter fun p => s.fb (ETH_EGR_DST p) ETH_EGR_DST.VALID && s.fb (ETH_OWN p) ETH_OWN.VALID).map
      fun p => (4096 * s.fv (ETH_OWN p) ETH_OWN.INST + s.fv (ETH_EGR_DST p) ETH_EGR_DST.RANK, 13 + p)
/-- The management processor rewrites the rank port maps. -/
def refreshMap (s : State) : State :=
  let m := s.jdev.ranks.foldl (fun m x => sset (fun _ => 15) x.1 (mapOfEntry x.2 s) m) []
  let m := (egressKeys s).foldl (fun m x => sset (fun _ => 15) x.1 x.2 m) m
  { s with dev := { s.dev with rankMap := m } }

/-! Packets -/

def jkRAW : Nat := 1
def jkRFENCE : Nat := 2
def jkRFDONE : Nat := 3
def jkSYNC : Nat := 4
def jkQUENCH : Nat := 5
def jkFM : Nat := 6
def jkSRM : Nat := 7
def jkLDN : Nat := 8
/-- JPCHK over header bytes 0–13. -/
def jpSeal (w0 w1 : Nat) : Nat := w1 % 2 ^ 48 + crc16 (leBytes 8 w0 ++ leBytes 6 w1) * 2 ^ 48
def jpOk (w0 w1 : Nat) : Bool := jpSeal w0 w1 == w1
/-- Flits of a packet with this many body bytes. -/
def pkFlits (n : Nat) : Nat := if n ≤ 48 then 1 else 1 + (n - 48 + 63) / 64
/-- A packet from this device (Table 9-4). -/
def mkPk (df jk inst nb arg : Nat) (body : List Byte) (s : State) : JCont :=
  let vc := if jk ≤ 3 then 2 else 0
  let w0 := df % 2 ^ 16 + myFaddr s * 2 ^ 16 + vc * 2 ^ 32 + jk * 2 ^ 34 + (pkFlits body.length - 1) * 2 ^ 38 + inst % 16 * 2 ^ 41 + nb % 256 * 2 ^ 46
  .pk w0 (jpSeal w0 (arg % 2 ^ 48)) body
/-- Flits that carry content: one event flit, or those of a packet. -/
def contFlits : JCont → Nat
  | .ev _ => 1
  | .pk _ _ b => pkFlits b.length
/-- `n` bytes of a list, zeros past its end. -/
def padTo (n : Nat) (l : List Byte) : List Byte := l.take n ++ List.replicate (n - l.length) 0
/-- The 64 bytes of flit `k` (R291, R292). -/
def contBytes (c : JCont) (k : Nat) : List Byte :=
  match c with
  | .ev l => padTo 64 (l.flatMap fun r => leBytes 8 r.w0 ++ leBytes 8 r.w1)
  | .pk w0 w1 b => padTo 64 ((leBytes 8 w0 ++ leBytes 8 w1 ++ b).drop (64 * k))
/-- The slot type that content rides in (R289). -/
def contSlot : JCont → Nat
  | .ev _ => slEvent
  | .pk _ _ _ => slPacket

/-! Transmit staging (R329): eight flits for each channel -/

def chMGT : Nat := 0
def chREQ : Nat := 2
def chEVT : Nat := 3
/-- The staged packets of a channel: MGT, else REQ. -/
def JPortSt.staged (x : JPortSt) (vc : Nat) : List JPkt := if vc = chMGT then x.txMgt else x.txReq
def JPortSt.setStaged (x : JPortSt) (vc : Nat) (l : List JPkt) : JPortSt := if vc = chMGT then { x with txMgt := l } else { x with txReq := l }
/-- Flits staged on a channel. -/
def stgFlits (x : JPortSt) (vc : Nat) : Nat :=
  if vc = chEVT then x.evOut.length + (x.evStage.length + 3) / 4
  else (x.staged vc).foldl (fun a y => a + contFlits y.c) (match x.cur with
    | some c => if c.vc = vc then contFlits c.pkt.c - c.k else 0
    | none => 0)
/-- Records staged. -/
def stgRecs (x : JPortSt) : Nat := x.evOut.foldl (fun a l => a + l.length) x.evStage.length
def heldOn (x : JPortSt) (vc : Nat) : List JArr := sget (fun _ => []) vc x.held
def setHeldOn (p vc : Nat) (l : List JArr) (s : State) : State :=
  s.setJp p { s.jp p with held := sset (fun _ => []) vc l (s.jp p).held }
/-- An arrival waits at port `p` with its credit withheld. -/
def holdArr (p vc : Nat) (a : JArr) (s : State) : State := setHeldOn p vc (heldOn (s.jp p) vc ++ [a]) s
/-- Port `p` can stage `n` more flits of a channel now: a Down port holds what arrives (R326). -/
def canStage (p vc n : Nat) (s : State) : Bool := jState p s != jsDown && decide (stgFlits (s.jp p) vc + n ≤ 8)
/-- Stage a packet on channel `vc` of port `p`, or hold it behind what is held. -/
def stagePk (p vc : Nat) (y : JPkt) (s : State) : State :=
  if heldOn (s.jp p) vc = [] ∧ canStage p vc (contFlits y.c) s then s.setJp p ((s.jp p).setStaged vc ((s.jp p).staged vc ++ [y]))
  else holdArr p vc (.pk y) s
def stageMgt (p : Nat) (c : JCont) (flow : Nat) (s : State) : State := stagePk p chMGT ⟨c, flow, none⟩ s
def stageReq (p : Nat) (c : JCont) (flow : Nat) (a : Option JAns) (s : State) : State := stagePk p chREQ ⟨c, flow, a⟩ s
/-- The flow of what belongs to no instance of this device. -/
def flowTR : Nat := 16

/-- Occupancy class of `n` out of `size` (Table 7-14). -/
def occClass (n size : Nat) : Nat := if 4 * n < size then 0 else if 4 * n < 2 * size then 1 else if 4 * n < 3 * size then 2 else 3
/-- Flits in the receive buffer of a port, on channel `vc`; in all. -/
def rxOcc (x : JPortSt) (vc : Nat) : Nat :=
  let part := fun (v : Nat) => if x.asm ≠ [] ∧ (bits (leNat (x.asm.take 8)) 32 2 == 0) = (v == chMGT) then x.asm.length / 64 else 0
  if vc = chEVT then (x.rxEv.filter fun r => r.2.2).length
  else (if vc = chMGT then x.rxMgt else x.rxReq).foldl (fun a y => a + pkFlits y.2.2.length) (part vc)
def rxFlits (p : Nat) (s : State) : Nat := rxOcc (s.jp p) chEVT + rxOcc (s.jp p) chMGT + rxOcc (s.jp p) chREQ
/-- The link is Down, Dark or Off. -/
def jDown (p : Nat) (s : State) : Bool := jState p s == jsDown || jState p s == jsDark || jState p s == jsOff
/-- JLK_CMAP at the end of a collection period. -/
def jlkCmap (p : Nat) (s : State) : State :=
  s.wr (JLK_CMAP p) (s.fv (JLK_STATUS p) JLK_STATUS.WIDTH + occClass (s.jp p).replay.length 2048 * 2 ^ 4
    + occClass (rxFlits p s) 2048 * 2 ^ 6 + b2n (jDown p s) * 2 ^ 8)

/-! Sync packets (R247, R318) -/

/-- The two words of a sync message (Table 7-10). -/
def syncWords (op inst step arg : Nat) : Nat × Nat :=
  let w := op % 16 + inst % 16 * 2 ^ 4 + step % 2 ^ 48 * 2 ^ 8
  (w + secEnc 120 (w + arg % 2 ^ 64 * 2 ^ 56) * 2 ^ 56, arg % 2 ^ 64)
def syncBytes (op inst step arg : Nat) : List Byte :=
  let w := syncWords op inst step arg
  leBytes 8 w.1 ++ leBytes 8 w.2
/-- Units of the sync network beside the endpoints: the root, the sync nodes and the partition nodes (R246). -/
def syRoot : Nat := 0x100
def syNode (n : Nat) : Nat := 0x110 + n
def syPart (p : Nat) : Nat := 0x120 + p
/-- Unit `src` sends a sync message. -/
def syncOut (src op inst step arg : Nat) (s : State) : State :=
  let w := syncWords op inst step arg
  s.emit (.sync src w.1 w.2)
/-- A sync message as a node receives it: its OP, INST, STEP and ARG; none when it is discarded, for SCHK (logged) or a reserved OP
(R247, Table 7-11). -/
def syncRecv (w0 w1 : Nat) (s : State) : Option (Nat × Nat × Nat × Nat) × State :=
  match secDec 120 (w0 % 2 ^ 56 + w1 % 2 ^ 64 * 2 ^ 56) (bits w0 56 8) with
  | (none, _) =>
    let s := s.inc DNET_SYNC_UE 1
    (none, s.log 0x0A none [5, s.rd DNET_SYNC_UE])
  | (some m, _) =>
    if bits m 0 4 = 0 ∨ bits m 0 4 ≥ 0xC then (none, s.inc DNET_SYNC_UE 1)
    else (some (bits m 0 4, bits m 4 4, bits m 8 48, m / 2 ^ 56), s)
/-- A command that brings a sync message of operation `op`: a word that spells another operation is not this command's message. -/
def onSync (op : Nat) (w0 w1 : DWord) (f : Nat → Nat → Nat → State → State) (s : State) : State :=
  match syncRecv w0.toNat w1.toNat s with
  | (some (o, i, t, a), s) => if o = op then f i t a s else s
  | (none, s) => s
/-- ARG of RBK and RBK_ACK (Table 7-11). -/
def rbkArg (rem : Bool) (rank scl : Nat) : Nat := scl % 64 + b2n rem * 2 ^ 6 + rank % 4096 * 2 ^ 7

/-- A sync message of instance `i` goes to the device of rank `r` over the port its route chooses. -/
def syncSend (i r op step arg : Nat) (s : State) : State :=
  let (w, s) := rdRank i r s
  if !rkValid w || (ownRank i s).isNone then s.inc (JLK_TX_UNROUTE (lowJlk s)) 1 else
  let (p, s) := routeTo (rkFaddr w) s
  match p with
  | none => s.inc (JLK_TX_UNROUTE (lowJlk s)) 1
  | some p => stageMgt p (mkPk (rkFaddr w) jkSYNC (rkInst w) 0 0 (syncBytes op i step arg ++ leBytes 2 ((ownRank i s).getD 0)) s) i s

end Sys2Proof.Machine
end

