-- ==== Sys2Proof/Machine/Learn.lean ====
section
/-! DEFINITION. The learning rule engine (chapter 04): stamps and ages, rule terms, the hold area, the drain at a commit,
and the epoch close. -/
namespace Sys2Proof.Machine

/-- The stamp of step `t` (R125). -/
def stampOf (t : Nat) : Nat := if t % 65536 = 0xFFFF then 0xFFFE else t % 65536
/-- The age of a stamp at step `t`; none when infinite (R127). -/
def ageOf (t st : Nat) : Option Nat := if st = 0xFFFF then none else some ((t % 65536 + 65536 - st) % 65536)

def lrnEn (p : Nat) (s : State) : Bool := s.fb (LRN_CTRL p) LRN_CTRL.EN
/-- Learning is enabled and not stopped under R139. -/
def lrnOn (p : Nat) (s : State) : Bool := lrnEn p s && !s.fb (LRN_STAT p) LRN_STAT.FAULT
/-- A saturation counted in LRN_EPB_SAT. -/
def epbSat (p : Nat) (b : Bool) (s : State) : State := if b then s.inc (LRN_EPB_SAT p) 1 else s

/-- The engine reads its configuration words: a parity error stops learning in the core (R139). -/
def lrnParity (p : Nat) (s : State) : State :=
  if (s.core p).lrnPar.isEmpty then s
  else ((s.fs (LRN_STAT p) LRN_STAT.FAULT 1).inc (LRN_CFG_PERR p) 1).emit (.report p 0x80)

/-- The epoch number of step `t` (R149). -/
def epochOf (p t : Nat) (s : State) : Nat :=
  if lrnEn p s then t / (s.fv (LRN_EPOCH p) LRN_EPOCH.LEN) else 0

/-- Accumulator slots for each window word (Table 4-1). -/
def entOf (g : Nat) : Nat := if g = 0 then 1 else if g = 1 then 4 else 8

/-- Where a weight lies in its word: a SYN32 weight byte, byte b of a B8 word, nibble n of a B4 word. -/
inductive WPlace where
  | syn | byte (b : Nat) | nib (n : Nat)
deriving DecidableEq, Repr

/-- `sub` of R130 under granularity `g`; none where Table 4-1 says not learned. -/
def subOf (g : Nat) : WPlace → Option Nat
  | .syn => some 0
  | .byte b => if g = 0 then none else if g = 1 then some b else some (2 * b)
  | .nib n => if g = 2 then some n else none

/-- The accumulator index of a weight in window word `w`: outside the window `none`, not learned `some none` (R130). -/
def accIdx (p w : Nat) (pl : WPlace) (s : State) : Option (Option Nat) :=
  let b := s.fv (LRN_PLA_BASE p) LRN_PLA_BASE.BASE
  let g := s.fv (LRN_CTRL p) LRN_CTRL.GRAN
  if b ≤ w ∧ w < b + s.fv (LRN_PLA_LEN p) LRN_PLA_LEN.LEN then some ((subOf g pl).map fun x => (w - b) * entOf g + x) else none

/-- What the terms see of a synapse at an evaluation (R135, R136). -/
structure TermCtx where
  apre : Option Nat
  apost : Option Nat
  lval : Int
  g : Int
  rew : Int
  mstep : Int
  mep : Int
  acc : Int
deriving DecidableEq, Repr

/-- D of R135. -/
def TermCtx.d (c : TermCtx) : Option Nat :=
  match c.apre, c.apost with
  | some a, some b => if b ≤ a then some (a - b) else none
  | _, _ => none

/-- ±65,535 clamp of Table 4-5. -/
def clamp17 (v : Int) : Int := if v > 65535 then 65535 else if v < -65535 then -65535 else v

/-- Decay table `n` at an age (R137). -/
def decay (p n : Nat) (s : State) : Option Nat → Int
  | none => 0
  | some a =>
    let sh := bits (s.rd (LRN_TSEL p)) (16 + 4 * n) 4
    let e := a / 2 ^ sh
    if e ≥ 32 then 0 else (bits (s.rd (LRN_DCY p (16 * n + e / 2))) (16 * (e % 2)) 16 : Nat)

/-- A factor (Table 4-5). -/
def factor (p : Nat) (c : TermCtx) (s : State) (code : Nat) : Int :=
  match code with
  | 0 => 32768
  | 1 => decay p (s.fv (LRN_TSEL p) LRN_TSEL.TPRE) s c.apre
  | 2 => decay p (s.fv (LRN_TSEL p) LRN_TSEL.TPOST) s c.apost
  | 3 => decay p (s.fv (LRN_TSEL p) LRN_TSEL.TPAIR) s c.d
  | 4 => clamp17 c.lval
  | 5 => c.g
  | 6 => c.rew
  | 7 => clamp17 (c.mstep * 256)
  | 8 => clamp17 c.mep
  | 9 => c.acc
  | _ => 0

/-- A condition (Table 4-6). -/
def condHolds (c : TermCtx) (code : Nat) : Bool :=
  match code with
  | 0 => true
  | 1 => c.apre.isSome
  | 2 => c.apost.isSome
  | 3 => c.d.isSome
  | 4 => match c.apost, c.apre with
    | none, _ => false
    | some _, none => true
    | some b, some a => decide (b > a)
  | 5 => decide (clamp17 (c.mstep * 256) ≠ 0)
  | 6 => decide (c.lval > 0)
  | _ => false

/-- The result of term word `w` (R138); 0 when disabled, not of this trigger, or its condition is false. -/
def termVal (p : Nat) (c : TermCtx) (trig : Bool) (s : State) (w : Nat) : Int :=
  if bit w 28 && (bit w 27 == trig) && condHolds c (bits w 24 3) then
    rndDiv (sx 16 (bits w 0 16) * factor p c s (bits w 16 4) * factor p c s (bits w 20 4)) (2 ^ 30)
  else 0

/-- The term words of a core. -/
def termWords (p : Nat) (s : State) : List Nat := (List.range 8).map fun n => s.rd (LRN_TERM p n)

/-- The sum of the terms of a trigger in S32 (R138). -/
def termSum (p : Nat) (c : TermCtx) (trig : Bool) (s : State) : Int :=
  satS 32 ((termWords p s).foldl (fun a w => a + termVal p c trig s w) 0)

/-! The epoch buffer in the segment (Tables 4-2 and 4-3) -/

def epb (p : Nat) (s : State) : Nat := s.fv (CORE_EPB_BASE p) CORE_EPB_BASE.BASE
def ehdr (p i : Nat) (s : State) : Nat := s.segW p (epb p s + i)
def wrEhdr (p i v : Nat) (s : State) : State := s.wrSeg p (epb p s + i) v
/-- The CRC of EHDR: words 0–5 and then 8–15. -/
def ehdrCrc (p : Nat) (s : State) : Nat :=
  crc32 (wordBytes (([0, 1, 2, 3, 4, 5, 8, 9, 10, 11, 12, 13, 14, 15] : List Nat).map fun i => ehdr p i s))
def sealEhdr (p : Nat) (s : State) : State := wrEhdr p 6 (ehdrCrc p s) s
def ehdrState (p : Nat) (s : State) : Nat := bits (ehdr p 0 s) 0 2
def setEhdrState (p v : Nat) (s : State) : State := sealEhdr p (wrEhdr p 0 (setBits (ehdr p 0 s) 0 2 v) s)
/-- Ring entry `i` (0–15): the compartment when valid (R148). -/
def ringEntry (p i : Nat) (s : State) : Option Nat :=
  let h := bits (ehdr p (8 + i / 2) s) (16 * (i % 2)) 16
  if bit h 15 then some (bits h 0 13) else none
/-- Accumulator word address of index `idx`. -/
def accWord (p idx : Nat) (s : State) : Nat := epb p s + 16 + idx
/-- Length of the accumulator part. -/
def accLen (p : Nat) (s : State) : Nat := s.fv (LRN_PLA_LEN p) LRN_PLA_LEN.LEN * entOf (s.fv (LRN_CTRL p) LRN_CTRL.GRAN)
def candWord (p i : Nat) (s : State) : Nat := epb p s + 16 + accLen p s + i

/-- The post-synaptic stamp of compartment `c` (R52). -/
def stampAddr (p c : Nat) (s : State) : Nat := 0xB000 + s.ncomp p * 12 + 2 * c
def rdStamp (p c : Nat) (s : State) : Nat := s.rdLE 2 (sramBase p + stampAddr p c s)
/-- Write a stamp; a whole word is written, with its check bits (R49). -/
def wrStamp (p c v : Nat) (s : State) : State :=
  let o := stampAddr p c s
  s.wrSram p (o / 4 * 4) (setBits (s.sramW p (o / 4 * 4)) (8 * (o % 4)) 16 v)

/-- Write a stamp in the open step, remembering what it was at the open (R135). -/
def newStamp (p c v : Nat) (s : State) : State :=
  let x := s.core p
  let s := if x.stampsWas.any fun y => y.1 == c then s else s.setCore p { x with stampsWas := (c, rdStamp p c s) :: x.stampsWas }
  wrStamp p c v s
/-- The post-synaptic stamp of compartment `c` as it stood at the open of step `t`, the step last committed or the open one (R135). -/
def stampAtOpen (p t c : Nat) (s : State) : Nat :=
  let x := s.core p
  let l := if s.fv (CORE_STEP p) CORE_STEP.CUR = t then x.stampsWas else x.stampsWas1 ++ x.stampsWas
  ((l.find? fun y => y.1 == c).map (·.2)).getD (rdStamp p c s)

/-- Carried values the terms see at the walk of step `t`, with the stamp `post` of the target and the reward `rew`. -/
def termCtx (p t : Nat) (pre post rew : Nat) (lval g acc : Int) (s : State) : TermCtx :=
  { apre := ageOf t pre, apost := ageOf t post, lval := lval, g := g,
    rew := sx 16 rew, mstep := sx 32 (ehdr p 2 s), mep := sx 32 (ehdr p 1 s), acc := acc }
/-- REWL: the reward for the open step (Table 4-3). -/
def rewl (p : Nat) (s : State) : Nat := bits (ehdr p 3 s) 0 16

/-! The hold area (R142) -/

/-- Place a record, or discard and count it when the area is full. -/
def holdPut (p rec : Nat) (s : State) : State :=
  let c := s.core p
  let len := s.fv (LRN_HOLD p) LRN_HOLD.LEN
  if c.holdN < len then
    let o := s.fv (LRN_HOLD p) LRN_HOLD.BASE + 8 * ((c.holdHead + c.holdN) % len)
    let s := (s.wrSram p o (rec % 2 ^ 32)).wrSram p (o + 4) (rec / 2 ^ 32)
    let n := c.holdN + 1
    let s := s.setCore p { c with holdN := n }
    if n > s.rd (LRN_HOLD_HWM p) then s.wr (LRN_HOLD_HWM p) n else s
  else s.inc (LRN_HOLD_DROP p) 1

/-- The engine's work for one applied plastic weight at the walk (R140, R141). -/
def learnWalk (p t pre : Nat) (w : Nat) (pl : WPlace) (tgt : Nat) (lval g : Int) (s : State) : State :=
  match accIdx p w pl s with
  | none => s.inc (LRN_WIN_SKIP p) 1
  | some none => s.inc (LRN_GRAN_SKIP p) 1
  | some (some idx) =>
    let sum := termSum p (termCtx p t pre (rdStamp p tgt s) (rewl p s) lval g 0 s) false s
    let d := satS 16 sum
    let s := epbSat p (decide (d ≠ sum)) (s.inc64 (LRN_EVALS p) 1)
    if d = 0 then s else holdPut p (idx + tc 16 d * 2 ^ 32) s

/-- The PRE record and the stitch candidate of a walked slot entry (R126, R141, R148). -/
def learnEntry (p t axon fmt : Nat) (s : State) : State :=
  let s := holdPut p (axon + stampOf t * 2 ^ 32 + 1 * 2 ^ 62) s
  if s.fb (LRN_CTRL p) LRN_CTRL.STITCH && (fmt == 2 || fmt == 3) then
    match ringEntry p ((axon + t) % 16) s with
    | some c =>
      if c < s.ncomp p then
        match ageOf t (rdStamp p c s) with
        | some a => if a ≤ s.fv (LRN_STITCH p) LRN_STITCH.WIN then holdPut p (axon + c * 2 ^ 16 + 2 * 2 ^ 62) s else s
        | none => s
      else s
    | none => s
  else s

/-- The AXN64 word address of axon `a`. -/
def axnAddr (p a : Nat) (s : State) : Nat := s.fv (CORE_AXT_BASE p) CORE_AXT_BASE.BASE + 2 * a
def axtLen (p : Nat) (s : State) : Nat := s.fv (CORE_AXT_LEN p) CORE_AXT_LEN.LEN
/-- A checked read of AXN64 of axon `a`, corrected and written back. -/
def rdAxn (p a : Nat) (s : State) : Option Nat × State := s.segChk p (axnAddr p a s) 41 41 true
/-- PRE of axon `a` as read. -/
def rdPre (p a : Nat) (s : State) : Nat := bits (s.segW p (axnAddr p a s + 1)) 16 16
def wrPre (p a v : Nat) (s : State) : State :=
  s.wrSeg p (axnAddr p a s + 1) (setBits (s.segW p (axnAddr p a s + 1)) 16 16 v)

/-- One record of the hold area at the drain (R142, R143). Accumulator records in a row that fall in one line share its read. -/
def drainRec (p : Nat) (q : Tx × State) (r : Nat) : Tx × State :=
  let s := q.2
  match bits r 62 2 with
  | 0 =>
    let idx := bits r 0 21
    if idx < accLen p s then
      let (x, s) := s.tx p (accWord p idx s) q.1
      let (w, s) := s.segTx p (accWord p idx s) x.good
      let v := sx 16 w + sx 16 (bits r 32 16)
      let y := satS 16 v
      (x, epbSat p (decide (v ≠ y)) (s.wrSeg p (accWord p idx s) (setBits w 0 16 (tc 16 y))))
    else ({}, s.inc (LRN_HOLD_DROP p) 1)
  | 1 =>
    let a := bits r 0 16
    ({}, if a < axtLen p s then wrPre p a (bits r 32 16) s else s.inc (LRN_HOLD_DROP p) 1)
  | 2 =>
    let n := bits (ehdr p 0 s) 16 16
    ({}, if n < s.fv (LRN_CAND_CAP p) LRN_CAND_CAP.CAP then
      wrEhdr p 0 (setBits (ehdr p 0 s) 16 16 (n + 1)) (s.wrSeg p (candWord p n s) (bits r 0 29))
    else s.inc (LRN_CAND_DROP p) 1)
  | _ => ({}, s.inc (LRN_HOLD_DROP p) 1)

/-- The hold records of the step in record order. -/
def holdRecs (p : Nat) (s : State) : List Nat :=
  let c := s.core p
  let len := s.fv (LRN_HOLD p) LRN_HOLD.LEN
  (List.range c.holdN).map fun i =>
    s.rdLE 8 (sramBase p + s.fv (LRN_HOLD p) LRN_HOLD.BASE + 8 * ((c.holdHead + i) % len))

/-- Replace the first ring entries by the compartments that spiked (R148). -/
def ringUpdate (p : Nat) (s : State) : State :=
  if s.fb (LRN_CTRL p) LRN_CTRL.STITCH then
    (((s.core p).spiked.take 16).foldl (fun (q : Nat × State) c =>
      let w := ehdr p (8 + q.1 / 2) q.2
      (q.1 + 1, wrEhdr p (8 + q.1 / 2) (setBits w (16 * (q.1 % 2)) 16 (c + 2 ^ 15)) q.2)) (0, s)).2
  else s

/-- The hold area empties at a commit (R142). -/
def holdEmpty (p : Nat) (s : State) : State :=
  let c := s.core p
  let len := s.fv (LRN_HOLD p) LRN_HOLD.LEN
  s.setCore p { c with holdN := 0, holdHead := if len = 0 then 0 else (c.holdHead + c.holdN) % len }
/-- The drain of the hold area and the EHDR write after the MCB write of step `t` (R143 steps 1 and 2). -/
def learnDrain (p t : Nat) (s : State) : State :=
  let s := holdEmpty p ((holdRecs p s).foldl (drainRec p) ({}, s)).2
  let c := s.core p
  let s := s.setCore p { c with modSum := 0, rewWas := rewl p s }
  let m := satS 32 c.modSum
  let s := epbSat p (decide (m ≠ c.modSum)) s
  let a := sx 32 (ehdr p 1 s) + m
  let a' := satS 32 a
  let s := epbSat p (decide (a ≠ a')) s
  let s := wrEhdr p 2 (tc 32 m) (wrEhdr p 1 (tc 32 a') s)
  let s := wrEhdr p 3 (setBits (ehdr p 3 s) 0 16 (s.fv (LRN_REWARD p) LRN_REWARD.REW)) s
  let s := ringUpdate p s
  let s := wrEhdr p 5 (t / 2 ^ 32) (wrEhdr p 4 (t % 2 ^ 32) s)
  sealEhdr p s

/-- "Clear" of Table 4-9: every ACC to 0 keeping WEAK, and the carried state reset (R156). -/
def learnClear (p : Nat) (s : State) : State :=
  let s := (List.range (accLen p s)).foldl (fun s i => s.wrSeg p (accWord p i s) (setBits (s.segW p (accWord p i s)) 0 16 0)) s
  let s := wrEhdr p 2 0 (wrEhdr p 1 0 (wrEhdr p 0 0 s))
  let s := wrEhdr p 3 (s.fv (LRN_REWARD p) LRN_REWARD.REW + lfsrSeed (s.fv (LRN_SEED p) LRN_SEED.SEED) * 2 ^ 16) s
  let s := (List.range 8).foldl (fun s i => wrEhdr p (8 + i) 0 s) s
  sealEhdr p s

/-! The free pool and its allocator (R117–R124) -/

def poolBase (p : Nat) (s : State) : Nat := s.fv (CORE_POOL_BASE p) CORE_POOL_BASE.BASE
def poolN (p : Nat) (s : State) : Nat := s.fv (CORE_POOL_LEN p) CORE_POOL_LEN.LEN / 8
def poolWord (p line i : Nat) (s : State) : Nat := poolBase p s + 8 * line + i
def poolFree (p : Nat) (s : State) : Nat := s.fv (CORE_POOL_STAT p) CORE_POOL_STAT.FREE
def poolBroken (p : Nat) (s : State) : Bool := s.fb (CORE_POOL_STAT p) CORE_POOL_STAT.BROKEN
def poolBreak (p : Nat) (s : State) : State := (s.fs (CORE_POOL_STAT p) CORE_POOL_STAT.BROKEN 1).inc (CORE_POOL_CHKERR p) 1
def setPoolFree (p v : Nat) (s : State) : State :=
  let s := s.fs (CORE_POOL_STAT p) CORE_POOL_STAT.FREE v
  if v < s.fv (CORE_POOL_LWM p) CORE_POOL_LWM.LWM then s.fs (CORE_POOL_LWM p) CORE_POOL_LWM.LWM v else s

/-- A pool header word or PREV word: 16 bits under SEC-DED. -/
def enc16 (v : Nat) : Nat := v % 2 ^ 16 + secEnc 16 (v % 2 ^ 16) * 2 ^ 16
/-- Word 0 of a free run (Table 3-7). -/
def freeW0 (next k : Nat) : Nat :=
  let d := next % 2 ^ 16 + k * 2 ^ 16 + 2 ^ 19
  d + secEnc 20 d * 2 ^ 20 + 0x2D * 2 ^ 26
/-- LHDR32 of a list of class `k` (Table 3-5). -/
def lhdr (k : Nat) : Nat := k + secEnc 20 k * 2 ^ 20

/-- A checked pool word: header, PREV (k = 16) or run word 0 (k = 20); an uncorrectable one breaks the pool (R124). -/
def rdPool (p w k : Nat) (s : State) : Option Nat × State :=
  match s.segChk32 p w k k with
  | (some v, s) => (some (bits v 0 k), s)
  | (none, s) => (none, poolBreak p s)

/-- Put run (i, k) at the head of its class list: whether every word could be read. -/
def poolPush (p i k : Nat) (s : State) : Bool × State :=
  match rdPool p (poolWord p 0 k s) 16 s with
  | (some h, s) =>
    let s := (s.wrSeg p (poolWord p i 0 s) (freeW0 h k)).wrSeg p (poolWord p i 1 s) (enc16 0)
    let s := if h = 0 then s else s.wrSeg p (poolWord p h 1 s) (enc16 i)
    (true, s.wrSeg p (poolWord p 0 k s) (enc16 i))
  | (none, s) => (false, s)

/-- Unlink run (i, k) from its class list: whether every word could be read. -/
def poolUnlink (p i k : Nat) (s : State) : Bool × State :=
  match rdPool p (poolWord p i 0 s) 20 s with
  | (none, s) => (false, s)
  | (some w0, s) =>
    match rdPool p (poolWord p i 1 s) 16 s with
    | (none, s) => (false, s)
    | (some prev, s) =>
      let next := bits w0 0 16
      let s := if next = 0 then s else s.wrSeg p (poolWord p next 1 s) (enc16 prev)
      if prev = 0 then (true, s.wrSeg p (poolWord p 0 k s) (enc16 next))
      else
        match rdPool p (poolWord p prev 0 s) 20 s with
        | (none, s) => (false, s)
        | (some pw, s) => (true, s.wrSeg p (poolWord p prev 0 s) (freeW0 next (bits pw 16 3)))

/-- The lowest non-empty class of the list, with its head: `some none` when all are empty, none when a header is bad. -/
def poolFind (p : Nat) : List Nat → State → Option (Option (Nat × Nat)) × State
  | [], s => (some none, s)
  | m :: t, s =>
    match rdPool p (poolWord p 0 m s) 16 s with
    | (none, s) => (none, s)
    | (some 0, s) => poolFind p t s
    | (some h, s) => (some (some (m, h)), s)

/-- Split run (i, m) down to class `k`, upper halves going to their lists (R119). -/
def poolSplit (p i k : Nat) : Nat → State → Bool × State
  | 0, s => (true, s)
  | m + 1, s => if m + 1 ≤ k then (true, s) else
    match poolPush p (i + 2 ^ m) m s with
    | (true, s) => poolSplit p i k m s
    | (false, s) => (false, s)

/-- Allocate a run of class `k` (R119): its first line; none when the pool is broken, breaks, or has none. An allocation that breaks
the pool is discarded with its writes (R124). -/
def poolAlloc (p k : Nat) (s : State) : Option Nat × State :=
  if poolBroken p s then (none, s) else
  match poolFind p ((List.range 8).filter fun m => decide (k ≤ m)) s with
  | (none, s) => (none, s)
  | (some none, s) => (none, s)
  | (some (some (m, i)), s) =>
    match poolUnlink p i m s with
    | (false, s') => (none, { s' with mem := s.mem })
    | (true, s1) =>
      match poolSplit p i k m s1 with
      | (false, s') => (none, { s' with mem := s.mem })
      | (true, s2) => (some i, setPoolFree p (poolFree p s2 - 2 ^ k) s2)

/-- Merge run (i, k) with free buddies upward, then put it at the head of its class (R120). A buddy's word 0, a list header or a
free-run word, is corrected before FREE is tested. -/
def poolMerge (p : Nat) : Nat → Nat → Nat → State → Bool × State
  | 0, i, k, s => poolPush p i k s
  | f + 1, i, k, s =>
    let b := i ^^^ 2 ^ k
    if k < 7 ∧ 1 ≤ b ∧ b + 2 ^ k ≤ poolN p s then
      match rdPool p (poolWord p b 0 s) 20 s with
      | (none, s) => (false, s)
      | (some v, s) =>
        if bit v 19 && bits v 16 3 == k then
          match poolUnlink p b k s with
          | (true, s) => poolMerge p f (if b < i then b else i) (k + 1) s
          | (false, s) => (false, s)
        else poolPush p i k s
    else poolPush p i k s

/-- The runs that formatting makes, in ascending order (R118 step 1). -/
def poolRuns (n : Nat) : Nat → Nat → List (Nat × Nat)
  | 0, _ => []
  | f + 1, i =>
    if i < n then
      let k := ((List.range 8).reverse.find? fun k => decide (i % 2 ^ k = 0 ∧ i + 2 ^ k ≤ n)).getD 0
      (i, k) :: poolRuns n f (i + 2 ^ k)
    else []

/-- Format the pool (R118): class lists in ascending address order. With CORE_POOL_LEN = 0, of which the rule does not speak, it
writes eight empty headers at CORE_POOL_BASE as for a pool without runs (log entry 70). -/
def poolFormat (p : Nat) (s : State) : State :=
  let n := poolN p s
  let runs := poolRuns n n 1
  let s := s.fs (CORE_POOL_STAT p) CORE_POOL_STAT.BROKEN 0
  let s := (List.range 8).foldl (fun s k =>
    let rs := (runs.filter fun r => r.2 == k).map (·.1)
    let s := s.wrSeg p (poolWord p 0 k s) (enc16 (rs.headD 0))
    ((List.range rs.length).foldl (fun s j =>
      let s := s.wrSeg p (poolWord p (rs.getD j 0) 0 s) (freeW0 (rs.getD (j + 1) 0) k)
      s.wrSeg p (poolWord p (rs.getD j 0) 1 s) (enc16 (if j = 0 then 0 else rs.getD (j - 1) 0))) s)) s
  let s := s.fs (CORE_POOL_STAT p) CORE_POOL_STAT.FREE (n - 1)
  s.fs (CORE_POOL_LWM p) CORE_POOL_LWM.LWM (n - 1)


/-! Stitch and unpick (R121, R122, R155) -/

/-- AXN64 with a new BASE and LEN and its check; PRE and PLAST_EN kept. -/
def axnWith (v base len : Nat) : Nat :=
  let v := setBits (setBits v 0 20 base) 20 16 len
  setBits v 41 7 (secEnc 41 (bits v 0 41))

/-- A stitch discarded or refused is counted against the core's instance too (R123, R479). -/
def exhaust (p : Nat) (src : Fld) (s : State) : State :=
  match s.clInst (p / 32) with
  | some i => exhaustInst i src s
  | none => s
def stitchRefuse (p : Nat) (s : State) : State := exhaust p SEC_EXH_SRC.ALLOC (s.inc (CORE_ALLOC_REFUSE p) 1)
/-- An operation of the allocator is discarded: the first in an epoch of an instance is logged (R123, R124). -/
def allocDiscard (p : Nat) (s : State) : State :=
  let s := s.inc (CORE_ALLOC_FAIL p) 1
  match s.clInst (p / 32) with
  | none => s
  | some i =>
    let e := s.rd (LRN_EPNUM p)
    if (s.inst i).allocEp = some e then s
    else (s.setInst i { s.inst i with allocEp := some e }).log 0x0B (some i) [s.rd (SEC_EXH_SRC i), p]

/-- A stitch without a run (R121 step 5, R123). -/
def stitchFail (p : Nat) (s : State) : State := allocDiscard p (exhaust p SEC_EXH_SRC.ALLOC s)
/-- A stitch discarded because a structure it reads is uncorrectable (R123). -/
def stitchDrop (p k : Nat) (s : State) : State := exhaust p SEC_EXH_SRC.ALLOC (s.inc k 1)
/-- Free run (i, k) (R120). One that breaks the pool is discarded with its writes (R124). -/
def poolFreeRun (p i k : Nat) (s : State) : State :=
  match poolMerge p 8 i k s with
  | (true, s') => setPoolFree p (poolFree p s' + 2 ^ k) s'
  | (false, s') => allocDiscard p { s' with mem := s.mem }

/-- Copy an accumulator word to another index and clear the old one; nothing outside the window. -/
def accMove (p src dst : Nat) (x : Tx) (s : State) : Tx × State :=
  match accIdx p src .syn s, accIdx p dst .syn s with
  | some (some i), some (some j) =>
    let (x, s) := s.tx p (accWord p i s) x
    let (v, s) := s.segTx p (accWord p i s) x.good
    (x, (s.wrSeg p (accWord p i s) 0).wrSeg p (accWord p j s) v)
  | some (some i), _ => (x, s.wrSeg p (accWord p i s) 0)
  | _, _ => (x, s)
def accZero (p w : Nat) (s : State) : State :=
  match accIdx p w .syn s with
  | some (some i) => s.wrSeg p (accWord p i s) 0
  | _ => s

/-- A stitch of entry `e` on axon `a` (R121): whether it completed. A stitch that cannot read a line of the list it would copy is
discarded like an entry that fails its check (R91, log entry 69). -/
def stitch (p a e : Nat) (s : State) : Bool × State :=
  match rdAxn p a s with
  | (none, s) => (false, stitchDrop p (CORE_AXN_CHKERR p) s)
  | (some v, s) =>
    let fmt := bits v 36 4
    if (fmt ≠ 2 ∧ fmt ≠ 3) ∨ bit v 40 = false then (false, stitchRefuse p s) else
    let base := bits v 0 20
    let len := bits v 20 16
    match s.segChk32 p base 20 20 with
    | (none, s) => (false, stitchDrop p (CORE_POOL_CHKERR p) s)
    | (some h, s) =>
      let k := bits h 0 3
      let cap := 2 ^ (k + 3) - 1
      if len > cap then (false, stitchRefuse p s)
      else if len < cap then
        let s := s.wrSeg p (base + 1 + len) e
        (true, accZero p (base + 1 + len) (s.wrSegD p (axnAddr p a s) (axnWith v base (len + 1))))
      else if k = 7 then (false, stitchRefuse p s)
      else
        match s.segRun p (base + 1) len with
        | (false, s) => (false, stitchDrop p (CORE_SYN_CHKERR p) s)
        | (true, s) =>
          match poolAlloc p (k + 1) s with
          | (none, s) => (false, stitchFail p s)
          | (some i, s) =>
            let nb := poolWord p i 0 s
            let s := s.wrSeg p nb (lhdr (k + 1))
            let (_, s) := (List.range len).foldl (fun (q : Tx × State) j =>
              accMove p (base + 1 + j) (nb + 1 + j) q.1 (q.2.wrSeg p (nb + 1 + j) (q.2.segW p (base + 1 + j)))) ({}, s)
            let s := accZero p (nb + 1 + len) (s.wrSeg p (nb + 1 + len) e)
            let s := s.wrSegD p (axnAddr p a s) (axnWith v nb (len + 1))
            (true, poolFreeRun p ((base - poolBase p s) / 8) k s)

/-- First entry word of a SYN32 list: growable lists start with their header (R103). -/
def listStart (fmt base : Nat) : Nat := if fmt = 2 ∨ fmt = 3 then base + 1 else base

/-- Unpick entry `j` of axon `a` (R122), its accumulator word moving with the entry that takes its place (R154). One whose AXN64 or
last entry cannot be read is not made (log entry 69). -/
def unpick (p a j : Nat) (s : State) : State :=
  match rdAxn p a s with
  | (none, s) => s.inc (CORE_AXN_CHKERR p) 1
  | (some v, s) =>
    let fmt := bits v 36 4
    let len := bits v 20 16
    if fmt > 3 then s.inc (CORE_ALLOC_REFUSE p) 1
    else if len = 0 then s else
    let b := listStart fmt (bits v 0 20)
    match s.segLine p (b + len - 1) with
    | (false, s) => s.inc (CORE_SYN_CHKERR p) 1
    | (true, s) =>
      let s := s.wrSeg p (b + j) (s.segW p (b + len - 1))
      let s := if j = len - 1 then accZero p (b + j) s else (accMove p (b + len - 1) (b + j) {} s).2
      (s.wrSegD p (axnAddr p a s) (axnWith v (bits v 0 20) (len - 1))).inc (LRN_UNPICK_OK p) 1

/-! The close arithmetic (R152, R153) -/

/-- lo or hi of x = num / 2^sh against the register value (R153, Rounding). -/
def roundS (stoch : Bool) (z : Nat) (num : Int) (sh : Nat) : Int :=
  if stoch then
    let lo := num / ((2 ^ sh : Nat) : Int)
    let f := ((num - lo * ((2 ^ sh : Nat) : Int)) * 65536 / ((2 ^ sh : Nat) : Int)).toNat
    if f > z then lo + 1 else lo
  else rndShift num (-(sh : Int))

/-- The finite E4M3 values times 512, of the non-negative half, ascending. -/
def e4m3Table : List Int := (List.range 127).map fun i => e4m3x512 i

/-- The E4M3 code nearest L / 256, ties to even, saturating; or the stochastic neighbour (R153 step 4). `l2` is L × 2,
the value times 512. A negative value that rounds to zero gives the code of minus zero, 0x80: the rule names only the value (log entry
71). -/
def toE4M3 (stoch : Bool) (z : Nat) (l2 : Int) : Nat :=
  let neg := decide (l2 < 0)
  let m := (l2.natAbs : Int)
  if m ≥ 448 * 512 then (if neg then 0xFE else 0x7E) else
  let i := (e4m3Table.filter fun v => decide (v ≤ m)).length - 1
  let lo := e4m3Table.getD i 0
  let hi := e4m3Table.getD (i + 1) 0
  let code (j : Nat) : Nat := if neg then j + 128 else j
  if lo = m then code i
  else if stoch then
    -- the neighbours in value order: toward minus infinity and plus infinity
    let f := (if neg then (hi - m) * 65536 / (hi - lo) else (m - lo) * 65536 / (hi - lo)).toNat
    if f > z then (if neg then code i else code (i + 1)) else (if neg then code (i + 1) else code i)
  else if 2 * m < lo + hi then code i else if 2 * m > lo + hi then code (i + 1) else if i % 2 = 0 then code i else code (i + 1)

/-- L value of an E4M3 weight (R138): value × 256, ties away. -/
def e4m3L (v : Nat) : Int := rndShift (e4m3x512 v) (-1)

/-- The result of the weight update of R153 on L value `l` by `d`: the new weight code, and whether |w'| is below the
unpick threshold (R154). `kind`: 0 S8 or B8, 1 B4, 2 E4M3. -/
def closeWeight (p : Nat) (kind : Nat) (z : Nat) (l d : Int) (s : State) : Nat × Bool :=
  let wmin := sx 24 (s.fv (LRN_WMIN p) LRN_WMIN.WMIN)
  let wmax := sx 24 (s.fv (LRN_WMAX p) LRN_WMAX.WMAX)
  let st := s.fb (LRN_CTRL p) LRN_CTRL.STOCH
  let ch :=
    if s.fb (LRN_CTRL p) LRN_CTRL.SOFT then
      let h0 := if d > 0 then wmax - l else if d < 0 then l - wmin else 0
      let h := if h0 < 0 then 0 else h0
      satS 24 (roundS st z (d * h * (s.fv (LRN_RESCALE p) LRN_RESCALE.RMUL : Nat)) (s.fv (LRN_RESCALE p) LRN_RESCALE.RSH))
    else d
  let l' := l + ch
  let l' := if l' < wmin then wmin else if l' > wmax then wmax else l'
  let thr := s.fv (LRN_PRUNE p) LRN_PRUNE.THR
  if kind = 2 then (toE4M3 st z (2 * l'), decide (l'.natAbs < thr * 256))
  else
    let w := roundS st z l' 8
    let (a, b) := if kind = 1 then ((-8 : Int), (7 : Int)) else (-128, 127)
    let w := if w < a then a else if w > b then b else w
    let cmin := -((-wmin) / 256)
    let cmax := wmax / 256
    let w := if w < cmin then cmin else if w > cmax then cmax else w
    (tc (if kind = 1 then 4 else 8) w, decide (w.natAbs < thr))

/-- One plastic weight at a close (Table 4-8 steps 3 and 4): new weight code, its mark, and the state with ACC = 0, WEAK
updated and the LFSR advanced; none when it lies outside the window or is not learned. `x` is the accumulator line read last. -/
def closeOne (p t pre : Nat) (w : Nat) (pl : WPlace) (tgt kind : Nat) (isSyn : Bool) (l : Int) (x : Tx) (s : State) :
    Option (Nat × Bool) × Tx × State :=
  match accIdx p w pl s with
  | some (some idx) =>
    let (x, s) := s.tx p (accWord p idx s) x
    let (aw, s) := s.segTx p (accWord p idx s) x.good
    let acc := sx 16 aw
    let base := if s.fb (LRN_CTRL p) LRN_CTRL.ELIG then 0 else acc
    let terms := termSum p (termCtx p t pre (stampAtOpen p t tgt s) (s.core p).rewWas l 0 acc s) true s
    let ts := satS 16 terms
    let sum := base + ts
    let d := satS 16 sum
    let s := epbSat p (decide (d ≠ sum)) (epbSat p (decide (ts ≠ terms)) s)
    let z := bits (ehdr p 3 s) 16 16
    let (nw, below) := closeWeight p kind z l d s
    let s := wrEhdr p 3 (setBits (ehdr p 3 s) 16 16 (lfsrNext z)) s
    let weak := bits aw 16 4
    let weak' := if s.fb (LRN_CTRL p) LRN_CTRL.UNPICK then
        (if isSyn && below then (if weak < 15 then weak + 1 else 15) else 0) else weak
    let s := s.wrSeg p (accWord p idx s) (setBits (setBits aw 0 16 0) 16 4 weak')
    let ep := s.fv (LRN_PRUNE p) LRN_PRUNE.EPOCHS
    (some (nw, s.fb (LRN_CTRL p) LRN_CTRL.UNPICK && isSyn && ep != 0 && weak' ≥ ep), x, s)
  | _ => (none, x, s)

/-- What a close reads beside the weights: the list line and the accumulator line read last, and the marked positions. -/
structure CloseRun where
  tl : Tx := {}
  ta : Tx := {}
  marks : List Nat := []
deriving DecidableEq, Repr

/-- The accumulator of a SYN32 entry that R537 skips: ACC to 0, WEAK kept. -/
def accSkip (p w : Nat) (s : State) : State :=
  match accIdx p w .syn s with
  | some (some i) => s.wrSeg p (accWord p i s) (setBits (s.segW p (accWord p i s)) 0 16 0)
  | _ => s

/-- Entry `j` of a SYN32 list at a close (R537). -/
def closeEntry (p t fmt base pre : Nat) (q : CloseRun × State) (j : Nat) : CloseRun × State :=
  let w := listStart fmt base + j
  let (tl, s) := q.2.tx p w q.1.tl
  let r := { q.1 with tl := tl }
  match if tl.good then s.chkW p w 16 16 else (none, s) with
  | (none, s) => (r, (accSkip p w s).inc (CORE_SYN_CHKERR p) 1)
  | (some e, s) =>
    if bit e 13 = false then (r, s)
    else if bits e 0 13 ≥ s.ncomp p then (r, (accSkip p w s).inc (CORE_SYN_RANGE p) 1)
    else
      let e4 := fmt = 1 ∨ fmt = 3
      let l := if e4 then e4m3L (bits e 24 8) else sx 8 (bits e 24 8) * 256
      match closeOne p t pre w .syn (bits e 0 13) (if e4 then 2 else 0) true l r.ta s with
      | (some (nw, mark), ta, s) => ({ r with ta := ta, marks := if mark then r.marks ++ [j] else r.marks }, s.wrSeg p w (setBits e 24 8 nw))
      | (none, ta, s) => ({ r with ta := ta }, s)

/-- The close over one SYN32 list of an axon: the positions marked, in ascending order. -/
def closeList (p t fmt base len pre : Nat) (s : State) : List Nat × State :=
  let (r, s) := (List.range len).foldl (closeEntry p t fmt base pre) ({}, s)
  (r.marks, s)

/-- Header lines of a dense block of `len` elements (R105). -/
def denseH (len : Nat) : Nat := (1 + ((len + 31) / 32 + 3) / 4 + 7) / 8
/-- Words of a dense block. -/
def denseWords (fmt len : Nat) : Nat :=
  let g := (len + 31) / 32
  8 * denseH len + (if fmt = 4 then 8 * g else 8 * ((g + 1) / 2))
/-- Word and place of element `j` of a dense block at `base`. -/
def densePlace (fmt base len j : Nat) : Nat × WPlace :=
  let a := base + 8 * denseH len
  if fmt = 4 then (a + j / 4, .byte (j % 4)) else (a + j / 8, .nib (j % 8))
/-- The raw element at a place of word `v`, and the word with a new one. -/
def placeGet (v : Nat) : WPlace → Int
  | .syn => sx 8 (bits v 24 8)
  | .byte b => sx 8 (bits v (8 * b) 8)
  | .nib n => sx 4 (bits v (4 * n) 4)
def placeSet (v x : Nat) : WPlace → Nat
  | .syn => setBits v 24 8 x
  | .byte b => setBits v (8 * b) 8 x
  | .nib n => setBits v (4 * n) 4 x

/-- A dense block's header when every line of the block was transferred and the header passes its check: a block of which any line
cannot be read is skipped whole (R91, R99, log entry 69). -/
def denseHdr (p fmt base len : Nat) (s : State) : Option Nat × State :=
  match s.segRun p base (denseWords fmt len) with
  | (true, s) => s.chkW p base 16 16
  | (false, s) => (none, s)

/-- The close over one dense block: whether it was read, and the state after it. -/
def closeDense (p t fmt base len pre : Nat) (s : State) : Bool × State :=
  match denseHdr p fmt base len s with
  | (none, s) => (false, s.inc (CORE_DHDR_CHKERR p) 1)
  | (some h, s) =>
    let t0 := bits h 0 13
    let s := if t0 + len > s.ncomp p then s.inc (CORE_SYN_RANGE p) 1 else s
    if bit h 13 = false then (true, s) else
    (true, ((List.range len).foldl (fun (q : Tx × State) j =>
      let s := q.2
      if t0 + j ≥ s.ncomp p then q else
      let (w, pl) := densePlace fmt base len j
      let l := placeGet (s.segW p w) pl * 256
      match closeOne p t pre w pl (t0 + j) (if fmt = 5 then 1 else 0) false l q.1 s with
      | (some (nw, _), x, s) => (x, s.wrSeg p w (placeSet (s.segW p w) nw pl))
      | (none, x, s) => (x, s)) ({}, s)).2)

/-- Whether the list or block of an AXN64 runs past the segment (R102). -/
def runsOver (v : Nat) : Bool :=
  let fmt := bits v 36 4
  let len := bits v 20 16
  let n := if fmt ≤ 1 then len else if fmt ≤ 3 then len + 1 else denseWords fmt len
  bits v 0 20 + n > segEnd

/-- Cycles of the list, block and accumulator lines of an axon at a close (R151): two for each list or block line and for each
accumulator line of those inside the window. A list or block skipped whole makes none (log entry 72). -/
def lineCycles (p v : Nat) (s : State) : Nat :=
  let fmt := bits v 36 4
  let len := bits v 20 16
  let b := bits v 0 20
  let first := if fmt ≤ 3 then listStart fmt b / 8 else b / 8
  let n := if fmt ≤ 3 then (listStart fmt b + len - 1) / 8 - first + 1 else denseWords fmt len / 8
  let head := if fmt ≤ 3 then 0 else denseH len
  let wb := s.fv (LRN_PLA_BASE p) LRN_PLA_BASE.BASE / 8
  let wl := s.fv (LRN_PLA_LEN p) LRN_PLA_LEN.LEN / 8
  let inWin := ((List.range (n - head)).filter fun i => decide (wb ≤ first + head + i ∧ first + head + i < wb + wl)).length
  2 * n + 2 * inWin * entOf (s.fv (LRN_CTRL p) LRN_CTRL.GRAN)

/-- What a close has done so far: unpicks or stitches made, and cycles taken. -/
structure CloseAcc where
  n : Nat := 0
  cyc : Nat := 0
deriving DecidableEq, Repr

/-- Axon `a` at a close: weights, unpicks within the limit, stale PRE (Table 4-8 steps 3–6, R537). -/
def closeAxon (p t : Nat) (q : CloseAcc × State) (a : Nat) : CloseAcc × State :=
  match rdAxn p a q.2 with
  | (none, s) => (q.1, s.inc (CORE_AXN_CHKERR p) 1)
  | (some v, s) =>
    if bit v 40 = false then (q.1, s) else
    let fmt := bits v 36 4
    let len := bits v 20 16
    let pre := bits v 48 16
    let ((marks, s), cyc) : (List Nat × State) × Nat :=
      if fmt > 5 ∨ len = 0 then (([], s), 0)
      else if runsOver v then (([], s.inc (CORE_SYN_RANGE p) 1), 0)
      else if fmt ≤ 3 then (closeList p t fmt (bits v 0 20) len pre s, lineCycles p v s)
      else
        let (read, s') := closeDense p t fmt (bits v 0 20) len pre s
        (([], s'), if read then lineCycles p v s else 0)
    let mx := s.fv (LRN_PRUNE p) LRN_PRUNE.MAX
    let take := marks.reverse.take (mx - q.1.n)
    let s := take.foldl (fun s j => unpick p a j s) s
    let (s, wr) := match ageOf t pre with
      | some g => if g ≥ 16384 then (wrPre p a 0xFFFF s, 1) else (s, 0)
      | none => (s, 0)
    (⟨q.1.n + take.length, q.1.cyc + cyc + wr⟩, s)

/-- Whether a list already holds an entry for target `c`, each entry under its check (R537). -/
def listHas (p fmt base len c : Nat) (s : State) : Bool × State :=
  let (r, _, s) := (List.range len).foldl (fun (q : Bool × Tx × State) j =>
    let w := listStart fmt base + j
    let (x, s) := q.2.2.tx p w q.2.1
    match if x.good then s.chkW p w 16 16 else (none, s) with
    | (some e, s) => (q.1 || bits e 0 13 == c, x, s)
    | (none, s) => (q.1, x, s.inc (CORE_SYN_CHKERR p) 1)) (false, {}, s)
  (r, s)

/-- Candidate `i` at a close (R155). -/
def closeCand (p : Nat) (q : Nat × Tx × State) (i : Nat) : Nat × Tx × State :=
  let (n, x, s) := q
  let (x, s) := s.tx p (candWord p i s) x
  let (w, s) := s.segTx p (candWord p i s) x.good
  let a := bits w 0 16
  let c := bits w 16 13
  if a ≥ axtLen p s ∨ c ≥ s.ncomp p ∨ n ≥ s.fv (LRN_STITCH p) LRN_STITCH.MAX then (n, x, s.inc (LRN_CAND_DROP p) 1)
  else
    match rdAxn p a s with
    | (none, s) => (n, x, stitchDrop p (CORE_AXN_CHKERR p) s)
    | (some v, s) =>
      let (has, s) := if bits v 36 4 ≤ 3 && !runsOver v then listHas p (bits v 36 4) (bits v 0 20) (bits v 20 16) c s else (false, s)
      if has then (n, x, s.inc (LRN_STITCH_DUP p) 1)
      else
        let d := c + 2 ^ 13 + s.fv (LRN_STITCH p) LRN_STITCH.KIND * 2 ^ 14
        let e := d + secEnc 16 d * 2 ^ 16 + s.fv (LRN_STITCH p) LRN_STITCH.W0 * 2 ^ 24
        match stitch p a e s with
        | (true, s) => (n + 1, x, s.inc (LRN_STITCH_OK p) 1)
        | (false, s) => (n, x, s)

/-- SEC_EXH_SRC_i.SRC is cleared where no core of the instance learns: at every 16,384th step, with the commit of its lowest LCID
(R479). -/
def exhSteps (p t : Nat) (s : State) : State :=
  match s.clInst (p / 32) with
  | some i =>
    if t % 16384 = 0 ∧ s.lcid p = s.lowLcid i
        ∧ (s.instClusters i).all (fun c => (List.range 17).all fun k => !((s.lcid (32 * c + k)).isSome && lrnEn (32 * c + k) s)) then
      s.wr (SEC_EXH_SRC i) 0
    else s
  | none => s

/-- An epoch close begins: EHDR.STATE = closing (Table 4-8 step 1). -/
def closeBegin (p : Nat) (s : State) : State := (setEhdrState p 1 s).fs (LRN_STAT p) LRN_STAT.CLOSING 1
/-- The epoch close at step `t` after its beginning (Table 4-8 steps 2–8); `extra` is the cycles that stitches and unpicks add to the
length R151 gives. -/
def closeRest (p t extra : Nat) (s : State) : State :=
  let n := axtLen p s
  let (acc, s) := (List.range n).foldl (closeAxon p t) ({}, s)
  let (_, _, s) := (List.range (bits (ehdr p 0 s) 16 16)).foldl (closeCand p) (0, {}, s)
  let s := sealEhdr p (wrEhdr p 1 0 (wrEhdr p 0 0 s))
  let s := match s.clInst (p / 32) with
    | some i => if s.lcid p = s.lowLcid i then s.wr (SEC_EXH_SRC i) 0 else s
    | none => s
  ((s.inc (LRN_CLOSES p) 1).wr (LRN_CLOSE_CYC p) (satU 32 (1 + (n + 3) / 4 + acc.cyc + 2 + extra))).fs (LRN_STAT p) LRN_STAT.CLOSING 0

/-- The stale sweep of the post-synaptic stamps at step `t`, setting DIRTY for each compartment changed (Table 4-8 step 0). -/
def staleSweep (p t : Nat) (s : State) : State :=
  (List.range (s.ncomp p)).foldl (fun s c =>
    if s.faulted p then s else
    match ageOf t (rdStamp p c s) with
    | some g => if g ≥ 16384 then (newStamp p c 0xFFFF s).wrBit p oDIRTY c true else s
    | none => s) s

/-- An epoch close is due at step `t` (R149). -/
def closeDue (p t : Nat) (s : State) : Bool :=
  lrnOn p s && (let e := s.fv (LRN_EPOCH p) LRN_EPOCH.LEN; e != 0 && t % e == e - 1)

/-- The learning check of R133: the first failing cause, 0 when it passes. -/
def lrnCheck (p : Nat) (s : State) : Nat :=
  let gran := s.fv (LRN_CTRL p) LRN_CTRL.GRAN
  let b := s.fv (LRN_PLA_BASE p) LRN_PLA_BASE.BASE
  let l := s.fv (LRN_PLA_LEN p) LRN_PLA_LEN.LEN
  let cap := s.fv (LRN_CAND_CAP p) LRN_CAND_CAP.CAP
  let pb := poolBase p s
  let pl := s.fv (CORE_POOL_LEN p) CORE_POOL_LEN.LEN
  let hb := s.fv (LRN_HOLD p) LRN_HOLD.BASE
  let hl := s.fv (LRN_HOLD p) LRN_HOLD.LEN
  let ep := s.fv (LRN_EPOCH p) LRN_EPOCH.LEN
  let badTerm (w : Nat) : Bool := bit w 28 &&
    (bits w 16 4 > 9 || bits w 20 4 > 9 || bits w 24 3 == 7 ||
     (bit w 27 && (bits w 16 4 == 5 || bits w 20 4 == 5)) || (!bit w 27 && (bits w 16 4 == 9 || bits w 20 4 == 9)))
  if gran = 3 then 9
  else if b % 8 ≠ 0 ∨ l % 8 ≠ 0 ∨ b + l > segEnd then 1
  else if s.fv (CORE_EPB_LEN p) CORE_EPB_LEN.LEN < 16 + l * entOf gran + cap then 2
  else if cap % 8 ≠ 0 then 10
  else if pl ≠ 0 ∧ ¬ (b ≤ pb ∧ pb + pl ≤ b + l) then 3
  else if hb % 8 ≠ 0 ∨ hb < 0xB000 + s.ncomp p * 14 ∨ hb + 8 * hl > 0x28000 ∨ hl < 64 then 4
  else if ep < 1 ∨ ep > 16384 then 5
  else if (termWords p s).any badTerm then 6
  else if sx 24 (s.fv (LRN_WMIN p) LRN_WMIN.WMIN) > sx 24 (s.fv (LRN_WMAX p) LRN_WMAX.WMAX) then 8
  else if (List.range 4).any (fun n => bits (s.rd (LRN_TSEL p)) (16 + 4 * n) 4 > 10) ∨ s.fv (LRN_RESCALE p) LRN_RESCALE.RSH > 47 then 7
  else 0

/-- R129 at the release: every stamp below NCOMP and every PRE of a plastic axon to never. -/
def stampReset (p : Nat) (s : State) : State :=
  let s := (List.range (s.ncomp p)).foldl (fun s c => wrStamp p c 0xFFFF s) s
  (List.range (axtLen p s)).foldl (fun s a =>
    match rdAxn p a s with
    | (some v, s) => if bit v 40 then wrPre p a 0xFFFF s else s
    | (none, s) => s.inc (CORE_AXN_CHKERR p) 1) s

/-- The rows of Table 4-9 for a core that leaves the halted state or a spare that adopts a segment, EN = 1 (R147, R156). Two choices
of the model: a CRC failure counts in LRN_EHDR_ERR at both events, and the reserved STATE 0x3 is cleared like void (log entry 73). -/
def learnAdopt (p : Nat) (s : State) : State :=
  let (read, s) := s.segRun p (epb p s) 16
  let good := read ∧ ehdrCrc p s = ehdr p 6 s
  let s := if good then s else s.inc (LRN_EHDR_ERR p) 1
  if good ∧ ehdrState p s = 0 then s else learnClear p s

/-- An early close "at the last committed step" (R157), when one was committed since the core last left the halted state and
learning is not stopped (R139). Step 0 of Table 4-8 sweeps the stamps and sets DIRTY; no basting follows it (log entry 73). -/
def earlyClose (p : Nat) (s : State) : State :=
  match (s.core p).lastCommit with
  | some t => if lrnOn p s then closeRest p t 0 (closeBegin p (staleSweep p t s)) else s
  | none => s

end Sys2Proof.Machine
end

