-- ==== Sys2Proof/Machine/Neuron.lean ====
section
/-! DEFINITION. Neuron programs (R69–R73): the register file of one compartment, one instruction, one program, and the
static program check of R74. -/
namespace Sys2Proof.Machine

/-- The state of a program run: registers V, U, I, T0–T3, M, P0–P7 (Table 2-10), F, RC, the GATE bit, the request of the
last SPIKE (`none` payload) or GRADE executed, the END keep mode's answer, and saturations counted. -/
structure NRun where
  r : List Int
  f : Bool
  rc : Nat
  gate : Bool
  spike : Option (Option Int) := none
  keep : Bool := false
  sat : Nat := 0
deriving DecidableEq, Repr

def NRun.get (n : NRun) (i : Nat) : Int := n.r.getD i 0
/-- Write register `d` with saturation to M24, each saturation counted (R71). -/
def NRun.put (n : NRun) (d : Nat) (v : Int) : NRun :=
  let x := satS 24 v
  { n with r := n.r.set d x, sat := n.sat + b2n (decide (x ≠ v)) }

/-- One instruction word (Table 2-9, Table 2-11). An instruction whose PRED is false does nothing. -/
def nInstr (n : NRun) (w : Nat) : NRun :=
  let pred := bits w 24 2
  if (pred = 1 ∧ n.f = false) ∨ (pred = 2 ∧ n.f = true) then n else
  let d := bits w 20 4
  let a := n.get (bits w 16 4)
  let bN := bits w 12 4
  let b := n.get bN
  let imm := sx 12 (bits w 0 12)
  let k := bits w 0 5
  match bits w 26 6 with
  | 0x01 => n.put d (a + b)
  | 0x02 => n.put d (a - b)
  | 0x03 => n.put d (rndDiv (a * b) 4096)
  | 0x04 => n.put d (trunc0 (a * (4096 - b)) 4096)
  | 0x05 => n.put d (a + imm)
  | 0x06 => n.put d (imm * ((2 ^ bN : Nat) : Int))
  | 0x07 => n.put d (rndShift a (-(k : Int)))
  | 0x08 => n.put d (a * ((2 ^ k : Nat) : Int))
  | 0x09 => n.put d (if a ≥ b then a else b)
  | 0x0A => n.put d (if a ≤ b then a else b)
  | 0x0B => n.put d a
  | 0x0C => n.put d (a.natAbs : Int)
  | 0x0D => n.put d (-a)
  | 0x0E => n.put d (if n.f then a else b)
  | 0x10 => { n with f := decide (a ≥ b) }
  | 0x11 => { n with f := decide (a < b) }
  | 0x12 => { n with f := decide (a = b) }
  | 0x13 => { n with f := n.gate }
  | 0x14 => { n with f := decide (n.rc ≠ 0) }
  | 0x18 => { n with rc := bits w 0 4 }
  | 0x19 => { n with rc := n.rc - 1 }
  | 0x1C => { n with spike := some none }
  | 0x1D =>
    let v := rndShift a (sx 5 k)
    let g := satS 16 v
    { n with spike := some (some g), sat := n.sat + b2n (decide (g ≠ v)) }
  | 0x1F =>
    { n with keep := match bits w 0 2 with
        | 0 => false
        | 1 => true
        | 2 => n.f
        | _ => decide (n.get 0 ≠ 0 ∨ n.get 1 ≠ 0 ∨ n.rc ≠ 0) }
  | _ => n

/-- A program: its words once each, in order (R72). -/
def nProgram (n : NRun) (ws : List Nat) : NRun := ws.foldl nInstr n

/-- Whether an opcode writes D. -/
def opWritesD (op : Nat) : Bool := decide (1 ≤ op ∧ op ≤ 0x0E)

/-- Whether a program word breaks no rule of R74 for its place (`last` when it ends the program). -/
def nWordOk (w : Nat) (last : Bool) : Bool :=
  let op := bits w 26 6
  let d := bits w 20 4
  let legal := op ≤ 0x0E || (0x10 ≤ op && op ≤ 0x14) || op == 0x18 || op == 0x19 || op == 0x1C || op == 0x1D || op == 0x1F
  legal && bits w 24 2 != 3 && !(opWritesD op && d ≥ 7) && (last == (op == 0x1F))
    && !((op == 7 || op == 8) && (bits w 5 7 != 0 || bits w 0 5 > 23))
    && !(op == 0x18 && bits w 4 8 != 0) && !(op == 0x1D && bits w 5 7 != 0) && !(op == 0x1F && bits w 2 10 != 0)

end Sys2Proof.Machine
end

