-- ==== Sys2Proof/Machine/Walk.lean ====
section
/-! DEFINITION. The pending area and delay ring (R55–R59), the synapse pipeline's walk (R60–R65, R100–R107) and the
update unit's visits (R66–R68, R180). -/
namespace Sys2Proof.Machine

def cur (p : Nat) (s : State) : Nat := s.fv (CORE_STEP p) CORE_STEP.CUR
/-- Work arrives at an idle core that is not halted: it enters Run (R83). -/
def wakeCore (p : Nat) (s : State) : State :=
  if coreState p s = stIdle ∧ halted p s = false then s.fs (CORE_STATE p) CORE_STATE.STATE stRun else s

/-! The delay ring -/

def ringSlot (p k : Nat) (s : State) : RingSlot := sget (fun _ => {}) k (s.core p).ring
def setRing (p k : Nat) (r : RingSlot) (s : State) : State :=
  s.setCore p { s.core p with ring := sset (fun _ => {}) k r (s.core p).ring }
/-- Entries held in all slots; CORE_PEND.OCC and its high-water mark follow it. -/
def pendOcc (p : Nat) (s : State) : Nat := (List.range 16).foldl (fun a k => a + (ringSlot p k s).n) 0
def setOcc (p : Nat) (s : State) : State :=
  let o := pendOcc p s
  let s := s.fs (CORE_PEND p) CORE_PEND.OCC o
  if o > s.fv (CORE_PEND p) CORE_PEND.HWM then s.fs (CORE_PEND p) CORE_PEND.HWM o else s
/-- The lowest-numbered free block of the pool (R58). -/
def freeBlock (p : Nat) (s : State) : Option Nat :=
  (List.range 128).find? fun b => (List.range 16).all fun k => !(ringSlot p k s).blocks.contains b
/-- Core SRAM offset of entry `j` of a slot's chain. -/
def pendAt (r : RingSlot) (j : Nat) : Nat :=
  0x3000 + 256 * (r.blocks.getD ((r.first + j) / 16) 0) + 16 * ((r.first + j) % 16)
/-- Write a pending entry. -/
def wrPend (p o w0 w1 : Nat) (s : State) : State :=
  (((s.wrSram p o (w0 % 2 ^ 32)).wrSram p (o + 4) (w0 / 2 ^ 32)).wrSram p (o + 8) (w1 % 2 ^ 32)).wrSram p (o + 12) (w1 / 2 ^ 32)
/-- Read a pending entry with its checks (R49). -/
def rdPend (p o : Nat) (s : State) : (Nat × Nat) × State :=
  let (a, s) := s.rdSram p o
  let (b, s) := s.rdSram p (o + 4)
  let (c, s) := s.rdSram p (o + 8)
  let (d, s) := s.rdSram p (o + 12)
  ((a + 2 ^ 32 * b, c + 2 ^ 32 * d), s)

/-- Append an entry to slot `k`; none when it needs a block and the pool is empty (R58). `later`: it is for 16 steps after the step
that the slot is walked for now. -/
def ringPut (p k : Nat) (later : Bool) (w0 w1 : Nat) (s : State) : Option State :=
  let r := ringSlot p k s
  let put := fun (r : RingSlot) => setOcc p (setRing p k { r with n := r.n + 1, later := r.later + b2n later } (wrPend p (pendAt r r.n) w0 w1 s))
  if r.first + r.n < 16 * r.blocks.length then some (put r)
  else (freeBlock p s).map fun b => put { r with blocks := r.blocks ++ [b] }

/-- The step of slot `k` commits: the entries walked in it and their blocks return to the pool; those filed since its open stay (R58). -/
def ringRelease (p k : Nat) (s : State) : State :=
  let r := ringSlot p k s
  let o := r.first + (r.n - r.later)
  setOcc p (setRing p k (if r.later = 0 then {} else ⟨r.blocks.drop (o / 16), r.later, o % 16, 0⟩) s)

/-- Keep only the entries of slot `k` for which `keep` holds, closing them up in filing order from the first block and
returning empty blocks (R59). The number discarded. An entry that cannot be read stops the core, which then discards none (R49). -/
def ringFilter (p k : Nat) (keep : Nat × Nat → Bool) (s : State) : Nat × State :=
  if s.faulted p then (0, s) else
  let r := ringSlot p k s
  let (es, s) := (List.range r.n).foldl (fun (q : List (Nat × Nat) × State) j =>
    let (e, s) := rdPend p (pendAt r j) q.2
    (q.1 ++ [e], s)) ([], s)
  if s.faulted p then (0, s) else
  let ks := es.filter keep
  if ks.length = es.length then (0, s) else
  let r' : RingSlot := ⟨r.blocks.take ((ks.length + 15) / 16), ks.length, 0, ((es.drop (r.n - r.later)).filter keep).length⟩
  let s := setRing p k r' s
  let s := (List.range ks.length).foldl (fun s j => let e := ks.getD j (0, 0); wrPend p (pendAt { r with first := 0 } j) e.1 e.2 s) s
  let c := s.core p
  (es.length - ks.length, setOcc p (s.setCore p { c with closing := if c.closing.contains k then c.closing else c.closing ++ [k] }))

/-! The cluster input journal (R441, R443) -/

/-- The record of an event filed in core `p` for step `target` is appended, or counted when the journal is full. -/
def journalAdd (p target axon payload : Nat) (g rem : Bool) (srank scl sstep5 astep5 : Nat) (s : State) : State :=
  let c := p / 32
  if s.fb (CLA_FO_CTRL c) CLA_FO_CTRL.EN = false then s else
  let x := s.cluster c
  if x.journal.length < 16384 then
    let r : JRec := { axon := axon, payload := payload, g := g, rem := rem, srank := srank, scl := scl,
                      dpos := ((s.lcid p).getD 0) % 16, sstep5 := sstep5, astep5 := astep5, tstep5 := target % 32, void := false }
    let s := s.setCluster c { x with journal := x.journal ++ [r] }
    let n := x.journal.length + 1
    let s := s.fs (CLA_JRN_OCC c) CLA_JRN_OCC.OCC n
    if n > s.fv (CLA_JRN_OCC c) CLA_JRN_OCC.HWM then s.fs (CLA_JRN_OCC c) CLA_JRN_OCC.HWM n else s
  else
    let s := s.inc (CLA_JRN_OVF c) 1
    let e := if target > x.expStep then target else x.expStep
    let s := (s.setCluster c { x with expStep := e }).fs (CLA_FO_STAT c) CLA_FO_STAT.EXP_STEP (e % 65536)
    if s.fv (CLA_FO_STAT c) CLA_FO_STAT.STATE = 0 then
      (s.fs (CLA_FO_STAT c) CLA_FO_STAT.STATE 1).fs RAS_STAT RAS_STAT.EXPOSED 1
    else s

/-! Counting events against the instance (R194) -/

/-- Injected minus delivered at endpoint `e` changes by `d`: among the remote events or not (R194, R229). -/
def diffAdd (e i : Nat) (rem : Bool) (d : Int) (s : State) : State :=
  let x := s.inst i
  s.setInst i (if rem then { x with rdiffs := sset (fun _ => 0) e (sget (fun _ => 0) e x.rdiffs + d) x.rdiffs }
    else { x with diffs := sset (fun _ => 0) e (sget (fun _ => 0) e x.diffs + d) x.diffs })
/-- An event counts as delivered at endpoint `e`: among the remote ones when it came from another device. -/
def countDelivered (e i : Nat) (rem : Bool) (rank : Nat) (s : State) : State :=
  let far := rem && !(s.fv (JLK_OWNRANK i) JLK_OWNRANK.RANK == rank)
  let x := s.inst i
  diffAdd e i far (-1) (s.setInst i (if far then { x with remDel := x.remDel + 1 } else { x with delivered := x.delivered + 1 }))
/-- An event counts as injected at endpoint `e`. -/
def countInjected (e i : Nat) (s : State) : State :=
  let x := s.inst i
  diffAdd e i false 1 (s.setInst i { x with injected := x.injected + 1 })
/-- A spike or graded-spike event: only these are counted (R194). -/
def evCounts (ev : Nat) : Bool := decide (bits ev 60 4 ≤ 1)
/-- The discard at endpoint `e` of event word `ev` of instance `i` counts as a delivery. -/
def countGone (e ev i : Nat) (rem : Bool) (rank : Nat) (s : State) : State := if evCounts ev then countDelivered e i rem rank s else s
/-- The same of an event as it arrives. -/
def evGone (e : Nat) (v : EvtIn) (s : State) : State := countGone e v.ev.toNat v.inst.toNat v.rem v.rank.toNat s

/-- Filing of a checked spike or graded-spike event `e` (R55, R56, R101): the state after it, or none while it must wait
for a block, a slot being closed up or a stopped core. -/
def pendFile (p : Nat) (e : EvtIn) (ev : Nat) (s : State) : Option State :=
  let inst := e.inst.toNat
  let del := fun s => countDelivered (0x40 + p / 32) inst e.rem e.rank.toNat s
  let axon := bits ev 32 16
  if s.faulted p then none
  else if axon ≥ axtLen p s then some (del (s.inc (CORE_EVT_BAD p) 1))
  else
    match rdAxn p axon s with
    | (none, s) => some (del (s.inc (CORE_AXN_CHKERR p) 1))
    | (some v, s) =>
      if bits v 36 4 > 5 then some (del (s.inc (CORE_EVT_BAD p) 1))
      else if bits v 20 16 = 0 then some (del (s.inc (CORE_AXN_NULL p) 1))
      else
        let c := cur p s
        let ss := e.sstep5.toNat
        let d := (ss + 1 + bits ev 28 4 + 32 - c % 32) % 32
        let late := d = 0 ∨ d > 16
        if late ∧ s.fb (CORE_CTRL p) CORE_CTRL.LATE then some (del (s.inc (CORE_LATE p) 1))
        else
          let target := if late then c + 1 else c + d
          if (s.core p).closing.contains (target % 16) then none else
          let g := bits ev 60 4 = 1
          let srank := if e.rem then e.rank.toNat else 0
          let w0 := axon + bits ev 0 22 * 2 ^ 16 + b2n g * 2 ^ 38 + b2n e.rem * 2 ^ 39 + srank * 2 ^ 40 + e.scl.toNat * 2 ^ 52
          let w1 := bits v 0 41 + (s.rd (LRN_EPNUM p) % 32) * 2 ^ 41 + ss * 2 ^ 46 + (c % 32) * 2 ^ 51
          match ringPut p (target % 16) (decide (target = c + 16) && (s.core p).phase != .idle) w0 w1 s with
          | none => none
          | some s =>
            let s := if late then s.inc (CORE_LATE p) 1 else s
            some (del (journalAdd p target axon (bits ev 0 22) g e.rem srank e.scl.toNat ss (c % 32) (s.inc64 (CORE_EVT_IN p) 1)))

/-! The synapse pipeline -/

/-- One synapse the pipeline is about to apply. -/
structure Syn where
  w : Nat
  pl : WPlace
  tgt : Nat
  kind : Nat
  plast : Bool
  wt : Int
  lval : Int
  grp : Nat
deriving DecidableEq, Repr

/-- Weight value w of R62 step 1 for an integer element with exponent `x`. -/
def wInt (p : Nat) (v : Int) (x : Int) (s : State) : Int :=
  satS 32 (rndShift v ((s.fv (CORE_WSCALE p) CORE_WSCALE.WSH : Nat) + x))

/-- One entry of a SYN32 list, its line transferred or not (R61, R91): none when it is skipped. -/
def walkSyn (p fmt w : Nat) (good : Bool) (s : State) : Option Syn × State :=
  match if good then s.chkW p w 16 16 else (none, s) with
  | (none, s) => (none, s.inc (CORE_SYN_CHKERR p) 1)
  | (some e, s) =>
    let t := bits e 0 13
    if t ≥ s.ncomp p then (none, s.inc (CORE_SYN_RANGE p) 1) else
    let b := bits e 24 8
    let e4 := fmt = 1 ∨ fmt = 3
    (some { w := w, pl := .syn, tgt := t, kind := bits e 14 2, plast := bit e 13,
            wt := if e4 then e4m3x512 b * 8 else wInt p (sx 8 b) 0 s,
            lval := if e4 then e4m3L b else sx 8 b * 256, grp := w / 8 }, s)

/-- The entries of a SYN32 list that line `l` holds: one group (R60, R65). -/
def listGroup (p fmt base len l : Nat) (s : State) : List Syn × State :=
  let a := listStart fmt base
  let (good, s) := s.segLine p (8 * l)
  (List.range 8).foldl (fun (q : List Syn × State) i =>
    let w := 8 * l + i
    if w < a ∨ a + len ≤ w then q else
    match walkSyn p fmt w good q.2 with
    | (some y, s) => (q.1 ++ [y], s)
    | (none, s) => (q.1, s)) ([], s)

/-- Elements 8 × `g` to 8 × `g` + 7 of a dense block whose header is `h` (R105, R106). -/
def denseGroup (p fmt base len h g : Nat) (s : State) : List Syn :=
  (List.range 8).filterMap fun i =>
    let j := 8 * g + i
    if j < len ∧ bits h 0 13 + j < s.ncomp p then
      let (w, pl) := densePlace fmt base len j
      let v := placeGet (s.segW p w) pl
      let x := sx 8 (bits (s.segW p (base + 1 + j / 128)) (8 * (j / 32 % 4)) 8)
      some { w := w, pl := pl, tgt := bits h 0 13 + j, kind := bits h 14 2, plast := bit h 13, wt := wInt p v x s,
             lval := v * 256, grp := g : Syn }
    else none

/-- Extra cycles of one group: synapses beyond the first in each accumulator bank (R65). A dense group has none (R107). -/
def bankExtra (l : List Syn) : Nat :=
  (List.range 8).foldl (fun a b => a + ((l.filter fun y => y.tgt % 8 == b).length - 1)) 0
/-- The input accumulator word of compartment `c` (R52). -/
def inAddr (p c : Nat) (s : State) : Nat := 0xB000 + 8 * s.ncomp p + 4 * c

/-- Apply a contribution (R63). -/
def applySyn (p : Nat) (y : Syn) (c : Int) (s : State) : State :=
  let a := inAddr p y.tgt s
  let w := s.sramW p a
  let s := s.inc64 (CORE_SYN_OPS p) 1
  let s := match y.kind with
    | 2 =>
      let m := rndDiv c 4096
      let v := sx 8 (bits w 24 8) + m
      let v' := satS 8 v
      let k := s.core p
      let s := s.setCore p { k with modSum := k.modSum + m }
      let s := s.wrSram p a (setBits w 24 8 (tc 8 v'))
      if v = v' then s else s.inc (CORE_ACC_SAT p) 1
    | 3 => if c ≠ 0 then s.wrBit p oGATE y.tgt true else s
    | k =>
      let v := sx 24 w + (if k = 0 then c else -c)
      let v' := satS 24 v
      let s := s.wrSram p a (setBits w 0 24 (tc 24 v'))
      if v = v' then s else s.inc (CORE_ACC_SAT p) 1
  s.wrBit p oACT y.tgt true

/-- What the walk of a slot entry carries to each of its synapses: the step, G, g, and PRE when the engine learns from it. -/
structure WalkCtx where
  t : Nat
  g : Bool
  gv : Int
  pre : Option Nat
deriving DecidableEq, Repr

/-- Apply one synapse and hand a plastic one to the engine (R62, R63, R140); nothing once the core has stopped (R49). -/
def walkOne (p : Nat) (x : WalkCtx) (s : State) (y : Syn) : State :=
  if s.faulted p then s else
  let s := applySyn p y (if x.g then rndDiv (y.wt * x.gv) 32768 else y.wt) s
  match x.pre with
  | some pre => if y.plast && lrnOn p s then learnWalk p x.t pre y.w y.pl y.tgt y.lval (if x.g then x.gv else 0) s else s
  | none => s
/-- The engine takes a second cycle for a group: five to eight terms run at the walk, and the group holds a weight to evaluate (R140). -/
def slowGroup (p : Nat) (ys : List Syn) (s : State) : Bool :=
  decide (((termWords p s).filter fun w => bit w 28 && !bit w 27).length > 4)
    && ys.any fun y => y.plast && (match accIdx p y.w y.pl s with
      | some (some _) => true
      | _ => false)
/-- One group of synapses: its bank conflicts, the pipeline's wait for the engine, its synapses. A second engine cycle that bank conflicts
cover is no waiting (log entry 71). -/
def walkGroup (p : Nat) (x : WalkCtx) (ys : List Syn) (s : State) : State :=
  let b := bankExtra ys
  let s := s.inc (CORE_BANK_STALL p) b
  let s := if x.pre.isSome && lrnOn p s && b == 0 && slowGroup p ys s then s.inc (LRN_STALL p) 1 else s
  ys.foldl (walkOne p x) s

/-- The list or block of AXN64 bits [40:0] `v`, group by group in order (R60, R64, R106); `h` is the header of a dense block. -/
def walkGroups (p : Nat) (x : WalkCtx) (v h : Nat) (s : State) : State :=
  let fmt := bits v 36 4
  let base := bits v 0 20
  let len := bits v 20 16
  if fmt ≤ 3 then
    let a := listStart fmt base
    (List.range ((a + len + 7) / 8 - a / 8)).foldl (fun s i =>
      if s.faulted p then s else
      let (ys, s) := listGroup p fmt base len (a / 8 + i) s
      walkGroup p x ys s) s
  else
    let s := if bits h 0 13 + len > s.ncomp p then s.inc (CORE_SYN_RANGE p) 1 else s
    (List.range ((len + 7) / 8)).foldl (fun s i => if s.faulted p then s else walkGroup p x (denseGroup p fmt base len h i s) s) s

/-- The AXN64 bits a pending entry of words `w0`, `w1` is walked under: its copy, or the entry read again (R60 step 1). -/
def entryAxn (p w0 w1 : Nat) (s : State) : Option Nat × State :=
  let axon := bits w0 0 16
  let rf := bit w1 56
  if rf ∨ bits w1 41 5 ≠ s.rd (LRN_EPNUM p) % 32 then
    if rf ∧ axon ≥ axtLen p s then (none, s.inc (CORE_EVT_BAD p) 1) else
    match rdAxn p axon s with
    | (none, s) => (none, s.inc (CORE_AXN_CHKERR p) 1)
    | (some v, s) =>
      if rf ∧ bits v 36 4 > 5 then (none, s.inc (CORE_EVT_BAD p) 1)
      else if rf ∧ bits v 20 16 = 0 then (none, s.inc (CORE_AXN_NULL p) 1)
      else (some (bits v 0 41), s)
  else (some (bits w1 0 41), s)

/-- PRE of a walked slot entry: the AXN64 line is read once more (R140); none when learning is off or the entry is not plastic, and
`none` of the outer option when that transfer fails, which R91 makes a failed check of the AXN64. -/
def entryPre (p axon : Nat) (plastic : Bool) (s : State) : Option (Option Nat) × State :=
  let s := if plastic && lrnOn p s then lrnParity p s else s
  if plastic && lrnOn p s then
    match s.segLine p (axnAddr p axon s) with
    | (true, s) => (some (some (rdPre p axon s)), s)
    | (false, s) => (none, s)
  else (some none, s)

/-- Walk one pending entry of the slot of step `t` (R60). The records it makes enter the hold area in this order: those of its synapses,
the PRE record, the candidate (log entry 71). -/
def walkEntry (p t : Nat) (o : Nat) (s : State) : State :=
  if s.faulted p then s else
  let ((w0, w1), s) := rdPend p o s
  if s.faulted p then s else
  match entryAxn p w0 w1 s with
  | (none, s) => s
  | (some v, s) =>
    let fmt := bits v 36 4
    let axon := bits w0 0 16
    if fmt > 5 then s
    else if runsOver v then s.inc (CORE_SYN_RANGE p) 1 else
    let (h, s) : Option Nat × State := if fmt ≤ 3 then (some 0, s) else denseHdr p fmt (bits v 0 20) (bits v 20 16) s
    match h with
    | none => s.inc (CORE_DHDR_CHKERR p) 1
    | some h =>
      match entryPre p axon (bit v 40) s with
      | (none, s) => s.inc (CORE_AXN_CHKERR p) 1
      | (some pre, s) =>
        let s := walkGroups p ⟨t, bit w0 38, sx 16 (bits w0 16 16), pre⟩ v h s
        if s.faulted p then s
        else if pre.isSome && lrnOn p s then learnEntry p t axon fmt s else s

/-- Copy NXT, the whole bitmap of 1 KiB, into ACT and clear NXT (R66). -/
def openBitmaps (p : Nat) (s : State) : State :=
  (List.range 256).foldl (fun s i =>
    if s.faulted p then s else
    let (w, s) := s.rdSram p (oNXT + 4 * i)
    if s.faulted p then s else (s.wrSram p (oACT + 4 * i) w).wrSram p (oNXT + 4 * i) 0) s

/-- The walk of the slot of step `t` in filing order (R60, R64): every entry but those filed since the open for step `t` + 16. -/
def walkSlot (p t : Nat) (s : State) : State :=
  let r := ringSlot p (t % 16) s
  (List.range (r.n - r.later)).foldl (fun s j => walkEntry p t (pendAt r j) s) s

/-! The neuron update unit -/

/-- Put a staging entry: into the 512 entries, or behind them while the update unit stalls (R75). -/
def stage (p v : Nat) (s : State) : State :=
  let c := s.core p
  let s := s.inc64 (CORE_SPK_OUT p) 1
  if c.stgN < 512 ∧ c.stgWait = [] then
    (s.wrSram p (0x2800 + 4 * ((c.stgHead + c.stgN) % 512)) v).setCore p { c with stgN := c.stgN + 1 }
  else s.setCore p { c with stgWait := c.stgWait ++ [v] }

/-- The words of a directory entry's program; none when empty (R69). -/
def progWords (p k : Nat) (s : State) : List Nat × State :=
  let (d, s) := s.rdSram p (4 * k)
  if bits d 0 15 = 0 ∨ s.faulted p then ([], s) else
  (List.range (bits d 9 6 + 1)).foldl (fun (q : List Nat × State) i =>
    let (w, s) := q.2.rdSram p (4 * ((bits d 0 9 + i) % 512))
    (q.1 ++ [w], s)) ([], s)

/-- The capture byte of compartment `c` (R180). -/
def capture (p c : Nat) (v : Int) (s : State) : State :=
  let f := s.fv (MAC_SVEC_RANGE p) MAC_SVEC_RANGE.FIRST
  let l := s.fv (MAC_SVEC_RANGE p) MAC_SVEC_RANGE.LEN
  if s.fb (MAC_CTRL p) MAC_CTRL.SVEC_EN && f ≤ c && c < f + l then
    let o := s.fv (MAC_SVEC p) MAC_SVEC.BASE + (c - f)
    s.wrSram p (o / 4 * 4) (setBits (s.sramW p (o / 4 * 4)) (8 * (o % 4)) 8 (tc 8 v))
  else s

/-- The visit of compartment `c` in step `t` (R68). -/
def visit (p t c : Nat) (s : State) : State :=
  if s.faulted p then s else
  let (act, s) := s.rdBit p oACT c
  if s.faulted p || !act then s else
  let o := 0xB000 + 8 * c
  let (w0, s) := s.rdSram p o
  let (w1, s) := s.rdSram p (o + 4)
  let (gate, s) := s.rdBit p oGATE c
  if s.faulted p then s else
  let clear := fun (s : State) => (s.wrSram p (inAddr p c s) 0).wrBit p oGATE c false
  if bit w1 31 = false then capture p c 0 (clear s) else
  let inw := s.sramW p (inAddr p c s)
  let (ps, s) := (List.range 8).foldl (fun (q : List Int × State) k =>
    let (w, s) := q.2.rdSram p (0x800 + 32 * bits w1 24 7 + 4 * k)
    (q.1 ++ [sx 24 w], s)) ([], s)
  let (ws, s) := progWords p (bits w0 28 4) s
  if s.faulted p then s else
  let n : NRun := { r := [sx 24 w0, sx 24 w1, sx 24 inw, 0, 0, 0, 0, sx 8 (bits inw 24 8) * 4096] ++ ps, f := false,
                    rc := bits w0 24 4, gate := gate }
  let n := nProgram n ws
  let s := s.inc (CORE_ALU_SAT p) n.sat
  let w0' := setBits (setBits w0 0 24 (tc 24 (n.get 0))) 24 4 n.rc
  let w1' := setBits w1 0 24 (tc 24 (n.get 1))
  let st := rdStamp p c s
  let st' := if n.spike.isSome then stampOf t else st
  let s := (s.wrSram p o w0').wrSram p (o + 4) w1'
  let s := if st' = st then s else newStamp p c st' s
  let s := if w0' ≠ w0 ∨ w1' ≠ w1 ∨ st' ≠ st then s.wrBit p oDIRTY c true else s
  let s := clear s
  let s := s.wrBit p oNXT c n.keep
  match n.spike with
  | none => capture p c 0 s
  | some g =>
    let k := s.core p
    let s := s.setCore p { k with spiked := k.spiked ++ [c] }
    let s := stage p (match g with
      | none => c
      | some v => c + 2 ^ 13 + tc 16 v * 2 ^ 16) s
    capture p c (match g with
      | none => 1
      | some v => satS 8 (rndDiv v (2 ^ s.fv (MAC_CTRL p) MAC_CTRL.SVSH))) s

/-- Every active compartment below NCOMP in ascending order (R67). -/
def updateAll (p t : Nat) (s : State) : State := (List.range (s.ncomp p)).foldl (fun s c => visit p t c s) s

/-- The capture vector is cleared at the open of each step (R180). -/
def clearCapture (p : Nat) (s : State) : State :=
  if s.fb (MAC_CTRL p) MAC_CTRL.SVEC_EN then
    s.clrSram p (s.fv (MAC_SVEC p) MAC_SVEC.BASE) (s.fv (MAC_SVEC_RANGE p) MAC_SVEC_RANGE.LEN)
  else s

end Sys2Proof.Machine
end

