-- ==== Sys2Proof/Machine/Mac.lean ====
section
/-! DEFINITION. The MAC array of a core (R167–R186): descriptors, their admission, accumulation, rescale and outputs. -/
namespace Sys2Proof.Machine

/-! The dense descriptor body (Table 5-8) -/

def dw (d : List Nat) (i : Nat) : Nat := d.getD i 0
def dOP (d : List Nat) : Nat := bits (dw d 0) 0 4
def dAF (d : List Nat) : Nat := bits (dw d 0) 4 4
def dBF (d : List Nat) : Nat := bits (dw d 0) 8 4
def dOF (d : List Nat) : Nat := bits (dw d 0) 12 4
def dOUT (d : List Nat) : Nat := bits (dw d 0) 16 2
def dM (d : List Nat) : Nat := bits (dw d 1) 0 11
def dN (d : List Nat) : Nat := bits (dw d 1) 11 11
def dK (d : List Nat) : Nat := bits (dw d 2) 0 16
def dAEXP (d : List Nat) : Int := sx 8 (bits (dw d 2) 16 8)
/-- Address, space and stride of operand `i` (0 = A, 1 = B, 2 = D, 3 = bias). -/
def dAddr (d : List Nat) (i : Nat) : Nat := dw d (3 + 2 * i)
def dSp (d : List Nat) (i : Nat) : Nat := bits (dw d (4 + 2 * i)) 0 4
def dStr (d : List Nat) (i : Nat) : Nat := bits (dw d (4 + 2 * i)) 8 24
/-- The tensor output is written. -/
def dTensor (d : List Nat) : Bool := dOUT d == 0 || dOUT d == 3
/-- The descriptor produces outputs (MM, MM_CONT). -/
def dOuts (d : List Nat) : Bool := dOP d == 1 || dOP d == 2

/-- The group of an operand pair (Table 5-6): float accumulator, sub-block columns, K per cycle. -/
def macGroup (a b : FmtCode) : Option (Bool × Nat × Nat) :=
  let i8 := fun f => f == 1 || f == 2 || f == 11
  let i4 := fun f => f == 0 || f == 12
  let f8 := fun f => f == 5 || f == 6
  if i8 a && i8 b then some (false, 4, 4)
  else if i4 a && i4 b then some (false, 4, 8)
  else if f8 a && f8 b then some (true, 4, 4)
  else if a = 3 ∧ b = 3 then some (false, 4, 1)
  else if (a = 7 ∧ b = 7) ∨ (a = 8 ∧ b = 8) then some (true, 4, 2)
  else if a = 9 ∧ b = 9 then some (true, 2, 1)
  else none
def isBlk (f : FmtCode) : Bool := f == 11 || f == 12
/-- Float accumulator of a descriptor. -/
def dF (d : List Nat) : Bool := match macGroup (dAF d) (dBF d) with
  | some (f, _, _) => f
  | none => false

/-! Spaces (R173) -/

/-- The scratch region of a core (Table 2-2). -/
def scrLo (p : Nat) (s : State) : Nat := 0xB000 + 14 * s.ncomp p
def scrHi : Nat := 0x28000
def inScr (p a n : Nat) (s : State) : Bool := scrLo p s ≤ a && a + n ≤ scrHi
/-- Device address of byte `off` of a space of core `p`. -/
def spAddr (p sp off : Nat) (s : State) : Nat :=
  match sp with
  | 0 => sramBase p + off
  | 1 => segBase (p / 32) ((s.segOf p).getD 0) + off
  | _ => shmBase + off
/-- A range lies in its space, where that depends on the request alone. -/
def rangeVis (sp a n : Nat) : Bool :=
  match sp with
  | 1 => a + n ≤ 1572864
  | 2 => a + n ≤ 0x2000000
  | _ => true
/-- A range lies in its space, where that depends on the core's configuration. -/
def rangeCfg (p sp a n : Nat) (s : State) : Bool :=
  match sp with
  | 0 => inScr p a n s
  | 1 => (s.segOf p).isSome
  | _ => true
/-- The rows of an operand: count and length in bytes. -/
def opRows (d : List Nat) (i : Nat) : Nat × Nat :=
  match i with
  | 0 => (dM d, rowBytes (dAF d) (dK d))
  | 1 => (dN d, rowBytes (dBF d) (dK d))
  | 2 => (dM d, rowBytes (dOF d) (dN d))
  | _ => (1, 4 * dN d)
/-- The operands a descriptor touches. -/
def opUsed (d : List Nat) : List Nat :=
  [0, 1] ++ (if dOuts d && dTensor d then [2] else []) ++ (if dOuts d && bit (dw d 0) 18 then [3] else [])
/-- Bytes from the first to past the last byte of operand `i`. -/
def opSpan (d : List Nat) (i : Nat) : Nat := ((opRows d i).1 - 1) * dStr d i + (opRows d i).2

/-- BAD_ARG conditions of R174 visible in the descriptor. -/
def macBadVis (queued : Bool) (d : List Nat) : Bool :=
  let g := macGroup (dAF d) (dBF d)
  let rqt := bits (dw d 13) 0 18
  bits (dw d 0) 23 9 != 0 || bits (dw d 1) 22 10 != 0 || bits (dw d 2) 24 8 != 0
  || (List.range 4).any (fun i => bits (dw d (4 + 2 * i)) 4 4 != 0 || dSp d i > 3)
  || bits (dw d 12) 6 10 != 0 || bits (dw d 13) 18 14 != 0 || bits (dw d 14) 13 3 != 0
  || dOP d == 0 || dOP d > 4 || dAF d > 12 || dBF d > 12 || dOF d > 12
  || g.isNone || dM d == 0 || dN d == 0 || dK d == 0 || dM d * dN d > 1024
  || ((isBlk (dAF d) || isBlk (dBF d)) && dK d % 32 != 0) || (isBlk (dOF d) && dN d % 32 != 0)
  || (dAEXP d != 0 && (dF d || dAF d == 3))
  || dSp d 0 == 3 || dSp d 1 == 3
  || (dTensor d && (dSp d 2 == 1 || dSp d 2 == 3))
  || (bit (dw d 0) 18 && dSp d 3 == 3)
  || (opUsed d).any (fun i => !rangeVis (dSp d i) (dAddr d i) (opSpan d i) || dAddr d i % 4 != 0)
  || ([0, 1] ++ if dOuts d && dTensor d then [2] else []).any (fun i =>
       (dStr d i % 4 != 0 && (opRows d i).1 > 1) || dStr d i < (opRows d i).2)
  || (bit (dw d 0) 19 && rqt % 8 != 0)
  || (dOUT d != 0 && queued)

/-- BAD_ARG conditions of R174 that depend on the core. -/
def macBadCfg (p : Nat) (queued last : Bool) (d : List Nat) (s : State) : Bool :=
  let r := if queued then (s.core p).mac.rem1 else (s.core p).mac.rem0
  (opUsed d).any (fun i => !rangeCfg p (dSp d i) (dAddr d i) (if i = 3 then 4 * dN d else opSpan d i) s)
  || (bit (dw d 0) 19 && !inScr p (bits (dw d 13) 0 18) (8 * dN d) s)
  || (dOUT d != 0 && bits (dw d 14) 0 13 + dM d * dN d > s.ncomp p)
  || ((dOP d == 2 || dOP d == 4) && r != some ⟨dM d, dN d, dF d⟩)
  || (!queued && last && (dOP d == 3 || dOP d == 4))

/-- The code with which a descriptor of instance `inst` meets admission (R174). -/
def macAdmit (p inst : Nat) (queued last : Bool) (d : List Nat) (s : State) : Nat :=
  let sh := (opUsed d).filter fun i => dSp d i == 2
  if crc16 ((wordBytes d).take 62) ≠ bits (dw d 15) 16 16 then cCHECK_FAIL
  else if macBadVis queued d then cBAD_ARG
  else if sh.any fun i => (List.range (opRows d i).1).any fun r => !shmOk inst (dAddr d i + r * dStr d i) (opRows d i).2 s then cREFUSED
  else if macBadCfg p queued last d s then cBAD_ARG
  else if sh ≠ [] ∧ s.dev.drainNet then cDRAINING
  else cOK

/-! Operand elements -/

/-- The integer element `k` of the row at device address `a`, with its block exponent (R162, R173). -/
def tInt (f : FmtCode) (a k : Nat) (s : State) : Int × Int :=
  let b := fun x => (s.rdB x).toNat
  match f with
  | 0 => (sx 4 (bits (b (a + k / 2)) (4 * (k % 2)) 4), 0)
  | 1 => (sx 8 (b (a + k)), 0)
  | 2 => ((b (a + k) : Nat), 0)
  | 11 => let o := a + 36 * (k / 32); (sx 8 (b (o + 4 + k % 32)), sx 8 (b o))
  | 12 => let o := a + 20 * (k / 32); (sx 4 (bits (b (o + 4 + k % 32 / 2)) (4 * (k % 2)) 4), sx 8 (b o))
  | _ => (sx 16 (s.rdLE 2 (a + 2 * k)), 0)
/-- The float element `k` of a row. -/
def tFlt (f : FmtCode) (a k : Nat) (s : State) : FVal :=
  match floatOf f with
  | some l => let n := rowBytes f 1; fdec l (s.rdLE n (a + n * k))
  | none => .nan

/-! Accumulation (R168–R171) -/

/-- S32 accumulation of one element from `acc`: the accumulator and the saturations. -/
def accInt (d : List Nat) (ra rb : Nat) (acc : Int) (s : State) : Int × Nat :=
  let put := fun (q : Int × Nat) (x : Int) => let v := satS 32 (q.1 + x); (v, q.2 + b2n (decide (v ≠ q.1 + x)))
  if dAF d = 3 then
    (List.range (dK d)).foldl (fun q k => put q ((tInt 3 ra k s).1 * (tInt 3 rb k s).1)) (acc, 0)
  else
    (List.range ((dK d + 31) / 32)).foldl (fun q g =>
      let n := if dK d - 32 * g < 32 then dK d - 32 * g else 32
      let x := (tInt (dAF d) ra (32 * g) s).2 + (tInt (dBF d) rb (32 * g) s).2 - dAEXP d
      let t := (List.range n).foldl (fun t j => t + (tInt (dAF d) ra (32 * g + j) s).1 * (tInt (dBF d) rb (32 * g + j) s).1) 0
      put q (rndShift t x)) (acc, 0)
/-- F32 accumulation of one element. -/
def accFlt (d : List Nat) (ra rb : Nat) (acc : FVal) (s : State) : FVal :=
  (List.range (dK d)).foldl (fun q k => rneF32 (fadd q (rneF32 (fmul (tFlt (dAF d) ra k s) (tFlt (dBF d) rb k s))))) acc

/-- The bank after the accumulation of a descriptor, and the saturations. -/
def macAcc (p : Nat) (d : List Nat) (bank : SMap Nat) (s : State) : SMap Nat × Nat :=
  let bank := if dOP d = 1 ∨ dOP d = 3 then [] else bank
  (List.range (dM d * dN d)).foldl (fun (q : SMap Nat × Nat) e =>
    let ra := spAddr p (dSp d 0) (dAddr d 0 + e / dN d * dStr d 0) s
    let rb := spAddr p (dSp d 1) (dAddr d 1 + e % dN d * dStr d 1) s
    let old := sget (fun _ => 0) e bank
    if dF d then (sset (fun _ => 0) e (f32Bits (accFlt d ra rb (fdec fF32 old) s)) q.1, q.2)
    else
      let (v, n) := accInt d ra rb (sx 32 old) s
      (sset (fun _ => 0) e (tc 32 v) q.1, q.2 + n)) (bank, 0)

/-! Rescale (R175, R176) -/

/-- An output element after rescale. -/
structure El where
  z : Nat
  v : Int
  f : FVal
  sat : Nat
deriving DecidableEq, Repr

/-- Position of element (m, n) in output order (R177). -/
def outPos (d : List Nat) (m n : Nat) : Nat :=
  let c := if dAF d = 9 then 2 else 4
  let h := if dM d - m / 4 * 4 < 4 then dM d - m / 4 * 4 else 4
  let w := if dN d - n / c * c < c then dN d - n / c * c else c
  m / 4 * 4 * dN d + n / c * c * h + m % 4 * w + n % c
/-- Elements in output order. -/
def outOrder (d : List Nat) : List (Nat × Nat) :=
  let c := if dAF d = 9 then 2 else 4
  (List.range ((dM d + 3) / 4)).flatMap fun bm => (List.range ((dN d + c - 1) / c)).flatMap fun bn =>
    (List.range 4).flatMap fun m => (List.range c).filterMap fun n =>
      if 4 * bm + m < dM d ∧ c * bn + n < dN d then some (4 * bm + m, c * bn + n) else none
/-- The register state before element number `i` (R165). -/
def lfsrAt (z : Nat) : Nat → Nat
  | 0 => z
  | i + 1 => lfsrNext (lfsrAt z i)

/-- Rescale of element (m, n). -/
def macEl (p : Nat) (d : List Nat) (bank : SMap Nat) (m n : Nat) (s : State) : El :=
  let z := lfsrAt (lfsrSeed (bits (dw d 15) 0 16)) (outPos d m n)
  let acc := sget (fun _ => 0) (m * dN d + n) bank
  let bias := s.rdLE 4 (spAddr p (dSp d 3) (dAddr d 3 + 4 * n) s)
  let hasB := bit (dw d 0) 18
  let t := bits (dw d 13) 0 18 + 8 * n
  let (mul, rsh) := if bit (dw d 0) 19 then (s.sramW p t, bits (s.sramW p (t + 4)) 0 6) else (dw d 11, bits (dw d 12) 0 6)
  if dF d then
    let a := if hasB then rneF32 (fadd (fdec fF32 acc) (fdec fF32 bias)) else fdec fF32 acc
    ⟨z, 0, rneF32 (fmul a (fdec fF32 mul)), 0⟩
  else
    let x := sx 32 acc + (if hasB then sx 32 bias else 0)
    let a := satS 32 x
    ⟨z, roundInt (bit (dw d 0) 20) z (a * sx 32 mul) (-(rsh : Int)) + sx 16 (bits (dw d 12) 16 16), .nan, b2n (decide (a ≠ x))⟩

/-- Convert an element to a scalar format. -/
def elConv (d : List Nat) (c : FmtCode) (e : El) : Nat × Bool :=
  let satf := bit (dw d 0) 21
  if dF d then convFloat c satf (bit (dw d 0) 20) e.z e.f else convInt c satf e.v

/-- Element of a block at exponent `x`: quotient and whether it lies outside the range; NaN gives 0, outside. -/
def blkQ (d : List Nat) (c : FmtCode) (x : Int) (e : El) : Int × Bool :=
  let w := if c = 11 then 8 else 4
  let big : Int := ((2 ^ 64 : Nat) : Int)
  let fin := fun (q : Int) => (satS w q, decide (satS w q ≠ q))
  if dF d then
    match e.f with
    | .nan => (0, true)
    | .inf neg => fin (if neg then -big else big)
    | .fin _ _ _ => let (a, k) := e.f.int; fin (roundInt (bit (dw d 0) 20) e.z a (k - x))
  else fin (rndShift e.v (-x))
/-- Exponent of a block (R175 step 5, R176 step 3). -/
def blkExp (d : List Nat) (c : FmtCode) (es : List El) : Int :=
  let fits := fun (x : Int) => es.all fun e => (dF d && e.f == FVal.nan) || !(blkQ d c x e).2
  if dF d then
    if es.all (fun e => match e.f with | .nan => true | .fin _ m _ => m == 0 | _ => false) then 0
    else match (List.range 256).find? fun (i : Nat) => fits ((i : Int) - 128) with
      | some i => (i : Int) - 128
      | none => 127
  else match (List.range 128).find? fun (i : Nat) => fits (i : Int) with
    | some i => (i : Int)
    | none => 127

/-- Pack nibbles, low first; `pad` fills the high nibble of an odd last byte. -/
def nibbles (pad : Nat) : List Nat → List Byte
  | [] => []
  | [a] => [BitVec.ofNat 8 (a % 16 + 16 * (pad % 16))]
  | a :: b :: t => BitVec.ofNat 8 (a % 16 + 16 * (b % 16)) :: nibbles pad t

/-- The bytes of a row of D, and which elements clipped. -/
def macRow (d : List Nat) (pad : Nat) (es : List El) : List Byte × List Bool :=
  let c := dOF d
  if isBlk c then
    (List.range (es.length / 32)).foldl (fun (q : List Byte × List Bool) b =>
      let blk := (es.drop (32 * b)).take 32
      let x := blkExp d c blk
      let qs := blk.map (blkQ d c x)
      let body := if c = 11 then qs.map (fun y => BitVec.ofNat 8 (tc 8 y.1)) else nibbles 0 (qs.map fun y => tc 4 y.1)
      (q.1 ++ [BitVec.ofNat 8 (tc 8 x), 0#8, 0#8, 0#8] ++ body, q.2 ++ qs.map (·.2))) ([], [])
  else
    let qs := es.map (elConv d c)
    (if c = 0 then nibbles pad (qs.map (·.1)) else qs.flatMap fun y => leBytes (rowBytes c 1) y.1, qs.map (·.2))

/-- One output element counted in the trackers (R178, R179). -/
def macTrack (p : Nat) (d : List Nat) (e : El) (clip : Bool) (s : State) : State :=
  let s := (s.inc64 (MAC_ELEM p) 1).inc (MAC_ACC_SAT p) e.sat
  let s := if clip then s.inc64 (MAC_CLIP p) 1 else s
  if dF d then
    match e.f with
    | .nan => s.inc (MAC_NAN p) 1
    | f => let b := f32Bits f % 2 ^ 31; if b > s.rd (MAC_MAXABS_F p) then s.wr (MAC_MAXABS_F p) b else s
  else
    let b := satU 32 e.v.natAbs
    if b > s.rd (MAC_MAXABS_I p) then s.wr (MAC_MAXABS_I p) b else s

/-- The element of row `m` of D that is written last among those byte `j` of the row holds (half 0: the low nibble, 1: the high
one); a block is written whole after its last element. -/
def byteEl (d : List Nat) (j half : Nat) : Nat :=
  let n := if dOF d = 11 then j / 36 * 32 + 31 else if dOF d = 12 then j / 20 * 32 + 31
    else if dOF d = 0 then 2 * j + half else j / rowBytes (dOF d) 1
  if n < dN d then n else dN d - 1
/-- Row `m` of D, of which only the elements before position `k` of the output order are written over `old`. -/
def rowUpTo (d : List Nat) (m k : Nat) (new old : List Byte) : List Byte :=
  (List.range new.length).map fun j =>
    let b := fun (h : Nat) => if outPos d m (byteEl d j h) < k then (new.getD j 0#8).toNat else (old.getD j 0#8).toNat
    BitVec.ofNat 8 (bits (b 0) 0 4 + 16 * bits (b 1) 4 4)

/-- The first `k` outputs of a descriptor in output order (R177, R178); all of them in a descriptor that completes. -/
def macOut (p : Nat) (d : List Nat) (bank : SMap Nat) (k : Nat) (s0 : State) : State :=
  let pad := Config.freeNat s0.fresh
  let s := if dOF d = 0 ∧ dN d % 2 = 1 ∧ dTensor d then { s0 with fresh := s0.fresh + 1 } else s0
  let rows := (List.range (dM d)).map fun m => macRow d pad ((List.range (dN d)).map fun n => macEl p d bank m n s0)
  let s := if dTensor d then
      (List.range (dM d)).foldl (fun s m =>
        let a := spAddr p (dSp d 2) (dAddr d 2 + m * dStr d 2) s
        let new := (rows.getD m ([], [])).1
        s.wrNs a (if k < dM d * dN d then rowUpTo d m k new (s.rdN new.length a) else new)) s
    else s
  ((outOrder d).take k).foldl (fun s (mn : Nat × Nat) =>
    let e := macEl p d bank mn.1 mn.2 s0
    let (g, gc) := elConv d 3 e
    let tclip := dTensor d && ((rows.getD mn.1 ([], [])).2.getD mn.2 false)
    let s := macTrack p d e (tclip || (dOUT d != 0 && gc)) s
    let c := bits (dw d 14) 0 13 + mn.1 * dN d + mn.2
    if dOUT d = 1 then (if bit (dw d 0) 22 ∧ g = 0 then s else stage p (c + 2 ^ 13 + g * 2 ^ 16) s)
    else if dOUT d ≥ 2 ∧ sx 16 g ≥ sx 16 (bits (dw d 14) 16 16) then stage p c s
    else s) s

/-- Cycles of a descriptor whose operands keep pace (R184). -/
def macCycles (d : List Nat) : Nat :=
  match macGroup (dAF d) (dBF d) with
  | some (_, c, k) => 16 + (dM d + 3) / 4 * ((dN d + c - 1) / c) * ((dK d + k - 1) / k) + 8
  | none => 16

/-- The bytes of slice operands in the slices' counters: A once for each column of sub-blocks, B once for each row of them, the bias
once for each row of D, and D as written (R167, R177, R185). -/
def macSlices (d : List Nat) (s : State) : State :=
  let c := if dAF d = 9 then 2 else 4
  ((opUsed d).filter fun i => dSp d i == 2).foldl (fun s i =>
    let k := match i with
      | 0 => (dN d + c - 1) / c
      | 1 => (dM d + 3) / 4
      | 2 => 1
      | _ => dM d
    (List.range (opRows d i).1).foldl (fun s r =>
      shmTally (if i = 2 then SHM_SL_WRB else SHM_SL_RDB) (dAddr d i + r * dStr d i) (opRows d i).2 k s) s) s

/-- Run an admitted descriptor on its bank (R171–R179). The cycles of a standing descriptor that runs over a suspended queued one
lie in the suspended time of that one, which counts them (R184). -/
def macRun (p : Nat) (queued : Bool) (d : List Nat) (s : State) : State :=
  let m := (s.core p).mac
  let (bank, sat) := macAcc p d (if queued then m.bank1 else m.bank0) s
  let r := some (⟨dM d, dN d, dF d⟩ : BankRem)
  let m := if queued then { m with bank1 := bank, rem1 := r } else { m with bank0 := bank, rem0 := r }
  let s := (s.setCore p { s.core p with mac := m }).inc (MAC_ACC_SAT p) sat
  let s := macSlices d (if dOuts d then macOut p d bank (dM d * dN d) s else s)
  (s.inc64 (MAC_DESC p) 1).inc64 (MAC_BUSY_CYC p) (if queued || m.job.isNone then macCycles d else 0)

/-- A running queued descriptor is cut short (R186): it has written some of its outputs, how many is free, and held the array for
some of its cycles; bank 1 is lost. -/
def macCut (p : Nat) (d : List Nat) (s : State) : State :=
  let (bank, _) := macAcc p d (s.core p).mac.bank1 s
  let (v, s) := s.free
  let (c, s) := s.free
  let s := if dOuts d then macOut p d bank (v % (dM d * dN d + 1)) s else s
  (s.setCore p { s.core p with mac := { (s.core p).mac with bank1 := [], rem1 := none } }).inc64 (MAC_BUSY_CYC p) (c % (macCycles d + 1))

/-- A descriptor refused under R174: the array held it for the 16 cycles that read and check it (R184). -/
def macFail (p code idx : Nat) (queued : Bool) (s : State) : State :=
  let k := MAC_STAT p
  let s := if (s.core p).mac.job.isNone then s.inc64 (MAC_BUSY_CYC p) 16 else s
  (((s.inc (MAC_DESC_ERR p) 1).fs k MAC_STAT.LAST_CODE code).fs k MAC_STAT.LAST_Q (b2n queued)).fs k MAC_STAT.LAST_IDX
    (if queued then (s.fv k MAC_STAT.LAST_IDX) else idx)

/-- The sixteen body words at core SRAM offset `o`. -/
def scrWords (p o n : Nat) (s : State) : List Nat := (List.range n).map fun i => s.sramW p (o + 4 * i)

/-- The standing list of a step (R181). `feed` and `held` are the cycles waited for operands and for staging; over a suspended
queued descriptor the list's cycles are that one's suspended time (R184). -/
def macStand (p feed held : Nat) (s : State) : State :=
  let n := s.fv (MAC_STAND p) MAC_STAND.COUNT
  let b := s.fv (MAC_STAND p) MAC_STAND.BASE
  if n = 0 ∨ s.faulted p then s else
  let held0 := (s.core p).mac.job.isSome
  let s := if held0 then s.inc (MAC_SUSPEND p) 1 else s
  let s := (List.range n).foldl (fun s i =>
    let d := scrWords p (b + 64 * i) 16 s
    match macAdmit p ((s.clInst (p / 32)).getD 0) false (i + 1 == n) d s with
    | 0 => macRun p false d s
    | c => macFail p c i false s) s
  (s.inc (MAC_FEED_STALL p) feed).inc64 (MAC_BUSY_CYC p) (if held0 then 0 else feed + held)

/-- Bank 0 is cleared at every step open (R171); what it remembers of the descriptor that last wrote it stays. -/
def macOpen (p : Nat) (s : State) : State :=
  s.setCore p { s.core p with mac := { (s.core p).mac with bank0 := [] } }

/-- The MAC check of R189: the failing cause, 0 when it passes. -/
def macCheck (p : Nat) (s : State) : Nat :=
  let en := s.fb (MAC_CTRL p) MAC_CTRL.SVEC_EN
  let len := s.fv (MAC_SVEC_RANGE p) MAC_SVEC_RANGE.LEN
  let cnt := s.fv (MAC_STAND p) MAC_STAND.COUNT
  let b := s.fv (MAC_STAND p) MAC_STAND.BASE
  if en && !inScr p (s.fv (MAC_SVEC p) MAC_SVEC.BASE) len s then 1
  else if en && (s.fv (MAC_SVEC_RANGE p) MAC_SVEC_RANGE.FIRST + len > s.ncomp p || len = 0) then 2
  else if cnt > 8 then 4
  else if cnt ≠ 0 ∧ (b % 64 ≠ 0 ∨ inScr p b (64 * cnt) s = false) then 3
  else 0

/-- The queued descriptor held is dropped and bank 1 lost (R186). -/
def macAbort (p : Nat) (s : State) : State :=
  (s.setCore p { s.core p with mac := { (s.core p).mac with job := none, bank1 := [], rem1 := none } }).fs (MAC_STAT p) MAC_STAT.BUSY 0
/-- The queued descriptor `d` is held. -/
def macHold (p : Nat) (d : Option (List Nat)) (s : State) : State :=
  (s.setCore p { s.core p with mac := { (s.core p).mac with job := d } }).fs (MAC_STAT p) MAC_STAT.BUSY (b2n d.isSome)

end Sys2Proof.Machine
end

