-- ==== Sys2Proof/Machine/Queue.lean ====
section
/-! DEFINITION. Hardware queues and gathering contexts of a core (R254–R273), with the queued side of the MAC array
(R183, R184). -/
namespace Sys2Proof.Machine

def State.setQ (p : Nat) (x : QueueSt) (s : State) : State := s.setCore p { s.core p with q := x }
def qKind (p n : Nat) (s : State) : Nat := s.fv (Q_CFG p n) Q_CFG.KIND
def qDepth (p n : Nat) (s : State) : Nat := s.fv (Q_CFG p n) Q_CFG.DEPTH
def qOcc (p n : Nat) (s : State) : Nat := s.fv (Q_STAT p n) Q_STAT.OCC
def qHead (p n : Nat) (s : State) : Nat := s.fv (Q_PTR p n) Q_PTR.HEAD
def qTail (p n : Nat) (s : State) : Nat := s.fv (Q_PTR p n) Q_PTR.TAIL
/-- Core SRAM offset of slot `i` of queue `n` (R255). -/
def qSlot (p n i : Nat) (s : State) : Nat := s.fv (Q_BASE p n) Q_BASE.BASE + 80 * i
/-- The engine of a kind (Table 8-1). -/
def engKind : Engine → Nat
  | .dense => 1 | .move => 2 | .gather => 3
/-- The instance of a core. -/
def qInst (p : Nat) (s : State) : Option Nat := s.clInst (p / 32)
/-- Entries of queue `n` taken and not completed. -/
def qTakenN (p n : Nat) (s : State) : Nat := ((s.core p).q.taken.filter fun t => t.q == n).length

/-! Envelopes and records -/

/-- ECHK of an envelope (Table 8-2): over bytes 0–2 and 4–15. -/
def envChk (ws : List Nat) : Nat :=
  let b := wordBytes (ws.take 4)
  crc8 (b.take 3 ++ b.drop 4)
/-- The envelope with INST and GEN written and ECHK recomputed. -/
def envSeal (inst gen : Nat) (ws : List Nat) : List Nat :=
  let w0 := setBits (setBits (dw ws 0) 4 4 inst) 8 8 gen
  setBits w0 24 8 (envChk (w0 :: ws.drop 1)) :: ws.drop 1
/-- CREC128 (Table 8-4). -/
def crec (code inst gen q seq info : Nat) : List Nat :=
  let w0 := code % 256 + inst % 16 * 2 ^ 8 + gen % 256 * 2 ^ 12 + q % 64 * 2 ^ 20
  let l := [w0, seq % 2 ^ 32, info % 2 ^ 32]
  l ++ [crc16 (wordBytes l ++ [0#8, 0#8]) * 2 ^ 16]

/-- Write a 16-byte-aligned block along a route: 1 = scratch of core `p`, 2 = shared slices of instance `i`, through the outbound
write buffer. A target the core may not write is left unwritten (R275). -/
def qWrite (p route i a : Nat) (ws : List Nat) (s : State) : State :=
  let b := wordBytes ws
  match route with
  | 1 => if inScr p a b.length s then s.wrNs (sramBase p + a) b else s
  | 2 => if a + b.length ≤ 0x2000000 then outPut p i a b s else s
  | _ => s

/-! Putting entries into queues (R259–R262) -/

/-- Answer a QDESC: WR_CPL, and the poster of a chained entry counts a code other than OK (R264). -/
def qAnswer (p : Nat) (d : QdescIn) (code : Nat) (s : State) : State :=
  let s := s.emit (.packet d.sep.toNat (0x40 + p / 32) pkWR_CPL d.inst.toNat d.gen.toNat d.tag.toNat [code])
  match d.post with
  | some c => if code = cOK then s else s.inc (Q_CHAIN_ERR c.val) 1
  | none => s

/-- Write the entry at the ring's tail, which advances by one. -/
def qPut (p n inst gen : Nat) (ws : List Nat) (s : State) : State :=
  let t := qTail p n s
  let ws := envSeal inst gen ws
  let s := (List.range 20).foldl (fun s i => s.wrSram p (qSlot p n t s + 4 * i) (dw ws i)) s
  qAdvance p n 1 s
where
  /-- Advance the tail of a queue by `c` entries. -/
  qAdvance (p n c : Nat) (s : State) : State :=
    let o := qOcc p n s + c
    let s := (s.fs (Q_PTR p n) Q_PTR.TAIL ((qTail p n s + c) % qDepth p n s)).fs (Q_STAT p n) Q_STAT.OCC o
    let s := if o > s.fv (Q_STAT p n) Q_STAT.HWM then s.fs (Q_STAT p n) Q_STAT.HWM o else s
    s.inc64 (Q_ENQ p) c

/-- Admission and effect of a QDESC (R259); none while an ENQ must wait for room (R260). The code and the state. -/
def qdesc (p : Nat) (d : QdescIn) (s : State) : Option (Nat × State) :=
  let n := d.qid.toNat % 64
  let op := d.qop.toNat
  let cnt := d.count.toNat
  let inst := d.inst.toNat
  let ws := d.words.map (·.toNat)
  if d.rsv || (op == 1 && cnt == 0) || (op != 1 && cnt != 0) then some (cBAD_ARG, s)
  else if qInst p s ≠ some inst then some (cREFUSED, s.inc (Q_INST_ERR p) 1)
  else if qKind p n s = 0 ∨ qKind p n s > 3 ∨ (op = 0 ∧ bits (dw ws 0) 0 4 ≠ qKind p n s) then some (cBAD_ARG, s)
  else if d.gen.toNat ≠ s.gen inst then some (cSTALE_GEN, s.inc (Q_STALE p) 1)
  else if s.dev.drainCl.contains (p / 32) then some (cDRAINING, s)
  else match op with
    | 0 => if qOcc p n s < qDepth p n s then some (cOK, qPut p n inst d.gen.toNat ws s) else none
    | 1 =>
      if cnt > qDepth p n s - qOcc p n s then some (cFULL, s)
      else
        let t := qTail p n s
        let s := (List.range cnt).foldl (fun s i =>
          let o := qSlot p n ((t + i) % qDepth p n s) s
          let ws := envSeal inst d.gen.toNat (scrWords p o 4 s)
          s.wrSram p o (dw ws 0)) s
        some (cOK, qPut.qAdvance p n cnt s)
    | 2 => some (cOK, s.fs (Q_STAT p n) Q_STAT.HELD 1)
    | _ => some (cOK, s.fs (Q_STAT p n) Q_STAT.HELD 0)

/-- A QDESC packet arrives: it acts, or waits in the input buffer, or at the router when the buffer is full (R260). -/
def qArrive (p : Nat) (d : QdescIn) (s : State) : State :=
  let s := wakeCore p s
  let c := (s.core p).q
  let wait := fun (s : State) =>
    if c.inBuf.length < 4 ∧ c.held = [] then s.setQ p { c with inBuf := c.inBuf ++ [d] }
    else s.setQ p { c with held := c.held ++ [d] }
  if c.inBuf ≠ [] then wait s
  else match qdesc p d s with
    | some (code, s) => qAnswer p d code s
    | none => wait s

/-- QDESC_ENQ (R259, R260). -/
def execQdescEnq (c : Cl) (k : Sl) (d : QdescIn) (s : State) : Res := ok (qArrive (pcid c k) { d with qop := 0 } s)
/-- QDESC_DOORBELL (R259). -/
def execQdescDoorbell (c : Cl) (k : Sl) (d : QdescIn) (s : State) : Res := ok (qArrive (pcid c k) { d with qop := 1 } s)
/-- QDESC_HOLD (R262). -/
def execQdescHold (c : Cl) (k : Sl) (d : QdescIn) (s : State) : Res := ok (qArrive (pcid c k) { d with qop := 2 } s)
/-- QDESC_RELEASE (R262). -/
def execQdescRelease (c : Cl) (k : Sl) (d : QdescIn) (s : State) : Res := ok (qArrive (pcid c k) { d with qop := 3 } s)

/-- QUEUE_INPUT_UNBLOCK (R260): the head of the input buffer is written when its queue has room; the packets behind it follow
as their own commands of this kind. -/
def execQueueInputUnblock (c : Cl) (k : Sl) (s : State) : Res :=
  let p := pcid c k
  let x := (s.core p).q
  match x.inBuf with
  | [] => ok s
  | d :: t =>
    match qdesc p d s with
    | none => ok s
    | some (code, s) =>
      let x := (s.core p).q
      ok (qAnswer p d code (s.setQ p { x with inBuf := t ++ x.held.take 1, held := x.held.drop 1 }))

/-- TENANT_CONTROL_EVENT (R261): the oldest TYPE 0x3 event the core has passed acts as a QDESC with no completion. -/
def execTenantControlEvent (c : Cl) (k : Sl) (s : State) : Res :=
  let p := pcid c k
  match (s.core p).q.events with
  | [] => ok s
  | (ev, inst) :: t =>
    if bits ev 60 4 ≠ 3 then ok s else
    let s := s.setQ p { (s.core p).q with events := t }
    let axon := bits ev 32 16
    let pay := bits ev 0 22
    let rsv := bits axon 6 10 != 0 || bits pay 12 10 != 0 || bits ev 28 4 != 0 || pay % 4 == 0
    let d : QdescIn := ⟨BitVec.ofNat 2 pay, BitVec.ofNat 18 (axon % 64), BitVec.ofNat 10 (pay / 4), rsv, [],
      BitVec.ofNat 4 inst, BitVec.ofNat 8 (s.gen inst), 0, 0, none⟩
    match qdesc p d s with
    | some (0, s) => ok s
    | some (_, s) => ok (s.inc (Q_CTL_BAD p) 1)
    | none => ok (s.inc (Q_CTL_BAD p) 1)

/-! Completing entries (R264) -/

/-- Post the entry of 80 bytes at slice offset `a` to queue `nq` (R264, R272). A post whose entry cannot be read, or whose queue
belongs to an LCID that no slot holds (R3, R33), ends with a code other than OK. -/
def qPost (p inst gen nq a : Nat) (s : State) : State :=
  if a + 80 ≤ 0x2000000 ∧ shmCode inst a 80 s = cOK then
    let (b, s) := shmRead a 80 s
    match s.pcidOf (nq / 64) with
    | some t =>
      s.emit (.packet (0x40 + t / 32) (0x40 + p / 32) pkQDESC inst gen 0
        ([nq, 0, 0, p] ++ (List.range 20).map fun i => leNat ((b.drop (4 * i)).take 4)))
    | none => s.inc (Q_CHAIN_ERR p) 1
  else s.inc (Q_CHAIN_ERR p) 1

/-- Free the slot of an entry of queue `n`. -/
def qFree (p n : Nat) (s : State) : State :=
  (s.fs (Q_PTR p n) Q_PTR.HEAD ((qHead p n s + 1) % qDepth p n s)).fs (Q_STAT p n) Q_STAT.OCC (qOcc p n s - 1)

/-- The completion of an entry waits: the outbound write buffer is full (Table 8-7), or its chained post stands behind a record
that no slice has performed yet (R264). -/
def qWaits (p : Nat) (t : QTaken) (s : State) : Bool :=
  let out := (s.core p).q.out
  let w0 := dw t.words 0
  out.length ≥ 8 || (bits w0 16 2 == 2 && bit w0 18
    && (!out.isEmpty || !(s.slice (slSlice (bits (dw t.words 2) 0 25))).queue.isEmpty))
/-- An entry completes with a code: record along CROUTE, slot freed, chained entry posted (R264). -/
def qComplete (p : Nat) (t : QTaken) (code info : Nat) (s : State) : State :=
  let x := (s.core p).q
  let s := s.setQ p { x with taken := x.taken.filter fun y => y.q != t.q }
  let w0 := dw t.words 0
  let inst := bits w0 4 4
  let gen := bits w0 8 8
  let s := if gen ≠ s.gen inst then s.inc (Q_STALE_CPL p) 1
    else qWrite p (bits w0 16 2) inst (bits (dw t.words 2) 0 25) (crec code inst gen t.q t.seq info) s
  let s := qFree p t.q s
  if bit w0 18 ∧ code = cOK then qPost p inst gen (bits (dw t.words 1) 0 18) (bits (dw t.words 3) 0 25) s else s

/-- Taking with no completion: the entry leaves the ring (R263 steps 1 and 2). -/
def qDrop (p n : Nat) (s : State) : State := qFree p n s

/-! The move engine (R257) -/

/-- The code with which a MOVE entry of instance `i` meets admission. -/
def moveAdmit (p i : Nat) (d : List Nat) (s : State) : Nat :=
  let ssp := bits (dw d 0) 4 4
  let dsp := bits (dw d 0) 8 4
  let n := bits (dw d 3) 0 17
  let bad := bits (dw d 0) 0 4 != 1 || bits (dw d 0) 12 20 != 0 || ssp > 2 || (dsp != 0 && dsp != 2)
    || bits (dw d 3) 17 15 != 0 || n == 0 || n > 65536 || ((List.range 11).any fun j => dw d (4 + j) != 0) || bits (dw d 15) 0 16 != 0
    || !rangeVis ssp (dw d 1) n || !rangeVis dsp (dw d 2) n
  let sh := (if ssp = 2 then [(dw d 1)] else []) ++ (if dsp = 2 then [(dw d 2)] else [])
  if crc16 ((wordBytes d).take 62) ≠ bits (dw d 15) 16 16 then cCHECK_FAIL
  else if bad then cBAD_ARG
  else if sh.any fun a => !shmOk i a n s then cREFUSED
  else if !rangeCfg p ssp (dw d 1) n s || !rangeCfg p dsp (dw d 2) n s then cBAD_ARG
  else if sh ≠ [] ∧ s.dev.drainNet then cDRAINING
  else cOK

/-- Copy in ascending order, 32 bytes at a time, each piece read before it is written. -/
def moveCopy (src dst : Nat) (fromSh toSh : Bool) : Nat → Nat → State → State
  | 0, _, s => s
  | fuel + 1, n, s =>
    if n = 0 then s else
    let k := if n < 32 then n else 32
    let (b, s) := if fromSh then shmRead (src - shmBase) k s else (s.rdN k src, s)
    let s := if toSh then shmWrite (dst - shmBase) b s else s.wrNs dst b
    moveCopy (src + k) (dst + k) fromSh toSh fuel (n - k) s

/-- The copy of an admitted MOVE entry, of its first `n` bytes. -/
def moveRun (p n : Nat) (d : List Nat) (s : State) : State :=
  let ssp := bits (dw d 0) 4 4
  let dsp := bits (dw d 0) 8 4
  moveCopy (spAddr p ssp (dw d 1) s) (spAddr p dsp (dw d 2) s) (ssp == 2) (dsp == 2) 2048 n s
/-- The bytes a MOVE has written when it is cut short (R257): a free number of its 32-byte pieces. -/
def moveCut (n : Nat) (s : State) : Nat × State :=
  let (v, s) := s.free
  let k := 32 * (v % ((n + 31) / 32 + 1))
  (if k < n then k else n, s)

/-! Gathering contexts (R268–R272) -/

def gFmt (p g : Nat) (s : State) : Nat := s.fv (Q_GCFG p g) Q_GCFG.FMT
def gVlen (p g : Nat) (s : State) : Nat := s.fv (Q_GACC p g) Q_GACC.VLEN
def gContrib (p g : Nat) (s : State) : Nat := s.fv (Q_GCFG p g) Q_GCFG.NCM1 + 1
def gBase (p g : Nat) (s : State) : Nat := s.fv (Q_GRND p g) Q_GRND.BASE
/-- The enabled context bound to queue `n`. -/
def gCtx (p n : Nat) (s : State) : Option Nat :=
  (List.range 4).find? fun g => s.fb (Q_GCFG p g) Q_GCFG.EN && s.fv (Q_GCFG p g) Q_GCFG.QNUM == n
/-- Device address of the contributor bitmap, and of accumulator `i`, of round `r`. -/
def gMapAt (p g r : Nat) (s : State) : Nat := sramBase p + s.fv (Q_GACC p g) Q_GACC.BASE + 32 * (r % 2)
def gAccAt (p g r i : Nat) (s : State) : Nat :=
  sramBase p + s.fv (Q_GACC p g) Q_GACC.BASE + 64 + 8 * gVlen p g s * (r % 2) + 8 * i
def gMap (p g r : Nat) (s : State) : Nat := s.rdLE 32 (gMapAt p g r s)
def gCount (p g r : Nat) (s : State) : Nat := popcount (gMap p g r s) 256

/-- Forward and chain of a closed round (R272). -/
def gForward (p g r : Nat) (v : Nat) (s : State) : State :=
  let inst := (qInst p s).getD 0
  let s := if s.fb (Q_GCFG p g) Q_GCFG.FWD && gVlen p g s == 1 then
      let rank := if s.fb (Q_GFWD p g) Q_GFWD.REM then s.fv (Q_GFWD p g) Q_GFWD.RANK else (ownRank inst s).getD 0
      syncOut (0x40 + p / 32) 0xB inst (s.fv (Q_GFWD p g) Q_GFWD.QID + rank * 2 ^ 18)
        (v % 2 ^ 32 + s.fv (Q_GNQ p g) Q_GNQ.FCIDX * 2 ^ 32 + r % 2 ^ 16 * 2 ^ 44) s
    else s
  if s.fb (Q_GCFG p g) Q_GCFG.CHAIN then
    qPost p inst (s.gen inst) (s.fv (Q_GNQ p g) Q_GNQ.NQ) (s.fv (Q_GNXT p g) Q_GNXT.NADDR) s
  else s

/-- Close round BASE with a code (R271). -/
def gClose (p g code : Nat) (s : State) : State :=
  let r := gBase p g s
  let vl := gVlen p g s
  let inst := (qInst p s).getD 0
  let f32 := gFmt p g s == 9
  let res := (List.range vl).map fun i =>
    let a := s.rdLE 8 (gAccAt p g r i s)
    if f32 then (a % 2 ^ 32, false) else let v := satS 32 (sx 64 a); (tc 32 v, decide (v ≠ sx 64 a))
  let s := s.inc (Q_GATH_SAT p) (res.filter (·.2)).length
  let (seq, s) := s.free
  let area := s.fv (Q_GRES p g) Q_GRES.RESADDR + r % 2 * (16 + roundUp (4 * vl) 16)
  let rec_ := crec code inst (s.gen inst) (s.fv (Q_GCFG p g) Q_GCFG.QNUM) seq (r + gCount p g r s * 2 ^ 16)
  let s := qWrite p (if s.fb (Q_GCFG p g) Q_GCFG.RSP then 2 else 1) inst area (rec_ ++ res.map (·.1)) s
  let s := gForward p g r ((res.headD (0, false)).1) s
  let s := (s.clrNs (gMapAt p g r s) 32).clrNs (gAccAt p g r 0 s) (8 * vl)
  let s := s.fs (Q_GRND p g) Q_GRND.BASE ((r + 1) % 65536)
  s.fs (Q_GRND p g) Q_GRND.CNT (gCount p g (r + 1) s)

/-- Close the rounds that are complete, BASE first. -/
def gCloseFull (p g : Nat) : Nat → State → State
  | 0, s => s
  | n + 1, s => if gCount p g (gBase p g s) s ≥ gContrib p g s then gCloseFull p g n (gClose p g cOK s) else s

/-- Add vector `v` of contributor `ci` to round `r` (R269 step 5, R270). -/
def gAdd (p g r ci : Nat) (v : List Nat) (s : State) : State :=
  let s := (List.range (gVlen p g s)).foldl (fun s i =>
    let a := gAccAt p g r i s
    let old := s.rdLE 8 a
    let x := v.getD i 0
    s.wrNs a (leBytes 8 (if gFmt p g s = 9 then f32Bits (rneF32 (fadd (fdec fF32 (old % 2 ^ 32)) (fdec fF32 x))) else tc 64 (sx 64 old + sx 32 x)))) s
  let s := s.wrNs (gMapAt p g r s) (leBytes 32 (setBits (gMap p g r s) ci 1 1))
  let s := s.fs (Q_GRND p g) Q_GRND.CNT (gCount p g (gBase p g s) s)
  s

/-- A contribution to context `g` (R269): its code, INFO and the state. `vec` answers the vector, or the code of a refused read. -/
def gContribute (p g fmt cidx round nelem : Nat) (inl : Bool) (vec : State → Nat × List Nat × State) (s : State) : Nat × Nat × State :=
  let d := (round + 65536 - gBase p g s) % 65536
  let info := fun (s : State) => round + (if d ≤ 1 then gCount p g round s else 0) * 2 ^ 16
  if fmt ≠ gFmt p g s ∨ nelem ≠ gVlen p g s ∨ (inl ∧ nelem > 8) ∨ (gContrib p g s ≤ cidx ∧ cidx ≤ 255) then (cBAD_ARG, info s, s)
  else if cidx ≥ 256 then (cFULL, info s, exhaust p SEC_EXH_SRC.GATHER (s.inc (Q_GATH_FULL p) 1))
  else if 2 ≤ d ∧ d < 32768 then (cRETRY, info s, s.inc (Q_GATH_EARLY p) 1)
  else if d ≥ 32768 ∨ (gMap p g round s).testBit cidx then (cOK, info s, s.inc (Q_GATH_DUP p) 1)
  else
    let (code, v, s) := vec s
    if code ≠ cOK then (code, info s, s) else
    let s := gAdd p g round cidx v s
    (cOK, info s, gCloseFull p g 2 s)

/-- Perform a GATHER entry. -/
def gatherRun (p i n : Nat) (d : List Nat) (s : State) : Nat × Nat × State :=
  let inl := bit (dw d 0) 8
  let ne := bits (dw d 3) 0 11
  let sa := bits (dw d 2) 0 25
  let round := bits (dw d 1) 16 16
  let bad := bits (dw d 0) 0 4 != 1 || bits (dw d 0) 9 23 != 0 || bits (dw d 1) 12 4 != 0 || bits (dw d 2) 25 7 != 0
    || bits (dw d 3) 11 21 != 0 || ((List.range 3).any fun j => dw d (12 + j) != 0) || bits (dw d 15) 0 16 != 0
    || ne == 0 || ne > 1024 || (!inl && (sa % 4 != 0 || sa + 4 * ne > 0x2000000))
  if crc16 ((wordBytes d).take 62) ≠ bits (dw d 15) 16 16 then (cCHECK_FAIL, 0, s)
  else if bad then (cBAD_ARG, round, s)
  else match gCtx p n s with
    | none => (cBAD_ARG, round, s)
    | some g =>
      gContribute p g (bits (dw d 0) 4 4) (bits (dw d 1) 0 12) round ne inl (fun s =>
        if inl then (cOK, (List.range ne).map fun j => dw d (4 + j), s)
        else match shmCode i sa (4 * ne) s with
        | 0 =>
          let (b, s) := shmRead sa (4 * ne) s
          (cOK, (List.range ne).map fun j => leNat ((b.drop (4 * j)).take 4), s)
        | code => (code, [], s)) s

/-! Taking entries (R263) -/

/-- Queue the consumer serves next: lowest PRI, then round robin in ascending number. -/
def qNext (p : Nat) (e : Engine) (s : State) : Option Nat :=
  let able := (List.range 64).filter fun n =>
    qKind p n s == engKind e && !s.fb (Q_STAT p n) Q_STAT.HELD && !(s.core p).q.stopped.contains n && qOcc p n s > qTakenN p n s
  (List.range 4).findSome? fun pri =>
    let l := able.filter fun n => s.fv (Q_CFG p n) Q_CFG.PRI == pri
    let last := sget (fun _ => 0) (4 * engKind e + pri) (s.core p).q.rr
    match l.find? fun n => decide (last ≤ n) with
    | some n => some n
    | none => l.head?

/-- The engine holds an entry. -/
def engBusy (p : Nat) (e : Engine) (s : State) : Bool := (s.core p).q.taken.any fun t => qKind p t.q s == engKind e

/-- A record about queue `n` that is logged once in each minute (R263, R266); `key` names the queue and the matter. -/
def qLog (key p : Nat) (args : List Nat) (s : State) : State :=
  if s.mgmt.qLogged.any fun x => x.1 == key && decide (s.now < x.2 + 60000000000) then s else
  { s with mgmt := { s.mgmt with qLogged := (key, s.now) :: s.mgmt.qLogged.filter (·.1 != key) } }.log 0x0A (qInst p s) args
/-- QUEUE_ENTRY_TAKE (R263): a GATHER entry is performed, a MOVE entry validated, a DENSE entry presented to the MAC array. A
stopped core takes nothing (Table 2-17), nor does an engine that waits for the outbound write buffer. -/
def execQueueEntryTake (c : Cl) (k : Sl) (e : Engine) (s : State) : Res :=
  let p := pcid c k
  let s := outPump p s
  if engBusy p e s || s.faulted p || decide ((s.core p).q.out.length ≥ 8) then ok s else
  match qNext p e s with
  | none => ok s
  | some n =>
    let s := wakeCore p s
    let x := (s.core p).q
    let sq := sget (fun _ => 0) n x.seq
    let pri := s.fv (Q_CFG p n) Q_CFG.PRI
    let s := (s.setQ p { x with seq := sset (fun _ => 0) n ((sq + 1) % 2 ^ 32) x.seq,
                                rr := sset (fun _ => 0) (4 * engKind e + pri) (n + 1) x.rr }).inc64 (Q_TAKE p) 1
    let slot := qHead p n s
    let ws := scrWords p (qSlot p n slot s) 20 s
    let w0 := dw ws 0
    let inst := bits w0 4 4
    if envChk ws ≠ bits w0 24 8 then ok (qDrop p n (qLog (2 ^ 20 + 64 * p + n) p [6, p, n] (s.inc (Q_ENV_CHKERR p) 1)))
    else if bits w0 8 8 ≠ s.gen inst then ok (qDrop p n (s.inc (Q_STALE p) 1))
    else
      let body := ws.drop 4
      let (code, info, s) := match e with
        | .dense => (cOK, 0, s)
        | .move =>
          let code := moveAdmit p inst body s
          (code, if code = cOK then bits (dw body 3) 0 17 else 0, s)
        | .gather => gatherRun p inst n body s
      let x := (s.core p).q
      ok (s.setQ p { x with taken := x.taken ++ [⟨n, slot, sq, code, info, ws⟩] })

/-- The entry an engine holds. -/
def engTaken (p : Nat) (e : Engine) (s : State) : Option QTaken :=
  (s.core p).q.taken.find? fun t => qKind p t.q s == engKind e

/-- A MOVE entry taken with OK ends: whole, or cut short with ABORTED (R257). -/
def moveEnd (p : Nat) (whole : Bool) (t : QTaken) (s : State) : State :=
  let d := t.words.drop 4
  if whole then qComplete p t cOK t.info (moveRun p t.info d s)
  else
    let (n, s) := moveCut t.info s
    qComplete p t cABORTED n (moveRun p n d s)
/-- A running queued descriptor is cut short and completes ABORTED (R186). -/
def denseAbort (p : Nat) (d : List Nat) (t : QTaken) (s : State) : State :=
  qComplete p t cABORTED 0 (macHold p none (macCut p d s))

/-- QUEUE_ENTRY_COMPLETE (R264): a MOVE copies its bytes by now; in a core that has stopped on a fault it is cut short. A DENSE
entry completes through MAC_TAKE_QUEUED or MAC_DESC_COMPLETE. -/
def execQueueEntryComplete (c : Cl) (k : Sl) (e : Engine) (s : State) : Res :=
  let p := pcid c k
  let s := outPump p s
  match e, engTaken p e s with
  | .dense, _ => ok s
  | .move, some t =>
    if qWaits p t s then ok s
    else if t.code = cOK then ok (moveEnd p (!s.faulted p) t s) else ok (qComplete p t t.code t.info s)
  | .gather, some t => if qWaits p t s then ok s else ok (qComplete p t t.code t.info s)
  | _, none => ok s

/-- MAC_TAKE_QUEUED (R183, R174): the array takes the descriptor presented; one that fails completes at once. -/
def execMacTakeQueued (c : Cl) (k : Sl) (s : State) : Res :=
  let p := pcid c k
  let s := outPump p s
  match engTaken p .dense s with
  | none => ok s
  | some t =>
    if (s.core p).mac.job.isSome ∨ s.fb (MAC_CTRL p) MAC_CTRL.HOLD ∨ s.faulted p then ok s else
    let s := wakeCore p s
    let d := t.words.drop 4
    match macAdmit p (bits (dw t.words 0) 4 4) true false d s with
    | 0 => ok (macHold p (some d) s)
    | code => if qWaits p t s then ok s else ok (qComplete p t code 0 (macFail p code 0 true s))

/-- MAC_DESC_COMPLETE (R184): `feed` cycles waited for operands, `held` cycles suspended. The descriptor a core held when it
stopped on a fault completes ABORTED (R186). -/
def execMacDescComplete (c : Cl) (k : Sl) (feed held : Word) (s : State) : Res :=
  let p := pcid c k
  let s := outPump p s
  match (s.core p).mac.job, engTaken p .dense s with
  | some d, some t =>
    if qWaits p t s then ok s else
    let s := (s.inc (MAC_FEED_STALL p) feed.toNat).inc64 (MAC_BUSY_CYC p) (feed.toNat + held.toNat)
    if s.faulted p then ok (denseAbort p d t s)
    else ok (qComplete p t cOK 0 (macHold p none (macRun p true d s)))
  | _, _ => ok s

/-- GATHER_ROUND_TIMEOUT (R271): round BASE has been open Q_GTMO_g µs since its first contribution. -/
def execGatherRoundTimeout (c : Cl) (k : Sl) (g : Fin 4) (s : State) : Res :=
  let p := pcid c k
  let n := g.val
  if s.fb (Q_GCFG p n) Q_GCFG.EN = false ∨ s.fv (Q_GTMO p n) Q_GTMO.US = 0 ∨ gCount p n (gBase p n s) s = 0 then ok s else
  let s := (gClose p n cTIMEOUT (s.inc (Q_GATH_TMO p) 1)).log 0x0A (qInst p s) [0, p, s.fv (Q_GCFG p n) Q_GCFG.QNUM]
  ok (gCloseFull p n 2 s)

/-- One contribution of a message or event, with no completion (R273). -/
def gInline (p inst n fmtWant cidx : Nat) (round : Nat → State → Option Nat) (v : Nat) (s : State) : State :=
  if qInst p s ≠ some inst then s.inc (Q_INST_ERR p) 1 else
  match gCtx p n s with
  | none => s.inc (Q_GATH_BAD p) 1
  | some g =>
    if gVlen p g s ≠ 1 ∨ (fmtWant = 4 ∧ gFmt p g s ≠ 4) then s.inc (Q_GATH_BAD p) 1 else
    match round g s with
    | none => s.inc (Q_GATH_BAD p) 1
    | some r =>
      let (code, _, s) := gContribute p g (gFmt p g s) cidx r 1 true (fun s => (cOK, [v], s)) s
      if code = cBAD_ARG then s.inc (Q_GATH_BAD p) 1 else s

/-- A GATHER message at the root (R273): one of this device's rank acts at the core that holds its queue; one for another rank goes to
a Jarisk port on the management channel (R272, R318). `t` and `arg` as the message carries them. -/
def gatherMsg (i t arg : Nat) (s : State) : State :=
  let away := match ownRank i s with
    | some r => r != bits t 18 12
    | none => false
  if away then syncSend i (bits t 18 12) 0xB t arg s
  else match s.pcidOf (bits t 0 18 / 64) with
    | none => s
    | some p => gInline p i (bits t 0 18 % 64) 0 (bits arg 32 12) (fun _ _ => some (bits arg 44 16)) (bits arg 0 32) s
/-- SYNC_GATHER (R273). -/
def execSyncGather (w0 w1 : DWord) (s : State) : Res := ok (onSync 0xB w0 w1 gatherMsg s)

/-- GATHER_EVENT (R273): the oldest TYPE 0x4 event the core has passed. -/
def execGatherEvent (c : Cl) (k : Sl) (s : State) : Res :=
  let p := pcid c k
  match (s.core p).q.events with
  | [] => ok s
  | (ev, inst) :: t =>
    if bits ev 60 4 ≠ 4 then ok s else
    let s := s.setQ p { (s.core p).q with events := t }
    let axon := bits ev 32 16
    ok (gInline p inst (axon % 64) 4 (bits axon 6 10) (fun g s =>
      let b := gBase p g s
      let dl := bits ev 28 4
      if b % 16 = dl then some b else if (b + 1) % 16 = dl then some ((b + 1) % 65536) else none)
      (tc 32 (sx 22 (bits ev 0 22))) s)

/-- QUEUE_WATCHDOG_EXPIRE (R266): the full queue that blocks the input buffer, or with `starve` queue `n` non-empty with none taken. -/
def execQueueWatchdogExpire (c : Cl) (k : Sl) (n : Fin 64) (starve : Bool) (s : State) : Res :=
  let p := pcid c k
  let rep := fun (m : Nat) (s : State) => qLog (64 * p + m) p [1, p, m] (s.emit (.report p (0x200 + m)))
  if s.fv (Q_WDOG p) Q_WDOG.CYC = 0 then ok s
  else if starve then
    (if qOcc p n.val s = 0 then ok s else ok (rep n.val (s.fs (Q_STAT p n.val) Q_STAT.STARVE 1)))
  else match (s.core p).q.inBuf with
    | [] => ok s
    | d :: _ =>
      let m := d.qid.toNat % 64
      ok (rep m ((s.fs (Q_STAT p m) Q_STAT.STALL 1).inc (Q_STALL p) 1))

/-- A write of Q_DBG_SEL captures the head entry of a queue (R266, Table 8-9); a requester outside the core's instance is refused. -/
def writeQDbgSel (q : Req) (p v : Nat) (s : State) : State :=
  let n := v % 64
  let ent := if qOcc p n s = 0 then List.replicate 20 0 else scrWords p (qSlot p n (qHead p n s) s) 20 s
  let s := (List.range 20).foldl (fun s i => s.wr (Q_DBG_ENT p i) (dw ent i)) s
  s.done q cOK [] false

/-! The queue check (R256) -/

/-- Ranges of scratch that a ring must not overlap, besides other rings: accumulator areas, hold area, capture, standing list. -/
def qOthers (p : Nat) (s : State) : List (Nat × Nat) :=
  ((List.range 4).filter fun g => s.fb (Q_GCFG p g) Q_GCFG.EN).map (fun g => (s.fv (Q_GACC p g) Q_GACC.BASE, 64 + 16 * gVlen p g s))
  ++ (if s.fv (LRN_HOLD p) LRN_HOLD.LEN ≠ 0 then [(s.fv (LRN_HOLD p) LRN_HOLD.BASE, 8 * s.fv (LRN_HOLD p) LRN_HOLD.LEN)] else [])
  ++ (if s.fb (MAC_CTRL p) MAC_CTRL.SVEC_EN then [(s.fv (MAC_SVEC p) MAC_SVEC.BASE, s.fv (MAC_SVEC_RANGE p) MAC_SVEC_RANGE.LEN)] else [])
  ++ (if s.fv (MAC_STAND p) MAC_STAND.COUNT ≠ 0 then [(s.fv (MAC_STAND p) MAC_STAND.BASE, 64 * s.fv (MAC_STAND p) MAC_STAND.COUNT)] else [])
/-- Two ranges share a byte. -/
def overlaps (a b : Nat × Nat) : Bool := a.2 != 0 && b.2 != 0 && a.1 < b.1 + b.2 && b.1 < a.1 + a.2
def qRing (p n : Nat) (s : State) : Nat × Nat := (s.fv (Q_BASE p n) Q_BASE.BASE, 80 * qDepth p n s)

/-- The first failure: CAUSE and queue. -/
def queueCheck (p : Nat) (s : State) : Option (Nat × Nat) :=
  let on := fun n => qKind p n s != 0
  let q := (List.range 64).findSome? fun n =>
    if !on n then none
    else if qKind p n s > 3 then some (4, n)
    else if qDepth p n s = 0 ∨ qDepth p n s > 1024 ∨ (qRing p n s).1 % 16 ≠ 0 then some (1, n)
    else if !inScr p (qRing p n s).1 (qRing p n s).2 s then some (2, n)
    else if (qOthers p s).any (overlaps (qRing p n s)) || (List.range 64).any (fun m => m != n && on m && overlaps (qRing p n s) (qRing p m s))
      then some (3, n)
    else if qKind p n s = 3 ∧ ((List.range 4).filter fun g => s.fb (Q_GCFG p g) Q_GCFG.EN && s.fv (Q_GCFG p g) Q_GCFG.QNUM == n).length ≠ 1
      then some (5, n)
    else none
  match q with
  | some r => some r
  | none => (List.range 4).findSome? fun g =>
    if s.fb (Q_GCFG p g) Q_GCFG.EN = false then none else
    let n := s.fv (Q_GCFG p g) Q_GCFG.QNUM
    let vl := gVlen p g s
    let b := s.fv (Q_GACC p g) Q_GACC.BASE
    let res := s.fv (Q_GRES p g) Q_GRES.RESADDR
    let rn := 2 * (16 + roundUp (4 * vl) 16)
    let bad := (gFmt p g s != 4 && gFmt p g s != 9) || vl == 0 || vl > 1024 || b % 16 != 0 || !inScr p b (64 + 16 * vl) s
      || res % 16 != 0 || (if s.fb (Q_GCFG p g) Q_GCFG.RSP then res + rn > 0x2000000 else !inScr p res rn s)
    if qKind p n s ≠ 3 ∨ bad then some (5, n) else none

/-! Reset of a queue unit (R267, Table 8-7) -/

/-- Entries of a core's queues not completed. -/
def qTotal (p : Nat) (s : State) : Nat := (List.range 64).foldl (fun a n => a + qOcc p n s) 0

/-- The work a core's engines are cut short in (R186, R257): the running queued descriptor and the running MOVE complete ABORTED. -/
def cutWork (p : Nat) (s : State) : State :=
  let s := match (s.core p).mac.job, engTaken p .dense s with
    | some d, some t => denseAbort p d t s
    | _, _ => s
  match engTaken p .move s with
  | some t => if t.code = cOK then moveEnd p false t s else s
  | none => s
/-- A core reset or takeover (R186, R267): running work is cut short, the outbound buffer discarded; the packets of the input buffer
complete ABORTED and those the router held follow into it; rings empty without records, pointers and sequences restart. -/
def queueReset (p : Nat) (s : State) : State :=
  let s := outReset p (cutWork p s)
  let x := (s.core p).q
  let s := x.inBuf.foldl (fun s d => qAnswer p d cABORTED s) s
  let s := (macAbort p s).inc (Q_RESET_DROP p) (qTotal p s)
  let s := (List.range 64).foldl (fun s n =>
    ((s.wr (Q_PTR p n) 0).fs (Q_STAT p n) Q_STAT.OCC 0).fs (Q_STAT p n) Q_STAT.HELD 0) s
  s.setQ p { inBuf := x.held.take 4, held := x.held.drop 4 }
/-- The core of slot `p` is gone: every packet that waits there is answered as R43 states (R220). -/
def queueGone (p : Nat) (s : State) : State :=
  let x := (s.core p).q
  ((x.inBuf ++ x.held).foldl (fun s d => qAnswer p d cREFUSED s) s).setQ p {}

end Sys2Proof.Machine
end

