-- ==== Sys2Proof/Machine/Wipe.lean ====
section
/-! DEFINITION. Power states of clusters, pins and device states; what a device reset and Standby return to reset (R397, R405,
R431, R433). -/
namespace Sys2Proof.Machine

/-! Power state of a cluster (Table 13-3) -/

/-- PWR_CL_STATE and CLA_PWR_STAT follow one another. -/
def State.setClPwr (c v : Nat) (s : State) : State :=
  (s.wr (PWR_CL_STATE (c / 16)) (setBits (s.rd (PWR_CL_STATE (c / 16))) (2 * (c % 16)) 2 v)).fs (CLA_PWR_STAT c) CLA_PWR_STAT.STATE v
/-- Whether cluster `c` runs on its fast oscillator. -/
def State.setOsc (c : Nat) (v : Bool) (s : State) : State :=
  (s.wr64 CLK_CL_OSC (setBits (s.rd64 CLK_CL_OSC) c 1 (b2n v))).fs (CLA_PWR_STAT c) CLA_PWR_STAT.ON_OSC (b2n v)

/-! Pins (chapter 17): codes of the model -/

def pinPPS_IN : Nat := 0
def pinPPS_OUT : Nat := 1
def pinSYNC_IN : Nat := 2
def pinPWR_EN : Nat := 3
def pinPERST_N : Nat := 4
def pinBRD_RST_N : Nat := 5
def pinSB_ALERT_N : Nat := 6
def pinSB_SDA : Nat := 7
/-- SB_ADDR[n]. -/
def pinSB_ADDR (n : Nat) : Nat := 8 + n
/-- Levels before anything drives a pin: PWR_EN high, the active-low inputs and open-drain outputs high (log entry 3). -/
def pinRest (n : Nat) : Bool := decide (3 ≤ n ∧ n ≤ 7)
def State.pin (s : State) (n : Nat) : Bool := sget pinRest n s.dev.pins
def State.setPin (n : Nat) (v : Bool) (s : State) : State := { s with dev := { s.dev with pins := sset pinRest n v s.dev.pins } }
/-- The device drives an output pin. -/
def State.drive (n : Nat) (v : Bool) (s : State) : State := (s.setPin n v).emit (.pin n v)

/-! Device states (Table 12-1) -/

def dsStandby : Nat := 0
def dsBringup : Nat := 1
def dsReady : Nat := 2
def dsServing : Nat := 3
def dsDraining : Nat := 4
def dsFaultHold : Nat := 5
def State.devState (s : State) : Nat := s.fv GLB_DEV_STATE GLB_DEV_STATE.STATE
def State.setDevState (v : Nat) (s : State) : State := s.fs GLB_DEV_STATE GLB_DEV_STATE.STATE v

/-! Views of the persistent store -/

/-- A 32-bit little-endian word of an image. -/
def imgW (b : List Byte) (o : Nat) : Nat := leNat ((b.drop o).take 4)
/-- PAT_SLOT_k follows the stored pattern. -/
def showSlot (k : Nat) (s : State) : State :=
  match sget (fun _ => none) k s.pers.slots with
  | none => ((s.wr (PAT_SLOT k) 0).wr (PAT_SLOT_LEN k) 0).wr64 (PAT_SLOT_PID k) 0
  | some p => ((s.wr (PAT_SLOT k) (1 + p.inst * 2 ^ 4 + imgW p.image 40 % 256 * 2 ^ 8)).wr (PAT_SLOT_LEN k) (imgW p.image 8)).wr64 (PAT_SLOT_PID k)
      (imgW p.image 16 + imgW p.image 20 * 2 ^ 32)
/-- The image of component `c` that the store holds before any update. -/
def factoryFw (c : Nat) : Option FwImg := some ⟨0, 0, [0, 0, 0, 0], Config.factoryDigest c⟩
def fwCur (c : Nat) (s : State) : Option FwImg := sget factoryFw c s.pers.fwCur
def fwLkg (c : Nat) (s : State) : Option FwImg := sget factoryFw c s.pers.fwLkg
def fwPend (c : Nat) (s : State) : Option FwImg := sget (fun _ => none) c s.pers.fwPend
def minSvn (c : Nat) (s : State) : Nat := sget (fun _ => 0) c s.pers.minSvn
/-- MGT_FW_ registers of component `c` follow the store. -/
def showFw (c : Nat) (s : State) : State :=
  let v := fun (x : Option FwImg) => (x.map (·.version)).getD 0
  (((s.wr (MGT_FW_CUR (c - 1)) (v (fwCur c s))).wr (MGT_FW_LKG (c - 1)) (v (fwLkg c s))).wr (MGT_FW_PEND (c - 1)) (v (fwPend c s))).wr
    (MGT_FW_SVN (c - 1)) (((fwCur c s).map (·.svn)).getD 0 % 256 + minSvn c s % 256 * 2 ^ 8)
/-- Registers and views kept in the persistent store. -/
def loadStore (s : State) : State :=
  let s := s.pers.regs.foldl (fun s x => s.wr x.1 x.2) s
  [1, 2, 3, 4].foldl (fun s c => showFw c s) ((List.range 4).foldl (fun s k => showSlot k s) s)

/-! What a device reset returns to reset (R397, R405, R433) -/

/-- A register lies in AON and is kept through Standby: PWR_ registers, time and the timers (R433). -/
def aonReg (k : Nat) : Bool := decide (0x20000 ≤ k ∧ k < 0x20800) || decide (0x30800 ≤ k ∧ k < 0x32000)
/-- What of the clusters a device reset keeps: fuses, and the failures the log records (R32). -/
def keepClusters (l : SMap ClusterSt) : SMap ClusterSt :=
  (l.map fun x =>
    let c : ClusterSt := { failed := x.2.failed, fused := x.2.fused, fusedSlots := x.2.fusedSlots, fusedSegs := x.2.fusedSegs, failedSegs := x.2.failedSegs }
    (x.1, c)).filter fun x => decide (x.2 ≠ {})
/-- Everything but the persistent store and the fuses at its reset value; `aon` keeps what Standby keeps. -/
def wiped (aon : Bool) (s : State) : State :=
  let d := s.dev
  let kept : DevSt := { fusedJlk := d.fusedJlk, fusedEth := d.fusedEth, pins := d.pins }
  let hold := s.fv PWR_DEV_CTRL PWR_DEV_CTRL.HOLD
  let feeds := s.fv PWR_FEED_STAT ⟨0, 4, .ro, 0⟩
  let s' : State := { State.reset with
    regs := if aon then s.regs.filter (fun x => aonReg x.1) else []
    clusters := keepClusters s.clusters
    dev := if aon then { kept with tfrac := d.tfrac, slewLeft := d.slewLeft, lockRun := d.lockRun, todWrites := d.todWrites, todBase := d.todBase, ppsSec := d.ppsSec, tmrFrac := d.tmrFrac, tmrFired := d.tmrFired } else kept
    memc := { cells := s.memc.cells, devKey := s.memc.nextKey, nextKey := s.memc.nextKey + 1 }
    pers := s.pers
    power := { tempHold := s.power.tempHold, hostRst := s.power.hostRst, standbyPend := s.power.standbyPend, sbAddr := s.power.sbAddr }
    mgmt := { wdResets := s.mgmt.wdResets, cage := s.mgmt.cage }
    cpl := s.cpl, out := s.out, fresh := s.fresh, pending := s.pending }
  let s' := if aon then s' else (s'.fs PWR_DEV_CTRL PWR_DEV_CTRL.HOLD hold).fs PWR_FEED_STAT ⟨0, 4, .ro, 0⟩ feeds
  loadStore s'

/-- The device goes to Standby (R431): every domain but AON is off; what AON holds stays. -/
def enterStandby (s : State) : State :=
  let s := wiped true s
  let s := (List.range 64).foldl (fun s c => s.setClPwr c 3) s
  let s := ((s.wr PWR_STATUS 0).wr PWR_WAKE_CAUSE 0).fs PWR_REQ_STAT ⟨0, 3, .ro, 0⟩ 0
  let s := { s with power := { s.power with standbyPend := false }, dev := { s.dev with hubDown := true } }
  s.setDevState dsStandby

end Sys2Proof.Machine
end

