-- ==== Sys2Proof/Machine/Common.lean ====
section
/-! DEFINITION. Operations shared by the families: participants, power state of a cluster, wake, fault records and the
rights of a requester over a core or a cluster. -/
namespace Sys2Proof.Machine

/-! Participants (R191) -/

/-- PCIDs of the participants of instance `i` on this device. -/
def State.partCores (s : State) (i : Nat) : List Nat := (s.inst i).parts.filterMap s.pcidOf
/-- PCIDs of the participants in cluster `c`. -/
def State.clParts (s : State) (c : Nat) : List Nat :=
  match s.clInst c with
  | some i => (s.partCores i).filter fun p => p / 32 == c
  | none => []
/-- All slots of a cluster. -/
def clSlots (c : Nat) : List Nat := (List.range 17).map fun k => 32 * c + k

/-- The cluster has failed or its domain is off: its units answer as R43 states (R417). -/
def State.clGone (s : State) (c : Nat) : Bool := (s.cluster c).dead || (s.cluster c).fused || s.clPwr c ≥ 2
/-- Slot failed, or gone with its cluster. -/
def State.slotGone (s : State) (p : Nat) : Bool :=
  s.clGone (p / 32) || (s.cluster (p / 32)).failed.contains (p % 32) || (s.cluster (p / 32)).fusedSlots.contains (p % 32)
/-- A wake from Doze (R423 steps 1–3): fast oscillator, selvedge open, each dozing core Idle with HALTED unchanged. -/
def clusterWake (c : Nat) (s : State) : State :=
  if s.clPwr c = 1 then
    let s := (s.setClPwr c 0).setOsc c true
    (clSlots c).foldl (fun s p => if coreState p s = stDoze then s.fs (CORE_STATE p) CORE_STATE.STATE stIdle else s) s
  else s

/-! Device states (Table 12-1) -/

/-- Ready and Serving follow the step states of the instances; a Standby request that waits is made in Ready (R517). -/
def servState (s : State) : State :=
  let any := (List.range 16).any fun i => s.fb (STEP_STATUS i) STEP_STATUS.STATE
  if s.devState = dsReady ∧ any then s.setDevState dsServing
  else if s.devState = dsServing ∧ any = false then
    let s := s.setDevState dsReady
    if s.power.standbyPend then enterStandby s else s
  else s
/-- SB_ALERT_N is low while a CRIT bit is set or the device is in Fault-Hold (Table 17-1). -/
def alertPin (s : State) : State :=
  let low := s.devState == dsFaultHold || (List.range 16).any fun n => s.fb (MGT_SENS n) MGT_SENS.CRIT
  if s.pin pinSB_ALERT_N = low then s.drive pinSB_ALERT_N !low else s
/-- The device enters Fault-Hold (R393, R457); a Standby request that waits is made now (R517). -/
def faultHold (cause : Nat) (s : State) : State :=
  let s := (s.setDevState dsFaultHold).fs MGT_BOOT_STAT MGT_BOOT_STAT.FHCAUSE cause
  let s := alertPin (s.log 0x01 none [s.rd GLB_DEV_STATE, s.rd MGT_BOOT_STAT])
  if s.power.standbyPend then enterStandby s else s

/-! Instance states (R469) -/

/-- An ownership write or a load names instance `i`: a Free instance becomes Active (R469). -/
def activate (i : Nat) (s : State) : State :=
  if s.fv (SEC_INST i) SEC_INST.STATE = 0 then s.fs (SEC_INST i) SEC_INST.STATE 1 else s
/-- The instance is being reset, fenced or cleared (R470). -/
def resetting (i : Nat) (s : State) : Bool := decide (s.fv (SEC_INST i) SEC_INST.STATE ≥ 2)
/-- A pattern load holds instance `i` (Table 11-5 step 3). -/
def loading (i : Nat) (s : State) : Bool := s.fv (PAT_INST i) PAT_INST.STATE == 1 && !s.dev.loader
/-! Rights over a core port and a cluster window (R20, R45, R86, R472, R536) -/

/-- The requester is entitled to the units of instance `i` (none: held by no instance) (R20). -/
def entitled (q : Req) (i : Option Nat) : Bool :=
  match q with
  | .vf v => i == some v.val
  | _ => true
/-- A write that the filters of a confidential instance turn away (R472). -/
def confWrite (q : Req) (i : Option Nat) (write : Bool) (s : State) : Bool := write && !isVf q && i.any s.conf
/-- A write to what instance `i` holds while a load holds that instance (Table 11-5 step 3). -/
def heldWrite (i : Option Nat) (write : Bool) (s : State) : Bool := write && i.any fun n => loading n s

/-- Why requester `q` may not access the core port of PCID `p`: the code, and whether it completes at 2 µs. The order is R19's. -/
def coreGuard (q : Req) (p : Nat) (write : Bool) (s : State) : Option (Nat × Bool) :=
  if !entitled q (s.clInst (p / 32)) || confWrite q (s.clInst (p / 32)) write s then some (cREFUSED, true)
  else if s.slotGone p then some (if isVf q then (cREFUSED, true) else (cUNSUPPORTED, false))
  else if heldWrite (s.clInst (p / 32)) write s then some (cRETRY, false)
  else none
/-- Perform an access to a core port under its rights; a configuration access wakes a dozing cluster (Table 13-4). `bad`: the value
written is malformed. -/
def onCore (q : Req) (p : Nat) (write : Bool) (f : State → State) (s : State) (bad : Bool := false) : State := s.gate q 9 fun s =>
  match coreGuard q p write s with
  | some (code, true) => s.done q code [] true
  | some (code, false) => s.late q (code == cUNSUPPORTED) bad true (fun s => f (clusterWake (p / 32) s))
  | none => f (clusterWake (p / 32) s)
/-- Perform a cluster window access: `vfWrite` when a virtual function may write the register. -/
def onCluster (q : Req) (c : Nat) (write vfWrite confOk : Bool) (f : State → State) (s : State) (bad : Bool := false) : State := s.gate q 9 fun s =>
  if !entitled q (s.clInst c) then s.cross q
  else if isVf q && write && !vfWrite then s.done q cREFUSED [] false
  else if !confOk && confWrite q (s.clInst c) write s then s.cross q
  else if isVf q && s.clGone c then s.cross q
  else s.late q (s.clGone c) bad (heldWrite (s.clInst c) write s) f
/-- An access to something of instance `i`: its own virtual function, the physical function, the fabric manager and the
management processor reach it; a write to a confidential instance by another than its virtual function is filtered unless
`confOk` (R20, R472). -/
def onInst (q : Req) (i : Nat) (write confOk : Bool) (f : State → State) (s : State) : State := s.gate q 6 fun s =>
  if !entitled q (some i) then s.cross q
  else if !confOk && confWrite q (some i) write s then s.cross q
  else s.late q false false (heldWrite (some i) write s) f
/-- A device-wide register closed to virtual functions. -/
def onDev (q : Req) (f : State → State) (s : State) : State := s.gate q 6 fun s => if isVf q then s.cross q else f s

end Sys2Proof.Machine
end

