-- ==== Sys2Proof/Machine/Mirror.lean ====
section
/-! DEFINITION. The basting mirror (R108–R115, R82) and the commit writes of a core (R111, R112). -/
namespace Sys2Proof.Machine

def mirM (p : Nat) (s : State) : Nat := s.fv (CORE_MIR_BASE p) CORE_MIR_BASE.BASE
def mirQ (p : Nat) (s : State) : Nat := s.ncomp p / 32
/-- First word of copy set `k` (0 = A, 1 = B): its selector; NXT follows (R108). -/
def mirSet (p k : Nat) (s : State) : Nat := mirM p s + 8 + 2 * mirQ p s * k
/-- First word of compartment `c`'s record in bank `b` (R108). -/
def mirRec (p b c : Nat) (s : State) : Nat := mirM p s + 8 + 4 * mirQ p s + 3 * s.ncomp p * b + 3 * c
/-- CUR and Z of the MCB. -/
def mcbCur (p : Nat) (s : State) : Nat := bits (s.segW p (mirM p s)) 0 1
def mcbZ (p : Nat) (s : State) : Bool := bit (s.segW p (mirM p s)) 1
/-- The checked 62 bits of an MCB (R109). -/
def mcbData (w0 w1 w2 : Nat) : Nat := w0 % 2 ^ 14 + w1 % 2 ^ 32 * 2 ^ 14 + w2 % 2 ^ 16 * 2 ^ 46
/-- CRC of copy set `k` (R109). -/
def mirCrc (p k : Nat) (s : State) : Nat :=
  crc32 (wordBytes ((List.range (2 * mirQ p s)).map fun i => s.segW p (mirSet p k s + i)))
/-- The current selector bit of compartment `c` (R110). -/
def mirSel (p c : Nat) (s : State) : Bool :=
  !mcbZ p s && (s.segW p (mirSet p (mcbCur p s) s + c / 32)).testBit (c % 32)

/-- Write compartment `c`'s record into bank `b` (R109). -/
def basteRec (p b c : Nat) (s : State) : State :=
  let (w0, s) := s.rdSram p (0xB000 + 8 * c)
  let (w1, s) := s.rdSram p (0xB000 + 8 * c + 4)
  if s.faulted p then s else
  let r := mirRec p b c s
  ((s.wrSeg p r w0).wrSeg p (r + 1) w1).wrSeg p (r + 2) (rdStamp p c s + secEnc 32 w0 * 2 ^ 16 + secEnc 32 w1 * 2 ^ 23)

/-- Write the MCB line: CUR, Z, the step, the CRC of set `cur` when given, and the reserved words 0 (R109, R111). -/
def wrMcb (p cur : Nat) (z : Bool) (step : Nat) (crc : Option Nat) (s : State) : State :=
  let m := mirM p s
  let w0 := cur + b2n z * 2 + (s.ncomp p / 256 - 1) * 2 ^ 8
  let w2 := step / 2 ^ 32 % 2 ^ 16
  let s := ((s.wrSeg p m w0).wrSeg p (m + 1) (step % 2 ^ 32)).wrSeg p (m + 2) (w2 + secEnc 62 (mcbData w0 (step % 2 ^ 32) w2) * 2 ^ 16)
  let s := ((s.wrSeg p (m + 5) 0).wrSeg p (m + 6) 0).wrSeg p (m + 7) 0
  match crc with
  | some v => s.wrSeg p (m + 3 + cur) v
  | none => s

/-- STEP = "any step". -/
def anyStep : Nat := 0xFFFFFFFFFFFF

/-- The words of the bitmap at offset `b` below NCOMP as their checked reads give them (R49). -/
def bitWords (p b : Nat) (s : State) : List Nat × State :=
  (List.range (mirQ p s)).foldl (fun (q : List Nat × State) i =>
    let (w, s) := q.2.rdSram p (b + 4 * i)
    (q.1 ++ [w], s)) ([], s)

/-- The basting of a release (R82, R114): the records, NXT into copy set A, the MCB. -/
def basteAll (p : Nat) (s : State) : State :=
  let s := (List.range (s.ncomp p)).foldl (fun s c => if s.faulted p then s else basteRec p 0 c s) s
  let (nxt, s) := if s.faulted p then ([], s) else bitWords p oNXT s
  if s.faulted p then s else
  let q := mirQ p s
  let a := mirSet p 0 s
  let s := (List.range q).foldl (fun s i => s.wrSeg p (a + q + i) (nxt.getD i 0)) s
  let s := wrMcb p 0 true anyStep (some (mirCrc p 0 s)) s
  let s := s.clrSram p oDIRTY 0x400
  s.setCore p { s.core p with basted := [] }

/-- The lines of the current selector are read before a basting, none while Z = 1 (R110). A failed transfer is a mirror failure; the
selector is used as it stands (log entry 69). -/
def selRead (p : Nat) (s : State) : State :=
  if mcbZ p s then s else
  let (good, s) := s.segRun p (mirSet p (mcbCur p s) s) (mirQ p s)
  if good then s else s.inc (CORE_MIR_CHKERR p) 1

/-- The basting of a close: every DIRTY compartment into the bank its selector does not name; DIRTY is cleared (R110). -/
def basteClose (p : Nat) (s : State) : State :=
  let s := selRead p s
  (List.range (s.ncomp p)).foldl (fun s c =>
    if s.faulted p then s else
    let (d, s) := s.rdBit p oDIRTY c
    if s.faulted p || !d then s else
    let s := basteRec p (1 - b2n (mirSel p c s)) c s
    if s.faulted p then s else
    let k := s.core p
    (s.wrBit p oDIRTY c false).setCore p { k with basted := k.basted ++ [c] }) s

/-- The writes of R111 at the commit of `t`; none by a core that stops on a bad word of NXT. -/
def commitMirror (p t : Nat) (s : State) : State :=
  let (nxt, s) := bitWords p oNXT s
  if s.faulted p then s else
  let q := mirQ p s
  let cur := mcbCur p s
  let z := mcbZ p s
  let b := (s.core p).basted
  let a := mirSet p cur s
  let (same, s) := s.segRun p (a + q) q
  let s := if same then s else s.inc (CORE_MIR_CHKERR p) 1
  if b = [] ∧ nxt = (List.range q).map (fun i => s.segW p (a + q + i)) then wrMcb p cur z (t + 1) none s
  else
    let n := mirSet p (1 - cur) s
    let s := (List.range q).foldl (fun s i =>
      let old := if z then 0 else s.segW p (a + i)
      let flip := (List.range 32).foldl (fun v j => if b.contains (32 * i + j) then v + 2 ^ j else v) 0
      (s.wrSeg p (n + i) (old ^^^ flip)).wrSeg p (n + q + i) (nxt.getD i 0)) s
    let s := wrMcb p (1 - cur) false (t + 1) (some (mirCrc p (1 - cur) s)) s
    s.setCore p { s.core p with basted := [] }

/-- What step 1 of R115 finds: CUR and Z when the mirror is usable for the replay of `step`. -/
def mirValidate (p step : Nat) (s : State) : Option (Nat × Bool) × State :=
  let m := mirM p s
  let (r0, s) := s.segRun p m 8
  let (w0, w1, w2) := (s.segW p m, s.segW p (m + 1), s.segW p (m + 2))
  match if r0 then (secDec 62 (mcbData w0 w1 w2) (bits w2 16 8)).1 else none with
  | none => (none, s.inc (CORE_MIR_CHKERR p) 1)
  | some d =>
    let k := bits d 0 1
    let (r1, s) := s.segRun p (mirSet p k s) (2 * mirQ p s)
    if r1 && mirCrc p k s == s.segW p (m + 3 + k) && bits d 8 5 == s.ncomp p / 256 - 1
        && (bits d 14 48 == anyStep || bits d 14 48 == step) then (some (k, bit d 1), s)
    else (none, s.inc (CORE_MIR_CHKERR p) 1)

/-- Set the words and the stamp of compartment `c`. -/
def setComp (p c w0 w1 st : Nat) (s : State) : State :=
  wrStamp p c st ((s.wrSram p (0xB000 + 8 * c) w0).wrSram p (0xB000 + 8 * c + 4) w1)
/-- Reload compartment `c` from its record at word `r` (R115 step 2): one that cannot be read restores it disabled. `x` is the line
read last. -/
def reloadRec (p c r : Nat) (x : Tx) (s : State) : Tx × State :=
  let (x0, s) := s.tx p r x
  let (x2, s) := s.tx p (r + 2) x0
  let v := s.segW p (r + 2)
  let (a, b) := ((secDec 32 (s.segW p r) (bits v 16 7)).1, (secDec 32 (s.segW p (r + 1)) (bits v 23 7)).1)
  match if x0.good && x2.good then (a, b) else (none, none) with
  | (some a, some b) => (x2, setComp p c a b (v % 65536) s)
  | _ => (x2, (setComp p c 0 0 0xFFFF s).inc (CORE_MIR_CHKERR p) 1)

/-- Restore from the mirror (R115) for the replay of `step`; `full` for a spare that adopts the segment. Whether the mirror
was unusable: then every compartment restores disabled (R455). -/
def mirRestore (p step : Nat) (full : Bool) (s : State) : Bool × State :=
  let (v, s) := mirValidate p step s
  let b := (s.core p).basted
  let s := match v with
    | some (cur, z) =>
      let (dirty, s) : List Nat × State := if full then ([], s) else bitWords p oDIRTY s
      let reload := (List.range (s.ncomp p)).filter fun c => full || b.contains c || (dirty.getD (c / 32) 0).testBit (c % 32)
      let (_, s) := reload.foldl (fun (q : Tx × State) c =>
        let sel := !z && (q.2.segW p (mirSet p cur q.2 + c / 32)).testBit (c % 32)
        reloadRec p c (mirRec p (b2n sel) c q.2) q.1 q.2) ({}, s)
      (List.range (mirQ p s)).foldl (fun (s : State) i => s.wrSram p (oNXT + 4 * i) (s.segW p (mirSet p cur s + mirQ p s + i))) s
    | none =>
      let s := (List.range (s.ncomp p)).foldl (fun s c => setComp p c 0 0 0xFFFF s) s
      s.clrSram p oNXT 0x400
  let s := ((s.clrSram p oACT 0x400).clrSram p oDIRTY 0x800).clrSram p (inAddr p 0 s) (4 * s.ncomp p)
  (v.isNone, s.setCore p { s.core p with basted := [] })

end Sys2Proof.Machine
end

