-- ==== Sys2Proof/Machine/Net.lean ====
section
/-! DEFINITION. The hops of the data network: headers and flits (R223, R226), the outputs of the switches with their virtual channels,
credits and arbitration (R231, R232, R235), the spine and hop retry buffers (R238–R240). -/
namespace Sys2Proof.Machine

/-! Endpoints (Table 7-2) -/

/-- The endpoint of a cluster, and that of the port a rank port map value names (R311, R342). -/
def epCluster (c : Nat) : Nat := 0x40 + c
def epPort (n : Nat) : Nat := if n < 12 then 0x14 + n else 0x11 + (n - 12)
/-- The leaf of an endpoint. -/
def leafOf (e : Nat) : Nat := if e < 0x20 then e / 2 else if e < 0x80 then (e - 0x40) / 4 else (e - 0x80) / 4
/-- Endpoint `e` is reserved, or its unit is fused, failed or unreachable (R220, R238). -/
def epGone (e : Nat) (s : State) : Bool :=
  if (0x20 ≤ e ∧ e < 0x40) ∨ e ≥ 0xC0 then true
  else if s.net.lanesOut.any (fun l => match l with | .endpoint x => x.toNat == e | _ => false) then true
  else if 0x40 ≤ e ∧ e < 0x80 then
    s.clGone (e - 0x40) || (List.range 2).all fun n => s.net.lanesOut.any fun l => match l with
      | .cluster d k => d.val == e - 0x40 && k.val == n
      | _ => false
  else if e ≥ 0x80 then s.fb (SHM_SL_STAT (e - 0x80)) SHM_SL_STAT.FAILED
  else if 0x14 ≤ e then s.dev.fusedJlk.contains (e - 0x14)
  else if 0x12 ≤ e then s.dev.fusedEth.contains (e - 0x12)
  else false

/-! Headers and flits -/

/-- The virtual channels (Table 7-5). -/
def vcMGT : Nat := 0
def vcRSP : Nat := 1
def vcREQ : Nat := 2
def vcEVT : Nat := 3
/-- RCHK of a header over [56:0] (R223). -/
def hdrSeal (h : Nat) : Nat := setBits h 57 7 (secEnc 57 (h % 2 ^ 57))
/-- RHDR64 of an event packet (Table 7-3). -/
def evtHdr (dep sep inst hpar sstep5 scl : Nat) (rem : Bool) (rank : Nat) : Nat :=
  hdrSeal (dep % 256 + sep % 256 * 2 ^ 8 + vcEVT * 2 ^ 16 + inst % 16 * 2 ^ 18 + hpar % 2 * 2 ^ 30 + sstep5 % 32 * 2 ^ 32
    + scl % 64 * 2 ^ 37 + b2n rem * 2 ^ 43 + rank % 4096 * 2 ^ 44)
/-- The hash of R222 and the spine of a header. -/
def spineHash (h : Nat) : Nat := (bits h 8 4 + bits h 12 4 + bits h 0 4 + bits h 4 4) % 16
def spineOf (h : Nat) (s : State) : Nat := bits (s.rd64 DNET_SPMAP) (4 * spineHash h) 4
/-- CRC-16 of the hop framing: over the flit and, after it, its slot-valid bits (R226). -/
def flitCrc (data valid : Nat) : Nat := crc16 (leBytes 32 data ++ leBytes 1 valid)
/-- A flit as an output sends it. -/
def flitOut (o sp seq data valid : Nat) : Output := .flit o sp seq data valid (flitCrc data valid)
/-- The flit of one event packet that endpoint `e` injects. -/
def evFlit (e hdr ev : Nat) : Output := flitOut (768 + e) 0 0 (hdr + ev * 2 ^ 64) 1
/-- The flits of a unit: data and slot-valid bits. -/
def NUnit.flits (u : NUnit) : List (Nat × Nat) :=
  match u.second with
  | some (h, e) => [(u.hdr + u.body.headD 0 * 2 ^ 64 + h * 2 ^ 128 + e * 2 ^ 192, 3)]
  | none => (List.range u.n).map fun i =>
      let w := fun k => (u.hdr :: u.body).getD (4 * i + k) 0
      (w 0 + w 1 * 2 ^ 64 + w 2 * 2 ^ 128 + w 3 * 2 ^ 192, 1)
/-- The unit of one received packet; an event packet is half a flit, another packet LEN + 1 flits. -/
def unitOf (hdr : Nat) (body : List Nat) (inl sp seq : Nat) : NUnit :=
  { hdr, body, vc := bits hdr 16 2, flow := if bit hdr 31 then 16 else bits hdr 18 4,
    n := if bits hdr 22 4 = 0 then 1 else bits hdr 26 4 + 1, inl, sp, seq }

/-! Buffers and credits (Table 7-6) -/

def State.setNet (x : NetSt) (s : State) : State := { s with net := x }
def State.netOut (s : State) (o : Nat) : OutSt := sget (fun _ => {}) o s.net.outs
def State.setOut (o : Nat) (x : OutSt) (s : State) : State := s.setNet { s.net with outs := sset (fun _ => {}) o x s.net.outs }
def State.netReplay (s : State) (k : Nat) : List RepFlit := sget (fun _ => []) k s.net.replay
def State.setReplay (k : Nat) (l : List RepFlit) (s : State) : State :=
  s.setNet { s.net with replay := sset (fun _ => []) k l s.net.replay }

/-- The input lanes: lane `n` of endpoint `e` at its leaf; spine `sp` at leaf `l`; leaf `l` at spine `sp`. -/
def inEp (e n : Nat) : Nat := 2 * e + n
def inLeaf (l sp : Nat) : Nat := 512 + 16 * l + sp
def inSpine (sp l : Nat) : Nat := 768 + 16 * sp + l
/-- Flits of virtual channel `vc` in the buffer of an input lane. -/
def inUsed (inl vc : Nat) (s : State) : Nat :=
  s.net.outs.foldl (fun a x => x.2.wait.foldl (fun a u => if u.inl = inl ∧ u.vc = vc then a + u.n else a) a) 0
/-- A switch input buffer has room for `n` flits of virtual channel `vc`: 4 flits are reserved for MGT, 8 each for RSP, REQ and EVT,
68 are shared by those three. -/
def roomIn (inl vc n : Nat) (s : State) : Bool :=
  if vc = vcMGT then decide (inUsed inl vc s + n ≤ 4) else
  let shared := [vcRSP, vcREQ, vcEVT].foldl (fun a v => a + ((inUsed inl v s + if v = vc then n else 0) - 8)) 0
  decide (shared ≤ 68)

/-- The lane of a cluster's port that carries a packet: lanes are shared by pairs of endpoints, so pair order is kept (R222). -/
def clLane (c h : Nat) (s : State) : Nat :=
  let n := spineHash h % 2
  if s.net.lanesOut.any (fun l => match l with | .cluster d k => d.val == c && k.val == n | _ => false) then 1 - n else n
def epLane (e h : Nat) (s : State) : Nat := if 0x40 ≤ e ∧ e < 0x80 then clLane (e - 0x40) h s else 0
/-- The output of leaf `leafOf e` toward endpoint `e` (Table 7-13). -/
def outOfEp (e h : Nat) (s : State) : Nat :=
  32 * leafOf e + (if e < 0x20 then 28 + e % 2 else if e < 0x80 then 16 + 2 * ((e - 0x40) % 4) + epLane e h s else 24 + (e - 0x80) % 4)
/-- The lane that output `o` drives, and its direction. -/
def laneOfOut (o h : Nat) (s : State) : Lane × Bool :=
  if o ≥ 768 then
    (if 0x40 ≤ o - 768 ∧ o - 768 < 0x80 then .cluster (Fin.ofNat 64 (o - 768 - 0x40)) (Fin.ofNat 2 (clLane (o - 768 - 0x40) h s))
      else .endpoint (BitVec.ofNat 8 (o - 768)), true)
  else if o ≥ 512 then (.spine (Fin.ofNat 16 (o % 16)) (Fin.ofNat 16 ((o - 512) / 16)), false)
  else if o % 32 < 16 then (.spine (Fin.ofNat 16 (o / 32)) (Fin.ofNat 16 (o % 32)), true)
  else if o % 32 < 24 then (.cluster (Fin.ofNat 64 (4 * (o / 32) + (o % 32 - 16) / 2)) (Fin.ofNat 2 (o % 2)), false)
  else (.endpoint (BitVec.ofNat 8 (if o % 32 < 28 then 0x80 + 4 * (o / 32) + o % 32 - 24 else 2 * (o / 32) + o % 32 - 28)), false)
/-- Flits go out on a lane: the last 16 stay in its hop retry buffer (R238). -/
def hopKeep (l : Lane × Bool) (f : List (Nat × Nat)) (s : State) : State :=
  let old := ((s.net.hop.find? fun x => x.1 == l).map (·.2)).getD []
  let all := old ++ f
  s.setNet { s.net with hop := (l, all.drop (all.length - 16)) :: s.net.hop.filter fun x => x.1 != l }

/-- Delivery position of an event (R227). -/
def evPos (ev : Nat) : Nat := bits ev 48 4
/-- An endpoint takes a unit: a cluster router whose delivery queues have room (R236), a core's queue unit that grants REQ credit
(R260), a slice whose arrival queue is not full (R276), an egress port or a Jarisk port that withholds no credit (R343, R320, R329). -/
def epRoom (e : Nat) (u : NUnit) (s : State) : Bool :=
  if 0x40 ≤ e ∧ e < 0x80 then
    let x := s.cluster (e - 0x40)
    if bits u.hdr 22 4 = 0 then
      x.spill.isEmpty && ((u.body.headD 0) :: (u.second.map (·.2)).toList).all fun ev => decide ((sget (fun _ => []) (evPos ev) x.dlv).length < 16)
    else if u.vc = vcREQ then
      (match s.pcidOf (bits (u.body.headD 0) 0 18 / 64) with
        | some p => (s.core p).q.held.isEmpty
        | none => true)
    else true
  else if e ≥ 0x80 ∧ u.vc = vcREQ then decide ((s.slice (e - 0x80)).queue.length < 64)
  else if 0x11 ≤ e ∧ e < 0x14 ∧ u.vc = vcEVT then (sget (fun _ => []) (e - 0x11) s.host.held).isEmpty
  else if 0x14 ≤ e ∧ e < 0x20 then (sget (fun _ => []) u.vc (sget (fun _ => {}) (e - 0x14) s.jports).held).isEmpty
  else true
/-- The next hop of output `o` grants a credit for unit `u`. -/
def outCredit (o : Nat) (s : State) (u : NUnit) : Bool :=
  if o ≥ 512 then roomIn (inLeaf (o % 16) ((o - 512) / 16)) u.vc u.n s
  else if o % 32 < 16 then
    decide ((s.netReplay (16 * (o / 32) + o % 32)).length + u.n ≤ 64) && roomIn (inSpine (o % 32) (o / 32)) u.vc u.n s
  else epRoom (bits u.hdr 0 8) u s

/-! Arbitration of an output (R232) -/

/-- The weight of a flow. -/
def flowWeight (f : Nat) (s : State) : Nat :=
  if f < 16 then s.fv (DNET_SHARE f) DNET_SHARE.WEIGHT else s.fv DNET_SHARE_TR DNET_SHARE_TR.WEIGHT
/-- Deficit round robin from flow `f` on: a flow earns its weight at each visit and pays `cost` a flit. -/
def drrGo (w : Nat → Nat) (cost vc : Nat) (heads : List NUnit) : Nat → Nat → SMap Nat → Option (NUnit × SMap Nat)
  | 0, _, _ => none
  | k + 1, f, d =>
    match heads.find? fun u => u.flow == f % 17 with
    | none => drrGo w cost vc heads k (f + 1) d
    | some u =>
      let key := 32 * vc + u.flow
      let v := sget (fun _ => 0) key d + w u.flow
      if v ≥ u.n * cost then some (u, sset (fun _ => 0) key (v - u.n * cost) d)
      else drrGo w cost vc heads k (f + 1) (sset (fun _ => 0) key v d)
/-- The oldest unit of each flow on virtual channel `vc` that holds a credit. -/
def vcHeads (x : OutSt) (cr : NUnit → Bool) (vc : Nat) : List NUnit :=
  ((List.range 17).filterMap fun f => x.wait.find? fun u => u.vc == vc && u.flow == f).filter cr
/-- The virtual channel served: MGT; EVT, but the fourth flit cycle goes to RSP or REQ that have waited through three; RSP before REQ
under the same rule. -/
def vcPick (x : OutSt) (has : Nat → Bool) : Option Nat :=
  let data := has vcRSP || has vcREQ
  if has vcMGT then some vcMGT
  else if has vcEVT && !(data && decide (x.low ≥ 3)) then some vcEVT
  else if has vcRSP && !(has vcREQ && decide (x.req ≥ 3)) then some vcRSP
  else if has vcREQ then some vcREQ
  else none
/-- The unit an output sends next, and the output after it. The weights are read at each choice; the unit of cost is the largest weight
among the flows that wait. -/
def outPick (w : Nat → Nat) (cr : NUnit → Bool) (x : OutSt) : Option (NUnit × OutSt) :=
  let has := fun vc => !(vcHeads x cr vc).isEmpty
  match vcPick x has with
  | none => none
  | some vc =>
    let heads := vcHeads x cr vc
    let cost := heads.foldl (fun a u => if w u.flow > a then w u.flow else a) 1
    let d := x.dfc.filter fun e => e.1 / 32 != vc || x.wait.any fun u => u.vc == vc && u.flow == e.1 % 32
    match drrGo w cost vc heads 340 (sget (fun _ => 0) vc x.last + 1) d with
    | none => none
    | some (u, d) =>
      let data := has vcRSP || has vcREQ
      some (u, { wait := x.wait.erase u, dfc := d, last := sset (fun _ => 0) vc u.flow x.last,
                 low := if vc = vcRSP ∨ vc = vcREQ then 0 else if data then x.low + u.n else 0,
                 req := if vc = vcREQ ∨ has vcREQ = false then 0 else if vc = vcRSP then x.req + u.n else x.req })
/-- At an output that forms flits, a second event packet for the same endpoint rides in the other half of the flit (R226). -/
def pairUp (u : NUnit) (x : OutSt) : NUnit × OutSt :=
  if bits u.hdr 22 4 ≠ 0 ∨ u.second.isSome then (u, x) else
  match x.wait.find? fun v => v.vc == u.vc && v.flow == u.flow with
  | some v =>
    if bits v.hdr 22 4 = 0 ∧ v.second = none ∧ bits v.hdr 0 8 = bits u.hdr 0 8 ∧ v.inl = u.inl then
      ({ u with second := some (v.hdr, v.body.headD 0) }, { x with wait := x.wait.erase v })
    else (u, x)
  | none => (u, x)

/-! Sending -/

/-- Flits in the load window of a lane of endpoint `e` (Table 7-18): direction 0 into the network, 1 out of it. -/
def loadAdd (e lane dir vc n : Nat) (s : State) : State :=
  let k := 4 * e + 2 * lane + dir
  let x := sget (fun _ => (0, 0)) k s.net.winLoad
  s.setNet { s.net with winLoad := sset (fun _ => (0, 0)) k (x.1 + (if vc = vcEVT then n else 0), x.2 + n) s.net.winLoad }
/-- Flits enter the network at an endpoint, or leave it there. -/
def countTx (e h n : Nat) (s : State) : State := loadAdd e (epLane e h s) 0 (bits h 16 2) n (s.inc64 (DNET_EP_TXF e) n)
def countRx (e h n : Nat) (s : State) : State := loadAdd e (epLane e h s) 1 (bits h 16 2) n (s.inc64 (DNET_EP_RXF e) n)
/-- Output `o` sends a unit: a leaf's up-lane numbers its flits and keeps them for replay (R239). -/
def netSend (o : Nat) (u : NUnit) (s : State) : State :=
  let fl := u.flits
  let s := hopKeep (laneOfOut o u.hdr s) fl s
  if o < 512 ∧ o % 32 < 16 then
    let k := 16 * (o / 32) + o % 32
    let n := sget (fun _ => 0) k s.net.seqTx
    let dst := leafOf (bits u.hdr 0 8)
    let num := fl.zip (List.range fl.length)
    let s := s.setReplay k (s.netReplay k ++ num.map fun f => ⟨(n + f.2) % 256, dst, spineHash u.hdr, o % 32, f.1.1, f.1.2⟩)
    let s := s.setNet { s.net with seqTx := sset (fun _ => 0) k ((n + fl.length) % 256) s.net.seqTx }
    num.foldl (fun s f => s.emit (flitOut o (o % 32) ((n + f.2) % 256) f.1.1 f.1.2)) s
  else
    let s := if o < 512 then countRx (bits u.hdr 0 8) u.hdr fl.length s else s
    (fl.zip (List.range fl.length)).foldl (fun s f => s.emit (flitOut o u.sp ((u.seq + f.2) % 256) f.1.1 f.1.2)) s
/-- Output `o` sends while something that waits there holds a credit. -/
def outGo (o : Nat) : Nat → State → State
  | 0, s => s
  | k + 1, s =>
    match outPick (fun f => flowWeight f s) (outCredit o s) (s.netOut o) with
    | none => s
    | some (u, x) =>
      let (u, x) := if o < 512 ∧ o % 32 < 16 then pairUp u x else (u, x)
      outGo o k (netSend o u (s.setOut o x))
/-- Every output sends what it can; outputs toward the endpoints first, since what they send frees the buffers before them. -/
def netGo (s : State) : State :=
  let ks := s.net.outs.map (·.1)
  let down := ks.filter fun o => o < 512 && o % 32 ≥ 16
  let spine := ks.filter fun o => o ≥ 512
  let up := ks.filter fun o => o < 512 && o % 32 < 16
  (down ++ spine ++ up).foldl (fun s o => outGo o ((s.netOut o).wait.length) s) s
/-- A unit waits at output `o`. -/
def netPut (o : Nat) (u : NUnit) (s : State) : State := s.setOut o { s.netOut o with wait := (s.netOut o).wait ++ [u] }

/-- The packet that edge endpoint `e` injects next: the oldest of its virtual channel, MGT first, for which the leaf's buffer has room; MGT
only at the rate of R233. -/
def edgePick (e : Nat) (l : List (Nat × List Nat)) (s : State) : Option (Nat × List Nat) :=
  [vcMGT, vcRSP, vcREQ, vcEVT].findSome? fun vc =>
    match l.find? fun x => bits x.1 16 2 == vc with
    | some x =>
      if roomIn (inEp e 0) vc (unitOf x.1 x.2 0 0 0).n s && (vc != vcMGT || sget (fun _ => 0) e s.net.mgtWait == 0) then some x else none
    | none => none
/-- An edge endpoint hands its packets to its lane; they wait there while the leaf's buffer has no room (R235). -/
def edgeGo (e : Nat) : Nat → State → State
  | 0, s => s
  | k + 1, s =>
    let l := sget (fun _ => []) e s.net.edge
    match edgePick e l s with
    | none => s
    | some x =>
      let fl := (unitOf x.1 x.2 0 0 0).flits
      let s := s.setNet { s.net with edge := sset (fun _ => []) e (l.erase x) s.net.edge }
      let s := if bits x.1 16 2 = vcMGT then s.setNet { s.net with mgtWait := sset (fun _ => 0) e (16 * fl.length) s.net.mgtWait } else s
      edgeGo e k (fl.foldl (fun s f => s.emit (flitOut (768 + e) 0 0 f.1 f.2)) (hopKeep (laneOfOut (768 + e) x.1 s) fl s))
def edgePut (e h : Nat) (body : List Nat) (s : State) : State :=
  let l := sget (fun _ => []) e s.net.edge ++ [(h, body)]
  edgeGo e l.length (s.setNet { s.net with edge := sset (fun _ => []) e l s.net.edge })
/-- An event packet of endpoint `e`. -/
def edgeSend (e h ev : Nat) (s : State) : State := edgePut e h [ev] s
/-- RHDR64 of a TRANSIT packet with `n` words of body (R315, Tables 7-3 and 7-4). -/
def transitHdr (dep sep vc n : Nat) : Nat :=
  hdrSeal (dep % 256 + sep % 256 * 2 ^ 8 + vc % 4 * 2 ^ 16 + 8 * 2 ^ 22 + (n / 4) % 16 * 2 ^ 26 + 2 ^ 31)

end Sys2Proof.Machine
end

