-- ==== Sys2Proof/Machine/CoreFam.lean ====
section
/-! DEFINITION. The core family: events at the data port (R54–R59), the phases of a step (R79, R80, R191), the emitter
(R75–R78), halt and release (R74, R83, R95), the pool format (R118) and the counter clear (R86). -/
namespace Sys2Proof.Machine

/-! Events at the data port -/

/-- The position of slot `p` in its cluster's slot table is held (R228). -/
def posHeld (p : Nat) (s : State) : Bool :=
  match s.lcid p with
  | some l => s.fb (CLA_SLOTTAB (p / 32) (l % 16)) CLA_SLOTTAB.HOLD
  | none => false

/-- One event at the data port of a core that takes it now (R54): none while it must wait. -/
def coreEvent (p : Nat) (e : EvtIn) (s : State) : Option State :=
  let raw := e.ev.toNat
  match secDec 36 (bits raw 28 36) (bits raw 22 6 + 64 * b2n e.hpar) with
  | (none, _) =>
    let s := s.inc (CORE_EVT_CHKERR p) 1
    some (evGone (epCluster (p / 32)) e s)
  | (some d, _) =>
    let ev := setBits raw 28 36 d
    let t := bits ev 60 4
    if t ≤ 1 then pendFile p e ev s
    else if t = 3 ∨ t = 4 then
      let x := (s.core p).q
      some (s.setQ p { x with events := x.events ++ [(ev, e.inst.toNat)] })
    else some (s.inc (CORE_EVT_BAD p) 1)

/-- The core can take an event: not dozing, not stopped, its position not held. -/
def portOpen (p : Nat) (s : State) : Bool := coreState p s != stDoze && !s.faulted p && !posHeld p s

/-! The delivery queues of a cluster router (R227, R228, R236, R249) -/

/-- The delivery queue of LCID position `k`. -/
def State.dlv (s : State) (c k : Nat) : List EvtIn := sget (fun _ => []) k (s.cluster c).dlv
def State.setDlv (c k : Nat) (l : List EvtIn) (s : State) : State :=
  s.setCluster c { s.cluster c with dlv := sset (fun _ => []) k l (s.cluster c).dlv }
/-- The delivery queue that slot `p` empties: that of its LCID's position. -/
def posQueue (p : Nat) (s : State) : List EvtIn :=
  match s.lcid p with
  | some l => s.dlv (p / 32) (l % 16)
  | none => []
/-- Endpoint `ep` answers a FENCE (R249 step 2). -/
def fenceAck (ep : Nat) (f : FenceWait) (s : State) : State := s.emit (.packet f.frm ep pkFENCE_ACK f.inst (s.gen f.inst) 0 [])
/-- One event has left queue `k`: a FENCE behind it has one fewer before it. -/
def fenceStep (k : Nat) (f : FenceWait) : FenceWait := { f with before := sset (fun _ => 0) k (sget (fun _ => 0) k f.before - 1) f.before }
/-- The oldest event of queue `k` leaves, `t` stays; FENCEs with nothing left before them are answered. -/
def dlvPop (c k : Nat) (t : List EvtIn) (s : State) : State :=
  let s := s.setDlv c k t
  let x := s.cluster c
  let l := x.fences.map (fenceStep k)
  (l.filter fun f => f.before == []).foldl (fun s f => fenceAck (epCluster c) f s)
    (s.setCluster c { x with fences := l.filter fun f => f.before != [] })
/-- Position `k` gives its core what the core can take, oldest first; a position that holds no core discards (R228). -/
def takePos (c k : Nat) : Nat → State → State
  | 0, s => s
  | n + 1, s =>
    match s.dlv c k with
    | [] => s
    | e :: t =>
      let tab := CLA_SLOTTAB c k
      let p := 32 * c + s.fv tab CLA_SLOTTAB.SLOT
      if s.fb tab CLA_SLOTTAB.VALID = false then takePos c k n (dlvPop c k t (evGone (epCluster c) e (s.inc (CLA_RTR_UNROUTE c) 1)))
      else if portOpen p s then
        match coreEvent p e s with
        | some s => takePos c k n (dlvPop c k t s)
        | none => s
      else s
/-- A FENCE that every event before it has reached the delivery queues: answered when they are empty, else it waits. -/
def fenceNow (c frm inst : Nat) (s : State) : State :=
  let x := s.cluster c
  let f : FenceWait := ⟨frm, inst, x.dlv.map fun q => (q.1, q.2.length)⟩
  if f.before = [] then fenceAck (epCluster c) f s else s.setCluster c { x with fences := x.fences ++ [f] }
/-- What the leaf holds moves into the delivery queues, in order, while they have room. -/
def spillGo (c : Nat) : Nat → State → State
  | 0, s => s
  | n + 1, s =>
    let x := s.cluster c
    match x.spill with
    | [] => s
    | .fence f i :: t => spillGo c n (fenceNow c f i (s.setCluster c { x with spill := t }))
    | .ev e :: t =>
      let k := evPos e.ev.toNat
      if (s.dlv c k).length ≥ 16 then s
      else spillGo c n (takePos c k 16 ((s.setCluster c { x with spill := t }).setDlv c k (s.dlv c k ++ [e])))
/-- Position `k` empties as far as its core allows, and what waits behind it moves on. -/
def takeFrom (c k : Nat) (s : State) : State := netGo (spillGo c (s.cluster c).spill.length (takePos c k (s.dlv c k).length s))
/-- The core of slot `p` takes every waiting event that it can take. -/
def takeWaiting (p : Nat) (s : State) : State :=
  match s.lcid p with
  | some l => takeFrom (p / 32) (l % 16) s
  | none => s
/-- A FENCE reaches cluster `c`, behind the events that reached it before (R249 step 2). -/
def fenceAt (c frm inst : Nat) (s : State) : State :=
  let x := s.cluster c
  if x.spill ≠ [] then s.setCluster c { x with spill := x.spill ++ [.fence frm inst] } else fenceNow c frm inst s
/-- Every event that waits at the router of cluster `c` is discarded by `f`; no FENCE then waits. -/
def dropQueues (c : Nat) (f : EvtIn → State → State) (s : State) : State :=
  let x := s.cluster c
  let l := (x.dlv.map (·.2)).flatten ++ x.spill.filterMap fun y => match y with
    | .ev e => some e
    | .fence _ _ => none
  let g := x.fences ++ x.spill.filterMap fun y => match y with
    | .ev _ => none
    | .fence a i => some ⟨a, i, []⟩
  let s := s.setCluster c { x with dlv := [], spill := [], fences := [] }
  g.foldl (fun s w => fenceAck (epCluster c) w s) (l.foldl (fun s e => evGone (epCluster c) e (f e s)) s)

/-- An event reaches the router of cluster `c` (R54, R227, R228): a position that holds no core, another instance's core or an unpowered
one discards it, counted and delivered, and so does a closed seam (R401, R475); else it queues by its position, behind what already
waits. -/
def coreArrive (c : Nat) (e : EvtIn) (s : State) : State :=
  let k := evPos e.ev.toNat
  let tab := CLA_SLOTTAB c k
  let p := 32 * c + s.fv tab CLA_SLOTTAB.SLOT
  let del := evGone (epCluster c) e
  if s.clGone c then del (s.inc DNET_UNROUTE 1)
  else if s.fb tab CLA_SLOTTAB.VALID = false || coreState p s == stOff then del (s.inc (CLA_RTR_UNROUTE c) 1)
  else if s.clInst c ≠ some e.inst.toNat then del (s.inc (CLA_RTR_INST_ERR c) 1)
  else if s.dev.drainCl.contains c || resetting e.inst.toNat s then del (s.inc (CLA_RST_EVT_DROP c) 1)
  else
    let s := wakeCore p s
    let x := s.cluster c
    if x.spill ≠ [] ∨ (s.dlv c k).length ≥ 16 then s.setCluster c { x with spill := x.spill ++ [.ev e] }
    else takeFrom c k (s.setDlv c k (s.dlv c k ++ [e]))

/-- CORE_EVENT_ARRIVAL (R54). -/
def execCoreEventArrival (c : Cl) (e : EvtIn) (s : State) : Res := ok (coreArrive c.val e s)

/-- PEND_BLOCK_FREE_RESUME (R58): `waited` cycles with the credit withheld. The commit that frees the blocks leaves the waiting events to
this command. -/
def execPendBlockFreeResume (c : Cl) (k : Sl) (waited : Word) (s : State) : Res :=
  let p := pcid c k
  if posQueue p s = [] then ok s
  else ok (takeWaiting p (s.inc (CORE_PEND_FULL p) waited.toNat))

/-! Opens -/

/-- The instance of slot `p` steps in Timed mode. -/
def timedCore (p : Nat) (s : State) : Bool :=
  match s.clInst (p / 32) with
  | some i => s.fb (STEP_CTRL i) STEP_CTRL.MODE
  | none => false

/-- The core takes the open of `t` and walks its slot (R79 steps 1–3). -/
def takeOpen (p t : Nat) (s : State) : State :=
  let s := wakeCore p s
  let again := cur p s == t
  let s := (s.fs (CORE_STEP p) CORE_STEP.CUR t).wr (LRN_EPNUM p) (epochOf p t s)
  let x := s.core p
  let s := s.setCore p { x with modSum := 0, spiked := [], swept := false, phase := .walked, stampsWas := [],
                                stampsWas1 := if again then x.stampsWas1 else x.stampsWas }
  let s := clearCapture p (macOpen p (openBitmaps p s))
  if s.faulted p then s else walkSlot p t s

/-- The core can take an open now. -/
def openable (p t : Nat) (s : State) : Bool :=
  (s.core p).phase == .idle && !halted p s && !s.faulted p && (coreState p s == stRun || coreState p s == stIdle)
    && !(s.core p).closing.contains (t % 16) && !s.fb (LRN_STAT p) LRN_STAT.CLOSING
/-- Take the oldest held open if the core can (R80). -/
def tryOpen (p : Nat) (s : State) : State :=
  match (s.core p).heldOpens with
  | [] => s
  | t :: r => if openable p t s then takeOpen p t (s.setCore p { s.core p with heldOpens := r }) else s

/-- The open of `t` reaches the core and is held until taken; in Timed mode one that finds the core halted or not done counts as
an overrun (R80, R85). One already taken or held changes nothing. -/
def offerOpen (p t : Nat) (s : State) : State :=
  let k := s.core p
  let past : Bool := match k.lastCommit with
    | some l => decide (t ≤ l)
    | none => false
  if coreState p s = stOff ∨ k.heldOpens.contains t ∨ past ∨ (k.phase ≠ .idle ∧ cur p s = t) then s else
  let late := halted p s || k.phase == .walked || k.phase == .updated
  let s := if timedCore p s && late then s.inc (CORE_OVERRUN p) 1 else s
  s.setCore p { k with heldOpens := k.heldOpens ++ [t] }

/-- CORE_STEP_OPEN (R79, R80): the core takes the open of `t`, the oldest it holds, when it can. -/
def execCoreStepOpen (c : Cl) (k : Sl) (t : BitVec 48) (s : State) : Res :=
  let p := pcid c k
  if (s.core p).heldOpens.head? = some t.toNat then ok (tryOpen p s) else ok s

/-- PEND_CLOSEUP_END (R59). -/
def execPendCloseupEnd (c : Cl) (k : Sl) (slot : Fin 16) (s : State) : Res :=
  let p := pcid c k
  let x := s.core p
  if x.closing.contains slot.val then
    ok (takeWaiting p (s.setCore p { x with closing := x.closing.filter (· != slot.val) }))
  else ok s

/-- SYNAPSE_WALK_END (R67, R181): `feed` and `held` cycles of the standing list. -/
def execSynapseWalkEnd (c : Cl) (k : Sl) (feed held : Word) (s : State) : Res :=
  let p := pcid c k
  if (s.core p).phase ≠ .walked ∨ s.faulted p then ok s else
  let s := macStand p feed.toNat held.toNat (updateAll p (cur p s) s)
  ok (s.setCore p { s.core p with phase := .updated })

/-! The spike emitter -/

/-- The head of staging leaves; an entry that stalled the update unit takes its place (R75). -/
def unstage (p : Nat) (s : State) : State :=
  let c := s.core p
  let h := (c.stgHead + 1) % 512
  match c.stgWait with
  | [] => s.setCore p { c with stgHead := h, stgN := c.stgN - 1, emitIdx := 0 }
  | v :: t => (s.wrSram p (0x2800 + 4 * c.stgHead) v).setCore p { c with stgHead := h, stgWait := t, emitIdx := 0 }

/-- The rank port map's value for a rank (R311); 15 is none. -/
def rankPort (i r : Nat) (s : State) : Nat := sget (fun _ => 15) (4096 * i + r) s.dev.rankMap

/-- The event that a header and an EVT64 spell. -/
def hdrEvt (h ev : Nat) : EvtIn :=
  ⟨BitVec.ofNat 64 ev, bit h 30, BitVec.ofNat 5 (bits h 32 5), BitVec.ofNat 6 (bits h 37 6), bit h 43, BitVec.ofNat 12 (bits h 44 12),
   BitVec.ofNat 4 (bits h 18 4)⟩
/-- The slot number under which FENCEs wait among the events that a router has accepted. -/
def injFence : Nat := 31
/-- RHDR64 of a FENCE from endpoint `sep` for instance `i` (R249). -/
def fenceHdr (dep sep i gen : Nat) : Nat :=
  hdrSeal (dep % 256 + sep % 256 * 2 ^ 8 + vcEVT * 2 ^ 16 + i % 16 * 2 ^ 18 + pkFENCE * 2 ^ 22 + gen % 256 * 2 ^ 32)
/-- One item of the injection queues of cluster `c`, with the slots whose earlier items wait: a local event is turned back (R229), another
goes to the leaf when it has a credit, a FENCE goes once nothing stands before it. -/
def routerItem (c : Nat) (q : List Nat × State) (x : Nat × Nat × Nat) : List Nat × State :=
  let (held, s) := q
  let (k, h, ev) := x
  let keep := (k :: held, s.setCluster c { s.cluster c with inj := (s.cluster c).inj ++ [x] })
  if k = injFence then
    if held = [] then (held, s.emit (.packet (bits h 0 8) (epCluster c) pkFENCE (bits h 18 4) (bits h 32 8) 0 [ev])) else keep
  else if held.contains k then keep
  else if bits h 0 8 = epCluster c then
    if (s.cluster c).spill ≠ [] ∨ (s.dlv c (evPos ev)).length ≥ 16 then keep else (held, coreArrive c (hdrEvt h ev) s)
  else if roomIn (inEp (epCluster c) (clLane c h s)) vcEVT 1 s then
    (held, (hopKeep (laneOfOut (768 + epCluster c) h s) [(h + ev * 2 ^ 64, 1)] s).emit (evFlit (epCluster c) h ev))
  else keep
/-- The router of cluster `c` sends what it can of what it has accepted from its cores. -/
def routerGo (c : Nat) (s : State) : State :=
  let l := (s.cluster c).inj
  (l.foldl (routerItem c) ([], s.setCluster c { s.cluster c with inj := [] })).2
/-- The router takes an event of the core in slot `k` of cluster `c` (R228–R230, R311, R194). -/
def routeOut (c k i ev : Nat) (hpar : Nat) (step5 : Nat) (rem : Bool) (rank : Nat) (s : State) : State :=
  let s := if evCounts ev then countInjected (epCluster c) i s else s
  let gone := countGone (epCluster c) ev i false 0
  let send := fun (dep : Nat) (rem : Bool) (s : State) =>
    let x := s.cluster c
    let s := if dep = epCluster c ∨ x.mask.contains dep then s else s.setCluster c { x with mask := x.mask ++ [dep] }
    let s := match x.rewind with
      | some r => if dep ≠ epCluster c ∧ bits ev 28 4 = 0 ∧ s.fb (STEP_CTRL i) STEP_CTRL.MODE then
          s.setCluster c { s.cluster c with rewind := some { r with flags := r.flags ||| 0x80 } } else s
      | none => s
    let h := evtHdr dep (epCluster c) i hpar step5 c rem (if rem then rank else 0)
    routerGo c (s.setCluster c { s.cluster c with inj := (s.cluster c).inj ++ [(k, h, ev)] })
  if rem then
    if rankPort i rank s = 15 then gone (s.inc (CLA_RTR_UNROUTE c) 1) else send (epPort (rankPort i rank s)) true s
  else
    let b := DNET_BLK (bits ev 48 12 / 16)
    if s.fb b DNET_BLK.VALID = false then gone (s.inc (CLA_RTR_UNROUTE c) 1)
    else if s.fb b DNET_BLK.IVAL = false ∨ s.fv b DNET_BLK.INST ≠ i then gone (s.inc (CLA_RTR_INST_ERR c) 1)
    else send (epCluster (s.fv b DNET_BLK.CLNUM)) false s

/-- EVT64 of a fan-out entry (R77, R225): the word and HPAR. -/
def fanEvent (f : Nat) (g : Bool) (pay : Nat) : Nat × Nat :=
  let ev := pay % 2 ^ 16 * b2n g + bits f 28 4 * 2 ^ 28 + bits f 12 16 * 2 ^ 32 + bits f 0 12 * 2 ^ 48 + b2n g * 2 ^ 60
  let k := evtChk ev
  (ev + k % 64 * 2 ^ 22, k / 64)

/-- The emitter goes on until it has sent one event or staging is empty (R76, R78). -/
def emitNext (p : Nat) : Nat → State → State
  | 0, s => s
  | n + 1, s =>
    let c := s.core p
    if c.stgN = 0 then s else
    let (e, s) := s.rdSram p (0x2800 + 4 * c.stgHead)
    if s.faulted p then s else
    match s.segChk p (s.fv (CORE_FOD_BASE p) CORE_FOD_BASE.BASE + 2 * bits e 0 13) 32 32 false with
    | (none, s) => emitNext p n (unstage p (s.inc (CORE_FOD_CHKERR p) 1))
    | (some d, s) =>
      let len := bits d 20 12
      if c.emitIdx ≥ len then emitNext p n (unstage p s) else
      let next := fun (s : State) =>
        if c.emitIdx + 1 = len then unstage p s else s.setCore p { s.core p with emitIdx := c.emitIdx + 1 }
      match s.segChk p (bits d 0 20 + 2 * c.emitIdx) 46 46 false with
      | (none, s) => emitNext p n (next (s.inc (CORE_FAN_CHKERR p) 1))
      | (some f, s) =>
        match s.clInst (p / 32) with
        | none => s
        | some i =>
          let (ev, hp) := fanEvent f (bit e 13) (bits e 16 16)
          next (routeOut (p / 32) (p % 32) i ev hp (cur p s % 32) (bit f 44) (bits f 32 12) (s.inc64 (CORE_EVT_OUT p) 1))

/-- EMITTER_SEND (R76, R78). A router that is stopped from injecting, or that holds 8 events of the slot, takes none (R249, Table 7-6). -/
def execEmitterSend (c : Cl) (k : Sl) (s : State) : Res :=
  let p := pcid c k
  let x := s.cluster c.val
  if s.faulted p || x.noInject || decide ((x.inj.filter fun e => e.1 == k.val).length ≥ 8) then ok s
  else ok (emitNext p (4096 * ((s.core p).stgN + (s.core p).stgWait.length) + 1) s)

/-! Done, close and commit -/

/-- The halted state is reached (Table 2-17). -/
def enterHalted (p : Nat) (s : State) : State :=
  (s.fs (CORE_STATE p) CORE_STATE.STATE stIdle).fs (CORE_STATE p) CORE_STATE.HALTED 1

/-- Every participant of cluster `c` has reported done for `t`. -/
def clDone (c t : Nat) (s : State) : Bool :=
  !(s.clParts c).isEmpty && (s.clParts c).all fun p => decide (cur p s = t) && ((s.core p).phase == .done || (s.core p).phase == .closed)

/-- CORE_DONE (R79 step 6, R83). The cluster's last done goes up the sync tree (R248). -/
def execCoreDone (c : Cl) (k : Sl) (s : State) : Res :=
  let p := pcid c k
  let x := s.core p
  if x.phase ≠ .updated ∨ x.stgN ≠ 0 ∨ s.faulted p then ok s else
  let s := s.setCore p { x with phase := .done }
  let s := if s.fb (CORE_CTRL p) CORE_CTRL.HALT then enterHalted p s else s
  let t := cur p s
  match s.clInst c.val with
  | some i =>
    let d := fun (m : SMap Int) => tc 32 (sget (fun _ => 0) (epCluster c.val) m)
    ok (if clDone c.val t s then syncOut (epCluster c.val) 1 i t (d (s.inst i).diffs + d (s.inst i).rdiffs * 2 ^ 32) s else s)
  | none => ok s

/-- CORE_STEP_CLOSE (R79 step 7, R110, R128): the core takes the close that its agent has passed to it (R440). -/
def execCoreStepClose (c : Cl) (k : Sl) (s : State) : Res :=
  let p := pcid c k
  if (s.core p).phase ≠ .done ∨ (s.core p).closeFor ≠ some (cur p s) ∨ s.faulted p then ok s else
  let t := cur p s
  let s := s.setCore p { s.core p with closeFor := none }
  let s := if closeDue p t s then staleSweep p t s else s
  let s := basteClose p s
  if s.faulted p then ok s else ok (s.setCore p { s.core p with phase := .closed, swept := closeDue p t s })

/-- CLA_FO_STAT.STATE values (Table 14-8). -/
def foProtected : Nat := 0
def foExposed : Nat := 1
def foRewinding : Nat := 2
def foMigrating : Nat := 3
def foDegraded : Nat := 4
def foState (c : Nat) (s : State) : Nat := s.fv (CLA_FO_STAT c) CLA_FO_STAT.STATE
/-- A unit outside the clusters runs degraded (Table 14-1): a spine, a lane or a band supervisor is out. -/
def unitDegraded (s : State) : Bool :=
  s.fv DNET_STATUS DNET_STATUS.SPINE_OK != 0xFFFF || !s.net.lanesOut.isEmpty || !s.net.bandsDown.isEmpty
/-- RAS_STAT follows the clusters (R460). -/
def rasStat (s : State) : State :=
  let any := fun v => (List.range 64).any fun c => foState c s == v
  let n := fun (f : Fld) => ((List.range 64).filter fun c => s.fb (CLA_FO_STAT c) f).length
  (((s.fs RAS_STAT RAS_STAT.EXPOSED (b2n (any foExposed))).fs RAS_STAT RAS_STAT.DEGRADED (b2n (any foDegraded || unitDegraded s))).fs
    RAS_STAT RAS_STAT.SPSLOT (n CLA_FO_STAT.SPSLOT)).fs RAS_STAT RAS_STAT.SPSEG (n CLA_FO_STAT.SPSEG)
def setFo (c v : Nat) (s : State) : State := rasStat (s.fs (CLA_FO_STAT c) CLA_FO_STAT.STATE v)

/-- Connect the slot of PCID `p` to segment `g` (R89, R90); counted in CLA_SEG_SWITCHES. -/
def connectSeg (p g : Nat) (s : State) : State :=
  (((s.fs (CLA_SEGMAP (p / 32) (p % 32)) CLA_SEGMAP.SEG g).fs (CLA_SEGMAP (p / 32) (p % 32)) CLA_SEGMAP.CONN 1)).inc (CLA_SEG_SWITCHES (p / 32)) 1

/-- A migration whose copy has ended switches at the core's commit (R447 step 2). -/
def migSwitch (p : Nat) (s : State) : State :=
  let c := p / 32
  let x := s.cluster c
  match x.migrate with
  | none => s
  | some m =>
    if m.copied && s.segOf p == some m.src then
      let s := connectSeg p m.dst s
      let s := s.fs (CLA_SEGOK c) CLA_SEGOK.OK (setBits (s.fv (CLA_SEGOK c) CLA_SEGOK.OK) m.src 1 0)
      let x := s.cluster c
      let s := (s.setCluster c { x with migrate := none, failedSegs := if x.failedSegs.contains m.src then x.failedSegs else x.failedSegs ++ [m.src] }).inc
        (CLA_SEG_MIGR c) 1
      let s := setFo c foProtected (s.fs (CLA_FO_STAT c) CLA_FO_STAT.SPSEG 0)
      let i := s.clInst c
      (fpmRewrite [c] [] s).fault (frec 2 0 c m.src ((s.lcid p).getD 0xFFF) (i.getD 0) 0 (cur p s) 0 m.tdet (s.now - m.tdet) 0 0) i
    else s

/-- Twice the presentation time P(t) of step `t` (R344); later than every time while `t` has not been closed. -/
def presentT2 (i t : Nat) (s : State) : Nat :=
  let e := sget (fun _ => 0) t (s.inst i).closeT
  if e = 0 then 2 ^ 66 else e + 2000 * s.fv (HOST_PDLY i) HOST_PDLY.US

/-- A rewind ends at the commit of its step (Table 14-4 step 11). -/
def rewindEnd (c t : Nat) (s : State) : State :=
  match (s.cluster c).rewind with
  | none => s
  | some r =>
    if r.step ≠ t then s else
    let ns := s.now - r.tdet
    let s := (s.setCluster c { s.cluster c with rewind := none }).wr (CLA_FO_LAST_NS c) (satU 32 ns)
    let s := if foState c s = foRewinding then setFo c foProtected s else s
    let i := s.clInst c
    let timed := match i with
      | some i => s.fb (STEP_CTRL i) STEP_CTRL.MODE
      | none => false
    let late := match i with
      | some i => !timed || ns ≥ s.fv (STEP_PERIOD i) STEP_PERIOD.NS || decide (2 * s.now > presentT2 i t s)
      | none => false
    let flags := r.flags ||| (if late then 0x80 else 0)
    let seen := flags &&& (0xFFFF - 0x40 - (if timed then 0 else 0x80))
    (fpmRewrite [c] [] s).fault (frec 1 (if seen = 0 then 0 else 2) c r.slot r.lcid (i.getD 0) flags r.step r.cause r.tdet (satU 32 ns)
      r.refiled r.lostq) i

/-- The cluster commits `t` (R191, R441, R443). -/
def clusterCommit (c t : Nat) (s : State) : State :=
  let x := s.cluster c
  let j := x.journal.filter fun r => r.tstep5 != t % 32
  let s := (s.setCluster c { x with journal := j, committed := some t, mask := [] }).fs (CLA_JRN_OCC c) CLA_JRN_OCC.OCC j.length
  let s := if foState c s = foExposed ∧ x.expStep ≤ t then setFo c foProtected s else s
  rewindEnd c t s

/-- The last part of an epoch close, and with it of the commit of the closing step (R151): opens that it held count once each. -/
def closeEnd (p extra : Nat) (s : State) : State :=
  if (s.core p).phase ≠ .closing then s else
  let s := closeRest p (cur p s) extra (s.inc (LRN_CLOSE_HOLD p) (s.core p).heldOpens.length)
  s.setCore p { s.core p with phase := .idle }

/-- The learning writes of the commit of `t` up to the close (R143 steps 1 and 2, Table 4-8 step 1). A core whose learning has stopped
empties the hold area all the same (R139, R142; log entry 71). A close due is run also by a core that was halted at the done of `t`
(log entry 71). -/
def learnCommit (p t : Nat) (s : State) : State :=
  let s := if lrnOn p s then lrnParity p s else s
  let s := if lrnOn p s then learnDrain p t s else holdEmpty p s
  if closeDue p t s then closeBegin p s else s

/-- Core `p` has committed `t`: it may already be in the next step (R191). -/
def committedTo (t : Nat) (s : State) (p : Nat) : Bool :=
  match (s.core p).lastCommit with
  | some l => decide (t ≤ l)
  | none => false
/-- CORE_STEP_COMMIT (R79 step 8, R111, R112, R143, R151). A commit at which no epoch close is due is over with this command. A close that
is due begins with it, and the next such command is the close's end (log entry 74); `closeExtra` as in `closeRest`. The slot walked
is released, and the cluster commits when this is its last core. -/
def execCoreStepCommit (c : Cl) (k : Sl) (closeExtra : Word) (s : State) : Res :=
  let p := pcid c k
  if s.faulted p then ok s
  else if (s.core p).phase = .closing then ok (closeEnd p closeExtra.toNat s)
  else if (s.core p).phase ≠ .closed then ok s else
  let t := cur p s
  let s := commitMirror p t s
  if s.faulted p then ok s else
  let due := closeDue p t s
  let s := exhSteps p t (learnCommit p t (migSwitch p s))
  let s := ringRelease p (t % 16) s
  let s := s.setCore p { s.core p with phase := if due && s.fb (LRN_STAT p) LRN_STAT.CLOSING then .closing else .idle, lastCommit := some t }
  let ps := s.clParts c.val
  ok (if ps.contains p && ps.all (committedTo t s) then clusterCommit c.val t s else s)

/-- CORE_IDLE_TIMEOUT (R83). -/
def execCoreIdleTimeout (c : Cl) (k : Sl) (s : State) : Res :=
  let p := pcid c k
  let x := s.core p
  if coreState p s = stRun ∧ s.fb (CORE_CTRL p) CORE_CTRL.IDLE_DLY ∧ s.faulted p = false ∧ x.phase ≠ .walked ∧ x.phase ≠ .updated ∧ x.phase ≠ .closing
      ∧ posQueue p s = [] ∧ x.mac.job = none ∧ x.q.inBuf = [] ∧ x.q.taken = [] then
    ok (s.fs (CORE_STATE p) CORE_STATE.STATE stIdle)
  else ok s

/-! Halt and release -/

/-- The program check (R74): whether it passes, and the state after its checked reads. -/
def progCheck (p : Nat) (s : State) : Bool × State :=
  let (dirs, s) := (List.range 16).foldl (fun (q : List Nat × State) k =>
    let (d, s) := q.2.rdSram p (4 * k)
    (q.1 ++ [d], s)) ([], s)
  let (good, s) := dirs.foldl (fun (q : Bool × State) d =>
    if bits d 0 15 = 0 then q else
    let st := bits d 0 9
    let n := bits d 9 6 + 1
    if st < 16 ∨ st + n > 512 then (false, q.2) else
    (List.range n).foldl (fun (q : Bool × State) i =>
      let (w, s) := q.2.rdSram p (4 * (st + i))
      (q.1 && nWordOk w (i + 1 == n), s)) q) (true, s)
  (List.range (s.ncomp p)).foldl (fun (q : Bool × State) c =>
    let (w1, s) := q.2.rdSram p (0xB000 + 8 * c + 4)
    if bit w1 31 then
      let (w0, s) := s.rdSram p (0xB000 + 8 * c)
      (q.1 && bits (dirs.getD (bits w0 28 4) 0) 0 15 != 0, s)
    else (q.1, s)) (good, s)

/-- The regions of a segment (Table 3-2): base and length. -/
def segRegions (p : Nat) (s : State) : List (Nat × Nat) :=
  [(s.fv (CORE_AXT_BASE p) CORE_AXT_BASE.BASE, 2 * axtLen p s),
   (s.fv (CORE_FOD_BASE p) CORE_FOD_BASE.BASE, 2 * s.ncomp p),
   (mirM p s, 8 + s.ncomp p / 8 + 6 * s.ncomp p),
   (epb p s, s.fv (CORE_EPB_LEN p) CORE_EPB_LEN.LEN),
   (poolBase p s, s.fv (CORE_POOL_LEN p) CORE_POOL_LEN.LEN)]
/-- The region check (R95): the first failing region with its lowest cause. A slot with no segment cannot become active (R30): there the
mirror, always present, lies beyond what the slot holds (log entry 67). -/
def regionCheck (p : Nat) (s : State) : Option (Nat × Nat) :=
  if (s.segOf p).isNone then some (2, 2) else
  let rs := segRegions p s
  (List.range 5).findSome? fun i =>
    let (b, n) := rs.getD i (0, 0)
    let cause :=
      if n ≠ 0 ∧ b % 8 ≠ 0 then 1
      else if n ≠ 0 ∧ b + n > segEnd then 2
      else if n ≠ 0 ∧ (List.range 5).any (fun j => j != i && decide ((rs.getD j (0, 0)).2 ≠ 0) && overlaps (b, n) (rs.getD j (0, 0))) then 3
      else if i = 3 ∧ n % 8 ≠ 0 then 4
      else if i = 4 ∧ n ≠ 0 ∧ (n % 8 ≠ 0 ∨ n < 16) then 5
      else 0
    if cause = 0 then none else some (i, cause)

/-- The five checks of a release, each recording its result (R74, R95, R133, R189, R256): whether all pass. -/
def releaseChecks (p : Nat) (s : State) : Bool × State :=
  let (prog, s) := progCheck p s
  let prog := prog && !s.faulted p
  let s := s.fs (CORE_STATE p) CORE_STATE.PCHK_OK (b2n prog)
  let reg := regionCheck p s
  let s := s.wr (CORE_SEG_CHK p) (match reg with
    | none => 1
    | some (r, cause) => cause * 2 ^ 4 + r * 2 ^ 8)
  let l := if lrnEn p s then lrnCheck p s else 0
  let s := if lrnEn p s then (s.fs (LRN_STAT p) LRN_STAT.CHK_OK (b2n (l == 0))).fs (LRN_STAT p) LRN_STAT.CAUSE l else s
  let m := macCheck p s
  let s := (s.fs (MAC_STAT p) MAC_STAT.CHK_OK (b2n (m == 0))).fs (MAC_STAT p) MAC_STAT.CAUSE m
  let q := queueCheck p s
  let s := ((s.fs (Q_CHK p) Q_CHK.OK (b2n q.isNone)).fs (Q_CHK p) Q_CHK.CAUSE ((q.map (·.1)).getD 0)).fs (Q_CHK p) Q_CHK.QNUM ((q.map (·.2)).getD 0)
  (prog && reg.isNone && l == 0 && m == 0 && q.isNone, s)

/-- The core leaves the halted state (R82, R129, R156, R149). -/
def leaveHalted (p : Nat) (s : State) : State :=
  let s := if lrnEn p s then
      let s := s.fs (LRN_STAT p) LRN_STAT.FAULT 0
      let s := learnAdopt p s
      if s.fb (LRN_CTRL p) LRN_CTRL.KEEP_STAMPS then s else stampReset p s
    else s
  let s := basteAll p s
  let s := (s.fs (CORE_STATE p) CORE_STATE.STATE stRun).fs (CORE_STATE p) CORE_STATE.HALTED 0
  let i := s.clInst (p / 32)
  let t := match i with
    | some i => s.fv (STEP_CUR i) STEP_CUR.STEP
    | none => 0
  let s := (s.wr (LRN_EPNUM p) (epochOf p t s)).fs (Q_CHK p) Q_CHK.PFAULT 0
  s.setCore p { s.core p with lastCommit := none, q := { (s.core p).q with stopped := [] } }

/-- A write of CORE_CTRL under the rights of R84 and R86. An admitted write of HALT = 1 halts a core between steps at once; so it does
one with FAULT = 1, of which Table 2-17 says only that the write is admitted (log entry 75). -/
def writeCoreCtrl (q : Req) (p v : Nat) (s : State) : State :=
  onCore q p true (fun s =>
    let fields := fun (h : Nat) (s : State) =>
      ((s.fs (CORE_CTRL p) CORE_CTRL.HALT h).fs (CORE_CTRL p) CORE_CTRL.LATE (bits v 1 1)).fs (CORE_CTRL p) CORE_CTRL.IDLE_DLY (bits v 8 8)
    if bit v 0 then
      let s := fields 1 s
      let ph := (s.core p).phase
      let s := if coreState p s ≠ stOff ∧ halted p s = false ∧ ph ≠ .walked ∧ ph ≠ .updated then enterHalted p s else s
      s.done q cOK [] false
    else if s.faulted p then s.done q cREFUSED [] false
    else if coreState p s = stIdle ∧ halted p s then
      let (good, s) := releaseChecks p s
      if s.faulted p then s.done q cCHECK_FAIL [] false
      else if good then (leaveHalted p (fields 0 s)).done q cOK [] false
      else s.done q cBAD_ARG [] false
    else (fields 0 s).done q cOK [] false) s

/-- CORE_HALT (R83): a write of CORE_CTRL with HALT = 1. -/
def execCoreHalt (q : Req) (c : Cl) (k : Sl) (v : Word) (s : State) : Res :=
  ok (writeCoreCtrl q (pcid c k) (setBits v.toNat 0 1 1) s)
/-- CORE_RELEASE (R74): a write of CORE_CTRL with HALT = 0. -/
def execCoreRelease (q : Req) (c : Cl) (k : Sl) (v : Word) (s : State) : Res :=
  ok (writeCoreCtrl q (pcid c k) (setBits v.toNat 0 1 0) s)

/-! Counter clear, pool format, queue debug capture -/

/-- Clear the counters and high-water marks of the core port of `p`. -/
def clearCoreCounters (p : Nat) (s : State) : State :=
  let b := base_core p
  let s := (((s.resetRegs (b + 0x40) 0x20).resetRegs (b + 0x80) 0x40).resetRegs (b + 0x100) 0x18).resetRegs (b + 0x980) 0x44
  let s := (s.resetRegs (b + 0xC20) 0x3C).resetRegs (b + 0x1410) 0x4C
  let s := (s.fs (CORE_PEND p) CORE_PEND.HWM 0).fs (CORE_POOL_LWM p) CORE_POOL_LWM.LWM (poolFree p s)
  (List.range 64).foldl (fun s n => s.fs (Q_STAT p n) Q_STAT.HWM 0) s
/-- A write of CORE_CNT_CLR. -/
def writeCoreCntClr (q : Req) (p v : Nat) (s : State) : State :=
  onCore q p true (fun s => (if bit v 0 then clearCoreCounters p s else s).done q cOK [] false) s
/-- CORE_CNT_CLR (R86). -/
def execCoreCntClr (q : Req) (c : Cl) (k : Sl) (v : Word) (s : State) : Res := ok (writeCoreCntClr q (pcid c k) v.toNat s)

/-- A write of CORE_POOL_CTRL (R118): the INIT write completes when formatting ends. A second INIT before that completes REFUSED like one
made at any other time (log entry 70). -/
def writePoolCtrl (q : Req) (p v : Nat) (s : State) : State :=
  onCore q p true (fun s =>
    if bit v 0 = false then s.done q cOK [] false
    else if halted p s = false ∨ (s.core p).poolFmt.isSome then s.done q cREFUSED [] false
    else (s.setCore p { s.core p with poolFmt := some q }).hold q 0 none none) s
/-- POOL_INIT (R118). -/
def execPoolInit (q : Req) (c : Cl) (k : Sl) (v : Word) (s : State) : Res := ok (writePoolCtrl q (pcid c k) v.toNat s)
/-- POOL_FORMAT_DONE (R118). -/
def execPoolFormatDone (c : Cl) (k : Sl) (s : State) : Res :=
  let p := pcid c k
  match (s.core p).poolFmt with
  | none => ok s
  | some q => ok ((poolFormat p (s.setCore p { s.core p with poolFmt := none })).finish q cOK [] false)

/-- A write of Q_DBG_SEL under the rights of R266. -/
def dbgCapture (q : Req) (p v : Nat) (s : State) : State := onCore q p true (writeQDbgSel q p v) s
/-- Q_DBG_CAPTURE (R266). -/
def execQDbgCapture (q : Req) (c : Cl) (k : Sl) (v : Word) (s : State) : Res := ok (dbgCapture q (pcid c k) v.toNat s)

end Sys2Proof.Machine
end

