-- ==== Sys2Proof/Machine/StepSeq.lean ====
section
/-! DEFINITION. The step sequencer (R190–R204): advance tokens, the Lockstep barrier, the Timed schedule, start and stop, and
the statistics reduction (R187). -/
namespace Sys2Proof.Machine

def stStopped : Nat := 0
def stRunning : Nat := 1
def stStopping : Nat := 2
def stepState (i : Nat) (s : State) : Nat := s.fv (STEP_STATUS i) STEP_STATUS.STATE
def stepCur (i : Nat) (s : State) : Nat := s.fv (STEP_CUR i) STEP_CUR.STEP
def timed (i : Nat) (s : State) : Bool := s.fb (STEP_CTRL i) STEP_CTRL.MODE

/-! Timers count (R213, R214, R216) -/

def tmrFracAt (n : Nat) (s : State) : Nat := sget (fun _ => 0) n s.dev.tmrFrac
def setTmrFrac (n v : Nat) (s : State) : State := { s with dev := { s.dev with tmrFrac := sset (fun _ => 0) n v s.dev.tmrFrac } }
/-- The gate of timer `n` admits events, its leader left aside (R214). -/
def gateOpen (n : Nat) (s : State) : Bool :=
  match s.fv (TMR_CTRL n) TMR_CTRL.GATE with
  | 0 => true
  | 1 => s.pin pinSYNC_IN
  | 2 => !s.pin pinSYNC_IN
  | _ => s.fb (TMR_OWN n) TMR_OWN.VALID && stepState (s.fv (TMR_OWN n) TMR_OWN.INST) s == stRunning
/-- Timer `n` runs: enabled and events admitted, its chain of FMODE 0x1 leaders running too (R216). -/
def tmrRunning : Nat → Nat → State → Bool
  | 0, _, _ => false
  | f + 1, n, s =>
    s.fb (TMR_CTRL n) TMR_CTRL.EN && gateOpen n s
      && (s.fv (TMR_CTRL n) TMR_CTRL.FMODE != 1 || tmrRunning f (s.fv (TMR_CTRL n) TMR_CTRL.LEAD) s)
/-- One source event of timer `n` (R214). -/
def tmrEvent (n : Nat) (s : State) : State :=
  if tmrRunning 8 n s = false then s else
  let inc := s.fv (TMR_PRE_INC n) TMR_PRE_INC.INC
  let up := fun (s : State) => s.wr64 (TMR_COUNT n) ((s.rd64 (TMR_COUNT n) + 1) % 2 ^ 64)
  if inc = 0 then up s else
  let a := tmrFracAt n s + inc
  let s := setTmrFrac n (a % 2 ^ 32) s
  if a ≥ 2 ^ 32 then up s else s
/-- Every timer that `pick` names counts one source event. -/
def tmrSource (pick : Nat → Bool) (s : State) : State := (List.range 8).foldl (fun s n => if pick n then tmrEvent n s else s) s
/-- The source of timer `n` (Table 6-4). -/
def tmrSrc (n : Nat) (s : State) : Nat := s.fv (TMR_CTRL n) TMR_CTRL.SRC

/-- Clusters that hold a participant of instance `i`. -/
def partCl (i : Nat) (s : State) : List Nat := ((s.partCores i).map (· / 32)).eraseDups
/-- The tick time T(s) (R199). -/
def tickTime (i step : Nat) (s : State) : Int :=
  (s.rd64 (STEP_ANCHOR_T i) : Int) + ((step : Int) - (s.fv (STEP_ANCHOR_S i) STEP_ANCHOR_S.S : Int)) * (s.fv (STEP_PERIOD i) STEP_PERIOD.NS : Int)
    + sx 64 (s.rd64 (STEP_SHIFT i))
/-- The instance becomes stopped (R203). -/
def seqStopped (i : Nat) (s : State) : State :=
  servState <| ((s.setInst i { s.inst i with ticks := [], opened := none, first := none, final := false }).fs (STEP_STATUS i) STEP_STATUS.STATE stStopped).fs (STEP_STATUS i) STEP_STATUS.SLIP 0

/-! Advance tokens -/

/-- The run ends with step `t`: the instance is stopping, or `t` is its last step (R193, R203). -/
def lastStep (i t : Nat) (s : State) : Bool :=
  stepState i s != stRunning || decide (t + 1 > s.fv (STEP_LIMIT i) STEP_LIMIT.LIMIT) || t + 1 == anyStep
/-- The sequencer sends a token: the close of the open step and, unless the run ends with it, the open of the next (R192, R193,
R203, R344). The ranks that have reported a step stay known while the instance stands at it (R318). -/
def seqSend (i e : Nat) (s : State) : State :=
  let x := s.inst i
  let t := stepCur i s
  let go := !lastStep i t s
  let tok : Token := ⟨x.opened, if go then some (t + 1) else none, e⟩
  let s := match x.opened with
    | some c => s.setInst i { x with closeT := sset (fun _ => 0) c (if 2 * e > 2 * s.now + 85 then 2 * e else 2 * s.now + 85) x.closeT }
    | none => s
  let s := syncOut syRoot 2 i (t + 1) e s
  let x := s.inst i
  if go then
    let s := tmrSource (fun n => tmrSrc n s == 5 && s.fv (TMR_OWN n) TMR_OWN.INST == i) s
    ((s.setInst i { x with tokens := x.tokens ++ [tok], doneCl := [], reports := [], opened := some (t + 1),
                           first := x.first.orElse fun _ => some (t + 1) }).wr64 (STEP_OPEN_T i)
      (if e > s.now then e else s.now)).fs (STEP_CUR i) STEP_CUR.STEP (t + 1)
  else s.setInst i { x with tokens := x.tokens ++ [tok], final := true }

/-- A token reaches the cluster agents that hold participants (R192, R440). -/
def deliverToken (i : Nat) (k : Token) (s : State) : State :=
  (partCl i s).foldl (fun s c =>
    let x := s.cluster c
    let x := match k.close with
      | some t => { x with closes := x.closes ++ [t] }
      | none => x
    let x := match k.opn with
      | some t => { x with opens := x.opens ++ [(t, k.time)] }
      | none => x
    s.setCluster c x) s

/-- The token whose STEP is `t`. -/
def Token.isFor (k : Token) (t : Nat) : Bool := k.opn == some t || (k.opn == none && k.close == some (t - 1))

/-- ADV of step `t` goes to the child devices `kids` (R195, R318). -/
def advKids (i t e : Nat) (kids : List Nat) (s : State) : State := kids.foldl (fun s r => syncSend i r 2 t e s) s
/-- A token of the local sequencer reaches the agents (R192). -/
def advLocal (i t : Nat) (s : State) : State :=
  let x := s.inst i
  match x.tokens.find? (·.isFor t) with
  | some k => deliverToken i k (s.setInst i { x with tokens := x.tokens.filter (· != k) })
  | none => s.inc (STEP_DUPTOK i) 1
/-- A token from the parent device is relayed to the clusters and to the children that have reported (R195 step 4, R196, R318). -/
def advRelayed (i t e : Nat) (s : State) : State :=
  let x := s.inst i
  if stepState i s ≠ stStopped ∧ timed i s = false ∧ s.fb (STEP_SGRP i) STEP_SGRP.ROOT = false ∧ x.final = false ∧ t = stepCur i s + 1 then
    let kids := x.reports.map (·.1)
    let go := !lastStep i (t - 1) s
    let s := seqSend i e s
    let s := if go then advKids i t e kids s else s
    let x := s.inst i
    x.tokens.foldl (fun s k => deliverToken i k s) (s.setInst i { x with tokens := [] })
  else s.inc (STEP_DUPTOK i) 1
/-- SYNC_ADV (R192, R195, R196): a token of the local sequencer, or with `relayed` one that arrived from the parent device. -/
def execSyncAdv (relayed : Bool) (w0 w1 : DWord) (s : State) : Res :=
  ok (onSync 2 w0 w1 (fun i t e s => if relayed then advRelayed i t e s else advLocal i t s) s)

/-- CLUSTER_OPEN_RELEASE (R192): the oldest held open goes to the cores once TIME64 has reached its earliest open time. -/
def execClusterOpenRelease (c : Cl) (s : State) : Res :=
  let x := s.cluster c.val
  match x.opens with
  | [] => ok s
  | (t, e) :: r =>
    if s.now < e then ok s
    else ok ((s.clParts c.val).foldl (fun s p => offerOpen p t s) (s.setCluster c.val { x with opens := r }))

/-- CLUSTER_CLOSE_RELEASE (R440): the close goes to the cores once every participant has reported done. -/
def execClusterCloseRelease (c : Cl) (s : State) : Res :=
  let x := s.cluster c.val
  match x.closes with
  | [] => ok s
  | t :: r =>
    if clDone c.val t s then
      ok ((s.clParts c.val).foldl (fun s p => s.setCore p { s.core p with closeFor := some t }) (s.setCluster c.val { x with closes := r }))
    else ok s

/-! The Lockstep barrier -/

/-- The leaf group of a cluster, and the partition of a leaf group (R219, R246). -/
def syncNodeOf (c : Nat) : Nat := c / 4
def syncPartOf (n : Nat) : Nat := n / 8 * 2 + n % 2
/-- What a node of the sync tree sends up when the clusters `l` below it have all sent DONE for `t`: DIFF and RDIFF summed (R248). -/
def nodeDone (src i t : Nat) (l : List Nat) (s : State) : State :=
  let d := (s.inst i).doneCl.filter fun x => l.contains x.1
  syncOut src 1 i t (d.foldl (fun a x => a + x.2.1) 0 % 2 ^ 32 + d.foldl (fun a x => a + x.2.2) 0 % 2 ^ 32 * 2 ^ 32) s
/-- DONE of cluster `c` for step `t` is combined; its node, and then its partition's, goes on when it was the last (R248, R196). -/
def doneIn (c i t arg : Nat) (s : State) : State :=
  let x := s.inst i
  if x.opened ≠ some t ∨ x.doneCl.any (fun y => y.1 == c) ∨ x.final then s.inc (STEP_DUPTOK i) 1 else
  let s := s.setInst i { x with doneCl := x.doneCl ++ [(c, arg % 2 ^ 32, arg / 2 ^ 32 % 2 ^ 32)] }
  let all := fun (l : List Nat) => l.contains c && l.all fun c => (s.inst i).doneCl.any fun y => y.1 == c
  let n := (partCl i s).filter fun d => syncNodeOf d == syncNodeOf c
  let p := (partCl i s).filter fun d => syncPartOf (syncNodeOf d) == syncPartOf (syncNodeOf c)
  if all n = false then s else
  let s := nodeDone (syNode (syncNodeOf c)) i t n s
  if all p then nodeDone (syPart (syncPartOf (syncNodeOf c))) i t p s else s
/-- SYNC_DONE (R248, R196). -/
def execSyncDone (c : Cl) (w0 w1 : DWord) (s : State) : Res := ok (onSync 1 w0 w1 (doneIn c.val) s)

/-- The step that reports name: the open step, or the one at which the instance stands (R195, R318). -/
def reportStep (i : Nat) (s : State) : Nat := ((s.inst i).opened).getD (stepCur i s)
/-- A report for `t` from rank `r` with remote difference `d` (R195, R196). -/
def seqReport (i r t d : Nat) (s : State) : State :=
  let x := s.inst i
  if reportStep i s ≠ t ∨ x.reports.any (fun y => y.1 == r) then s.inc (STEP_DUPTOK i) 1
  else s.setInst i { x with reports := x.reports ++ [(r, d)], kids := if x.kids.contains r then x.kids else x.kids ++ [r] }

/-- Every cluster with a participant has sent DONE. -/
def allDone (i : Nat) (s : State) : Bool := (partCl i s).all fun c => (s.inst i).doneCl.any fun y => y.1 == c
/-- Remote difference of the device, modulo 2^32. -/
def remDiff (i : Nat) (s : State) : Nat := tc 32 ((((s.inst i).remInj : Nat) : Int) - ((s.inst i).remDel : Nat))

/-- The conditions of R194 that this device holds itself. -/
def ownReady (i : Nat) (s : State) : Bool := allDone i s && (s.inst i).injected == (s.inst i).delivered
/-- The conditions of the barrier on this device (R194, R195). -/
def barrierReady (i : Nat) (s : State) : Bool :=
  let x := s.inst i
  x.opened.isSome && !x.final && !timed i s && ownReady i s && decide (x.reports.length ≥ s.fv (STEP_SGRP i) STEP_SGRP.NCHILD)
/-- A device that is not the root has been started and stands before its first open: its children have reported the step at which the
instance stands, and it tells its parent in the same way (R202, R318; log entry 78). -/
def standReady (i : Nat) (s : State) : Bool :=
  let x := s.inst i
  x.opened.isNone && !timed i s && !s.fb (STEP_SGRP i) STEP_SGRP.ROOT && stepState i s == stRunning
    && decide (x.reports.length ≥ s.fv (STEP_SGRP i) STEP_SGRP.NCHILD)
/-- The sum of the remote differences of this device and its children, modulo 2^32. -/
def sumDiff (i : Nat) (s : State) : Nat := ((s.inst i).reports.foldl (fun a r => a + r.2) (remDiff i s)) % 2 ^ 32
/-- The report of this device for `t` goes to its parent. -/
def sendReport (i t : Nat) (s : State) : State :=
  syncSend i (s.fv (STEP_SGRP i) STEP_SGRP.PARENT) 1 t (sumDiff i s * 2 ^ 32) (s.setInst i { s.inst i with reported := some t })

/-- BARRIER_COMPLETE (R194, R195, R197): the root completes the barrier and sends the token to its clusters and, unless the run ends, to its
children; another device sends its report to its parent, once, and closes its last step itself (R203). -/
def execBarrierComplete (i : InstNo) (s : State) : Res :=
  let n := i.val
  let t := stepCur n s
  let x := s.inst n
  if standReady n s && x.reported != some t then ok (sendReport n t s)
  else if barrierReady n s = false then ok s else
  let e := s.rd64 (STEP_OPEN_T n) + s.fv (STEP_MINLEN n) STEP_MINLEN.NS
  if s.fb (STEP_SGRP n) STEP_SGRP.ROOT then
    if sumDiff n s ≠ 0 then ok s
    else if lastStep n t s then ok (seqSend n e s)
    else ok (advKids n (t + 1) e (x.reports.map (·.1)) (seqSend n e s))
  else if x.reported ≠ some t then ok (sendReport n t s)
  else if lastStep n t s then ok (seqSend n e s)
  else ok s

/-- What is missing at this device (R198): a condition of its own or a report; at the root, the remote sum. -/
def barrierMissing (i : Nat) (s : State) : Bool :=
  !barrierReady i s || (s.fb (STEP_SGRP i) STEP_SGRP.ROOT && sumDiff i s != 0)
/-- The missing ranks as far as they are known: this device's own when a condition of its own is missing, and those of the children that
have reported before in this run (R198, R318). -/
def missingRanks (i : Nat) (s : State) : List Nat :=
  let x := s.inst i
  (if ownReady i s then [] else (ownRank i s).toList) ++ x.kids.filter fun r => !x.reports.any fun y => y.1 == r
/-- BARRIER_TIMEOUT (R198). -/
def execBarrierTimeout (i : InstNo) (s : State) : Res :=
  let n := i.val
  let x := s.inst n
  if x.opened.isNone || x.final || timed n s || s.fv (STEP_BAR_TMO n) STEP_BAR_TMO.US == 0 || x.tmoStep == x.opened || !barrierMissing n s then ok s else
  let t := stepCur n s
  let s := ((s.fs (STEP_STATUS n) STEP_STATUS.BAR_TMO 1).inc (STEP_TMO n) 1).setInst n { x with tmoStep := x.opened, tmoLogged := true }
  let s := if x.tmoLogged then s else s.log 0x0A (some n) [2, n, s.rd (STEP_TMO n)]
  ok (s.emit (.mgmt 0x0A (n :: t :: missingRanks n s)))

/-! The Timed schedule -/

/-- The oldest step that some participant has not yet committed, of a run that opened `first` first. -/
def oldestStep (i first : Nat) (s : State) : Nat :=
  (s.partCores i).foldl (fun a p =>
    let n := match (s.core p).lastCommit with
      | some l => if l + 1 > first then l + 1 else first
      | none => first
    if n < a then n else a) (stepCur i s + 1)
/-- The lag of the instance reaches LAGMAX (R200): the latest step ticked minus the oldest that some participant has not committed. -/
def lagFull (i : Nat) (s : State) : Bool :=
  match (s.inst i).opened, (s.inst i).first with
  | some t, some f => decide (t - oldestStep i f s ≥ s.fv (STEP_CTRL i) STEP_CTRL.LAGMAX)
  | _, _ => false
/-- A tick for step `step` at time `e` (R200). -/
def seqTick (i step e : Nat) (s : State) : State :=
  let x := s.inst i
  let s := if x.opened.isSome && !allDone i s then s.inc (STEP_OVR i) 1 else s
  if x.ticks ≠ [] ∨ lagFull i s then
    ((s.setInst i { x with ticks := x.ticks ++ [(step, e)] }).inc (STEP_SLIP i) 1).fs (STEP_STATUS i) STEP_STATUS.SLIP 1
  else seqSend i e s

/-- TIMED_TICK (R199): the schedule's next tick, once TIME64 has reached T(s). -/
def execTimedTick (i : InstNo) (s : State) : Res :=
  let n := i.val
  let x := s.inst n
  if stepState n s = stStopped ∨ timed n s = false ∨ s.fb (STEP_CTRL n) STEP_CTRL.TSRC ∨ x.final
      ∨ (s.now : Int) < tickTime n x.nextTick s then ok s
  else ok (seqTick n x.nextTick (tickTime n x.nextTick s).toNat (s.setInst n { x with nextTick := x.nextTick + 1 }))

/-- HELD_TICK_RELEASE (R200). -/
def execHeldTickRelease (i : InstNo) (s : State) : Res :=
  let n := i.val
  let x := s.inst n
  match x.ticks with
  | [] => ok s
  | (_, e) :: r =>
    if lagFull n s then ok s else
    let s := seqSend n e (s.setInst n { x with ticks := r })
    let s := if (s.inst n).final then s.setInst n { s.inst n with ticks := [] } else s
    ok (if (s.inst n).ticks = [] then s.fs (STEP_STATUS n) STEP_STATUS.SLIP 0 else s)

/-- A tick of the timer named by TSRC = 1 (R199). -/
def timerTick (n : Nat) (s : State) : State :=
  (List.range 16).foldl (fun s i =>
    if stepState i s ≠ stStopped && timed i s && s.fb (STEP_CTRL i) STEP_CTRL.TSRC && s.fv (STEP_CTRL i) STEP_CTRL.TMR == n && !(s.inst i).final then
      seqTick i (stepCur i s + 1) s.now s
    else s) s

/-- INSTANCE_COMMIT (R191, R203): every cluster holding a participant has committed the next step. -/
def execInstanceCommit (i : InstNo) (s : State) : Res :=
  let n := i.val
  let x := s.inst n
  match x.opened with
  | none => ok s
  | some o =>
    let cs := partCl n s
    let done := cs.map fun c => (s.cluster c).committed
    let low := done.foldl (fun (m : Option Nat) (d : Option Nat) => match m, d with
      | some a, some b => some (if a < b then a else b)
      | _, _ => none) (some o)
    match low with
    | none => ok s
    | some t =>
      let fresh := match x.committed with
        | some c => decide (c < t)
        | none => true
      if cs = [] ∨ fresh = false then ok s else
      let s := s.setInst n { x with committed := some t, late := x.late ++ ((x.closeT.map (·.1)).filter fun k =>
        decide (k ≤ t) && (match x.committed with
          | some c => decide (c < k)
          | none => true) && decide (2 * s.now > presentT2 n k s + 1)) }
      if x.final ∧ t = o then
        let s := if s.fv (STEP_LIMIT n) STEP_LIMIT.LIMIT ≤ t ∨ t + 1 = anyStep then s.fs (STEP_STATUS n) STEP_STATUS.LIMIT_HIT 1 else s
        ok (seqStopped n s)
      else ok s

/-! Starting and stopping -/

/-- START on a stopped instance (R202). A Lockstep root opens the first step here and at the child devices that have reported the step at
which it stands (R318). -/
def seqStart (i : Nat) (s : State) : State :=
  let x := s.inst i
  let t := stepCur i s
  let kids := x.reports.map (·.1)
  let s := s.setInst i { x with injected := 0, delivered := 0, remInj := 0, remDel := 0, diffs := [], rdiffs := [], first := none,
                                opened := none, final := false, tokens := [], doneCl := [], nextTick := t + 1, ticks := [],
                                committed := none, tmoStep := none, tmoLogged := false }
  let s := (partCl i s).foldl (fun s c => s.setCluster c { s.cluster c with committed := none }) s
  let s := servState (s.fs (STEP_STATUS i) STEP_STATUS.STATE stRunning)
  if !timed i s && s.fb (STEP_SGRP i) STEP_SGRP.ROOT then advKids i (t + 1) s.now kids (seqSend i s.now s) else s
/-- STOP (R203): nothing open stops at once. -/
def seqStop (i : Nat) (s : State) : State :=
  if stepState i s ≠ stRunning then s
  else if (s.inst i).opened.isNone then seqStopped i s
  else s.fs (STEP_STATUS i) STEP_STATUS.STATE stStopping

/-- Writable fields of STEP_CTRL. -/
def stepCtrlRw : Nat := 0xF001F
/-- A write of STEP_CTRL (R202–R204). -/
def writeStepCtrl (q : Req) (i v : Nat) (s : State) : State :=
  onInst q i true (bit v 9 && !bit v 8) (fun s =>
    let old := s.rd (STEP_CTRL i) &&& stepCtrlRw
    let new := v &&& stepCtrlRw
    let lag := bits v 16 4
    let st := stepState i s
    let busy := s.fv (SEC_INST i) SEC_INST.STATE ≥ 2
    let confPf := s.conf i && !isVf q
    let v2 := s.wr (STEP_CTRL i) new
    let nxt := stepCur i s + 1
    let bad := nxt = anyStep ∨ nxt > s.fv (STEP_LIMIT i) STEP_LIMIT.LIMIT
      ∨ (bit v 0 = true ∧ bit v 1 = false ∧ tickTime i nxt v2 < (s.now : Int) + 10000)
      ∨ (bit v 0 = true ∧ bit v 1 = true ∧ s.fb (TMR_OWN (bits v 2 3)) TMR_OWN.VALID = true ∧ s.fv (TMR_OWN (bits v 2 3)) TMR_OWN.INST ≠ i)
    if st ≠ stStopped ∧ old ≠ new ∧ confPf = false then s.done q cREFUSED [] false
    else if (bit v 8 ∧ bit v 9) ∨ (confPf = false ∧ (lag = 0 ∨ lag > 8)) then s.done q cBAD_ARG [] false
    else if bit v 8 ∧ st = stStopped ∧ bad then s.done q cBAD_ARG [] false
    else if bit v 8 ∧ (st = stStopping ∨ busy) then s.done q cRETRY [] false
    else
      let s := if confPf then s else v2
      let s := if bit v 8 ∧ st = stStopped then seqStart i s else s
      let s := if bit v 9 then seqStop i s else s
      s.done q cOK [] false) s

/-- STEP_START (R202): a write of STEP_CTRL with START = 1. -/
def execStepStart (q : Req) (i : InstNo) (v : Word) (s : State) : Res := ok (writeStepCtrl q i.val (setBits v.toNat 8 1 1) s)
/-- STEP_STOP (R203): a write of STEP_CTRL with STOP = 1. -/
def execStepStop (q : Req) (i : InstNo) (v : Word) (s : State) : Res := ok (writeStepCtrl q i.val (setBits v.toNat 9 1 1) s)

/-! Statistics reduction (R187, R188) -/

/-- The copy of the SYNC_STAT registers of instance `i`. -/
def statCopy (i : Nat) : Nat := 4 + i
/-- A write of SYNC_STAT_CTRL. -/
def writeStatCtrl (q : Req) (v : Nat) (s : State) : State := s.gate q 6 fun s =>
  let i := match q with
    | .vf n => n.val
    | _ => bits v 4 4
  let k := SYNC_STAT_CTRL (statCopy i)
  if bits v 1 2 > 1 then s.done q cBAD_ARG [] false
  else if bit v 0 ∧ s.fb k SYNC_STAT_CTRL.BUSY then s.done q cRETRY [] false
  else
    let s := (s.fs k SYNC_STAT_CTRL.WHEN (bits v 1 2)).fs k SYNC_STAT_CTRL.CLR (bits v 3 1)
    let s := if isVf q then s else s.fs (SYNC_STAT_CTRL (reqIx q)) SYNC_STAT_CTRL.INST i
    let s := if bit v 0 then
        let s := syncOut syRoot 9 i 0 (bits v 3 1) (s.fs k SYNC_STAT_CTRL.BUSY 1)
        s.setInst i { s.inst i with stat := some ⟨bits v 1 2 == 0, bit v 3, none, []⟩ }
      else s
    s.done q cOK [] false
/-- STAT_REDUCE_GO (R187): a write of SYNC_STAT_CTRL with GO = 1. -/
def execStatReduceGo (q : Req) (v : Word) (s : State) : Res := ok (writeStatCtrl q (setBits v.toNat 0 1 1) s)

/-- Trackers of the cores of one cluster (slots that hold an LCID and are not gone), captured and cleared when asked. -/
def statCap (clr : Bool) (i c : Nat) (s : State) : (Nat × Nat × Nat × Nat × Nat) × State :=
  let ps := (clSlots c).filter fun p => (s.lcid p).isSome && !s.slotGone p
  let mx := fun (f : Nat → Nat) => ps.foldl (fun a p => if f p > a then f p else a) 0
  let sum := fun (f : Nat → Nat) => ps.foldl (fun a p => a + f p) 0
  let r := (c, mx (fun p => s.rd (MAC_MAXABS_I p)), mx (fun p => s.rd (MAC_MAXABS_F p)), sum (fun p => s.rd64 (MAC_CLIP p)), sum (fun p => s.rd64 (MAC_ELEM p)))
  (r, if clr && s.clInst c == some i then ps.foldl (fun s p => (((s.wr (MAC_MAXABS_I p) 0).wr (MAC_MAXABS_F p) 0).wr64 (MAC_CLIP p) 0).wr64 (MAC_ELEM p) 0) s else s)

/-- Instance `i` stands at a step boundary: none of its participants is within a step. -/
def atBoundary (i : Nat) (s : State) : Bool := (s.partCores i).all fun p => (s.core p).phase == .idle
/-- STAT_CAPTURE (R187): the capture of a reduction asked for and not yet captured; with WHEN = 0 it waits for a step boundary. -/
def execStatCapture (i : InstNo) (s : State) : Res :=
  let n := i.val
  match (s.inst n).stat with
  | some ⟨b, clr, none, rsp⟩ =>
    if b && !atBoundary n s then ok s else
    let (cap, s) := (s.instClusters n).foldl (fun (q : List (Nat × Nat × Nat × Nat × Nat) × State) c =>
      if q.2.clGone c then q else
      let (r, s) := statCap clr n c q.2
      (q.1 ++ [r], s)) ([], s)
    ok (s.setInst n { s.inst n with stat := some ⟨b, clr, some cap, rsp⟩ })
  | _ => ok s

/-- SYNC_STAT_RSP (R187, R248): the response of cluster `c` is combined. -/
def execSyncStatRsp (c : Cl) (w0 w1 : DWord) (s : State) : Res :=
  ok (onSync 0xA w0 w1 (fun n _ _ s =>
    match (s.inst n).stat with
    | some x =>
      if ((x.cap.getD []).any fun r => r.1 == c.val) && !x.rsp.contains c.val then
        s.setInst n { s.inst n with stat := some { x with rsp := x.rsp ++ [c.val] } }
      else s
    | none => s) s)

/-- The partition of a cluster (8 × 8 grid of 4 × 4 quarters, R29). -/
def partOf (c : Nat) : Nat := c / 32 * 2 + c % 8 / 4

/-- STAT_REDUCE_COMPLETE (R187): every response has been combined. -/
def execStatReduceComplete (i : InstNo) (s : State) : Res :=
  let n := i.val
  let q := statCopy n
  match (s.inst n).stat with
  | some ⟨_, _, some cap, rsp⟩ =>
    if cap.all (fun r => rsp.contains r.1) then
      let mx := fun (l : List Nat) => l.foldl (fun a v => if v > a then v else a) 0
      let s := (List.range 4).foldl (fun s k =>
        let l := cap.filter fun r => partOf r.1 == k
        (s.wr (SYNC_MAXABS_I_P q k) (mx (l.map (·.2.1)))).wr (SYNC_MAXABS_F_P q k) (mx (l.map (·.2.2.1)))) s
      let s := (s.wr (SYNC_MAXABS_I_DEV q) (mx (cap.map (·.2.1)))).wr (SYNC_MAXABS_F_DEV q) (mx (cap.map (·.2.2.1)))
      let s := (s.wr64 (SYNC_CLIP_DEV q) (cap.foldl (fun a r => a + r.2.2.2.1) 0 % 2 ^ 64)).wr64 (SYNC_ELEM_DEV q) (cap.foldl (fun a r => a + r.2.2.2.2) 0 % 2 ^ 64)
      let k := SYNC_STAT_CTRL q
      let s := (s.fs k SYNC_STAT_CTRL.TAG ((s.fv k SYNC_STAT_CTRL.TAG + 1) % 65536)).fs k SYNC_STAT_CTRL.BUSY 0
      ok (s.setInst n { s.inst n with stat := none })
    else ok s
  | _ => ok s

end Sys2Proof.Machine
end

