-- ==== Sys2Proof/Machine/TimeFam.lean ====
section
/-! DEFINITION. Device time (R205–R212), the timers (R213–R218) and MEASURE (R494–R498). -/
namespace Sys2Proof.Machine

/-! Captures (R495, R496) -/

/-- The offset of a key without its requester copy. -/
def keyOff (k : Nat) : Nat := k % 2 ^ 32
/-- The unit that owns an offset captures now: its cluster is powered (R495). -/
def captures (k : Nat) (s : State) : Bool :=
  if 0x1000000 ≤ keyOff k ∧ keyOff k < 0x2000000 then !s.clGone ((keyOff k - 0x1000000) / 0x40000) else true
/-- A register offset of a block that takes part in captures. -/
def capBlock (k : Nat) : Bool :=
  let o := keyOff k
  !(0x10000 ≤ o && o < 0x30000) && !(0x700000 ≤ o && o < 0x1000000)
/-- Offsets of the tag registers (R496). -/
def tagOffsets : List Nat :=
  [0x100000 + 0xEFFC, 0x200000 + 0xEFFC, 0x30000 + 0xEFFC, 0x400000 + 0xEFFC, 0x600000 + 0xEFFC]
  ++ ((List.range 12).map fun p => base_jlk p + 0xEFFC) ++ [0x50EFFC, 0x51EFFC]
def clTag (c : Nat) : Nat := 0x1000000 + c * 0x40000 + 0xEFFC
def coreTag (p : Nat) : Nat := base_core p + 0x7FC
/-- Every capturing unit captures as number `n`: shadows take the values at the start of the cycle (R495). -/
def captureAll (n : Nat) (s : State) : State :=
  let keep := s.dev.shadow.filter fun e => !captures e.1 s
  let sh := (s.regs.filter fun e => capBlock e.1 && captures e.1 s).foldl (fun m e => sinsert e.1 e.2 m) keep
  let s := { s with dev := { s.dev with shadow := sh } }
  let s := tagOffsets.foldl (fun s o => s.wr o n) s
  (List.range 64).foldl (fun s c => if s.clGone c then s else
    (clSlots c).foldl (fun s p => s.wr (coreTag p) n) (s.wr (clTag c) n)) s

/-- The next capture number: the last plus 1, skipping 0. -/
def nextMeas (s : State) : Nat :=
  let n := (s.fv SYNC_MEAS_STAT SYNC_MEAS_STAT.LAST + 1) % 65536
  if n = 0 then 1 else n
/-- A capture is made: pending becomes busy. -/
def measCapture (n : Nat) (s : State) : State :=
  let s := captureAll n s
  let s := { s with dev := { s.dev with meas := s.dev.meas.map fun (x : Nat × Nat × Nat) => (x.1, x.2.1, s.now) } }
  (s.fs SYNC_MEAS_STAT SYNC_MEAS_STAT.PEND 0).fs SYNC_MEAS_STAT SYNC_MEAS_STAT.BUSY 1
/-- The capture pending in mode `m`, when due. -/
def measDue (m : Nat) (s : State) : Option Nat :=
  match s.dev.meas with
  | some (mode, n, v) =>
    if mode ≠ m ∨ s.fb SYNC_MEAS_STAT SYNC_MEAS_STAT.PEND = false then none
    else if m = 1 then
      (match (s.inst (s.fv SYNC_MEAS_CTRL SYNC_MEAS_CTRL.INST)).opened with
       | some o => if o ≥ v then some n else none
       | none => none)
    else if m = 2 ∧ s.now < v then none else some n
  | none => none
/-- A MEASURE message of operation `op` reaches the capturing units: the capture of its number is made when it is due (R250). -/
def measMsg (op : Nat) (w0 w1 : DWord) (s : State) : State :=
  onSync op w0 w1 (fun _ _ a s =>
    match measDue (op - 3) s with
    | some n => if bits a 0 16 = n then measCapture n s else s
    | none => s) s
/-- SYNC_MEAS_NOW (R250). -/
def execSyncMeasNow (w0 w1 : DWord) (s : State) : Res := ok (measMsg 3 w0 w1 s)
/-- SYNC_MEAS_STEP (R250): at the open of the named step. -/
def execSyncMeasStep (w0 w1 : DWord) (s : State) : Res := ok (measMsg 4 w0 w1 s)
/-- SYNC_MEAS_TIME (R250): when TIME64 has reached the named time. -/
def execSyncMeasTime (w0 w1 : DWord) (s : State) : Res := ok (measMsg 5 w0 w1 s)
/-- The units that capture and acknowledge beside the root: the agents of clusters that are on, and the sync nodes (R495, R498). -/
def measUnits (s : State) : List SyncUnit :=
  (((List.finRange 64).filter fun c => !s.clGone c.val).map SyncUnit.cluster) ++ (List.finRange 16).map SyncUnit.node
/-- The units that have not acknowledged the capture. -/
def measLeft (s : State) : List SyncUnit := (measUnits s).filter fun u => !s.dev.measAcks.contains u
/-- A capture ends (R498): LAST, and MISS with TMO when units did not acknowledge. -/
def measEnd (miss : Nat) (tmo : Bool) (s : State) : State :=
  match s.dev.meas with
  | some (_, n, t) =>
    if s.fb SYNC_MEAS_STAT SYNC_MEAS_STAT.BUSY = false then s else
    let s := { s with dev := { s.dev with meas := none, measAcks := [] } }.wr64 SYNC_MEAS_T t
    let k := SYNC_MEAS_STAT
    (((s.fs k SYNC_MEAS_STAT.LAST n).fs k SYNC_MEAS_STAT.BUSY 0).fs k SYNC_MEAS_STAT.TMO (b2n tmo)).fs k SYNC_MEAS_STAT.MISS miss
  | none => s
/-- The sync node and the partition above a unit that acknowledges upward (R246). -/
def unitNode : SyncUnit → Option Nat
  | .cluster c => some (syncNodeOf c.val)
  | .node n => some n.val
  | .jlk _ | .host | .eth _ => none
/-- The nodes above unit `u` pass on what they have combined when nothing below them in `left` is still awaited (R248). -/
def nodesUp (u : SyncUnit) (left : List SyncUnit) (op i t a : Nat) (s : State) : State :=
  match unitNode u with
  | none => s
  | some n =>
    if left.any (fun v => unitNode v == some n) then s else
    let s := syncOut (syNode n) op i t a s
    let p := syncPartOf n
    if left.any (fun v => (unitNode v).any fun m => syncPartOf m == p) then s else syncOut (syPart p) op i t a s
/-- SYNC_MEAS_ACK (R248, R498): a unit acknowledges the capture made; the last acknowledgement ends it. -/
def execSyncMeasAck (u : SyncUnit) (w0 w1 : DWord) (s : State) : Res :=
  ok (onSync 6 w0 w1 (fun i t a s =>
    match s.dev.meas with
    | none => s
    | some (_, n, _) =>
      if s.fb SYNC_MEAS_STAT SYNC_MEAS_STAT.BUSY = false ∨ bits a 0 16 ≠ n ∨ (measLeft s).contains u = false then s else
      let s := { s with dev := { s.dev with measAcks := s.dev.measAcks ++ [u] } }
      let s := nodesUp u (measLeft s) 6 i t a s
      if measLeft s = [] then measEnd 0 false s else s) s)
/-- MEASURE_ACK_TIMEOUT (R498): MISS is the number of units that have not acknowledged. -/
def execMeasureAckTimeout (s : State) : Res := ok (measEnd (measLeft s).length true s)

/-- A write of SYNC_MEAS_CTRL (R494). -/
def writeMeasCtrl (q : Req) (v : Nat) (s : State) : State :=
  onDev q (fun s =>
    let mode := bits v 1 2
    let i := bits v 4 4
    let st := SYNC_MEAS_STAT
    let pend := s.fb st SYNC_MEAS_STAT.PEND
    let s1 := (s.fs SYNC_MEAS_CTRL SYNC_MEAS_CTRL.MODE mode).fs SYNC_MEAS_CTRL SYNC_MEAS_CTRL.INST i
    let stp := s.fv SYNC_MEAS_STEP SYNC_MEAS_STEP.STEP
    let tim := s.rd64 SYNC_MEAS_TIME
    if mode = 3 then s.done q cBAD_ARG [] false
    else if bit v 3 ∧ pend then
      let s := { s1 with dev := { s.dev with meas := none } }.fs st SYNC_MEAS_STAT.PEND 0
      s.done q cOK [] false
    else if bit v 0 = false then s1.done q cOK [] false
    else if (mode = 1 ∧ stp ≤ stepCur i s) ∨ (mode = 2 ∧ tim > s.now + 2 ^ 47) then s.done q cBAD_ARG [] false
    else if pend ∨ s.fb st SYNC_MEAS_STAT.BUSY then s.done q cRETRY [] false
    else
      let n := nextMeas s
      let s := { s1 with dev := { s.dev with meas := some (mode, n, if mode = 1 then stp else tim) } }.fs st SYNC_MEAS_STAT.PEND 1
      let s := syncOut syRoot (3 + mode) i (if mode = 1 then stp else 0) (n + (if mode = 2 then tim % 2 ^ 48 * 2 ^ 16 else 0)) s
      s.done q cOK [] false) s
/-- A GO write with mode `m`. -/
def measGo (q : Req) (m : Nat) (v : Word) (s : State) : State := writeMeasCtrl q (setBits (setBits v.toNat 0 1 1) 1 2 m) s
/-- MEASURE_NOW (R494). -/
def execMeasureNow (q : Req) (v : Word) (s : State) : Res := ok (measGo q 0 v s)
/-- MEASURE_AT_STEP (R494). -/
def execMeasureAtStep (q : Req) (v : Word) (s : State) : Res := ok (measGo q 1 v s)
/-- MEASURE_AT_TIME (R494). -/
def execMeasureAtTime (q : Req) (v : Word) (s : State) : Res := ok (measGo q 2 v s)
/-- MEASURE_CANCEL (R494). -/
def execMeasureCancel (q : Req) (v : Word) (s : State) : Res := ok (writeMeasCtrl q (setBits (setBits v.toNat 3 1 1) 0 1 0) s)

/-! TIME64 -/

/-- 2^-32 ns that one TCLK cycle adds to TIME64 beside slew: 2 ns and the rate trim. -/
def tickBase (s : State) : Int := 2 * (2 ^ 32 : Nat) + sx 32 (s.rd TIME_RATE)
/-- The most that one TCLK cycle slews, in 2^-32 ns. -/
def slewStep (s : State) : Nat := 2 * 2 ^ 32 * s.fv TIME_SLEW TIME_SLEW.PPM / 1000000
/-- The offset outstanding is not being applied: a backward offset recorded with BIGSLEW = 0 (Table 6-3). -/
def slewHeld (s : State) : Bool := s.fb TIME_STATUS TIME_STATUS.BACKSTEP && !s.fb TIME_CTRL TIME_CTRL.BIGSLEW
/-- One million nanoseconds in 2^-32 ns. -/
def ms32 : Int := ((1000000 * 2 ^ 32 : Nat) : Int)

/-- TIME_EXT: TIME64 plus the offset still to be applied (R208). -/
def timeExt (s : State) : Nat := tc 64 ((s.now : Int) + s.dev.slewLeft / (2 ^ 32 : Nat))

/-- LOCK after an offset (R210); the run of offsets within the window is counted while acquiring. -/
def lockOffset (o : Int) (s : State) : State :=
  let k := TIME_STATUS
  let l := s.fv k TIME_STATUS.LOCK
  let win : Int := s.fv TIME_LOCKWIN TIME_LOCKWIN.NS
  let inside := decide (-win ≤ o ∧ o ≤ win)
  let back := decide (o < -1000000)
  let run := if inside && l == 1 then s.dev.lockRun + 1 else 0
  let s := { s with dev := { s.dev with lockRun := run } }
  if back then s
  else if l = 0 then (if s.fb TIME_CTRL TIME_CTRL.SRC then s.fs k TIME_STATUS.LOCK 1 else s)
  else if l = 1 then (if run ≥ 8 then s.fs k TIME_STATUS.LOCK 2 else s)
  else if l = 2 then (if inside then s else s.fs k TIME_STATUS.LOCK 1)
  else s.fs k TIME_STATUS.LOCK 1

/-! Timers -/

/-- Clear the counter and the fraction of timer `n`. -/
def tmrClear (n : Nat) (s : State) : State := setTmrFrac n 0 (s.wr64 (TMR_COUNT n) 0)
def tmrCmp (n : Nat) : Bool → Nat
  | false => TMR_CMP0 n
  | true => TMR_CMP1 n
def tmrInt (n : Nat) : Bool → Nat
  | false => TMR_INT0 n
  | true => TMR_INT1 n
/-- Compare `c` of timer `n` fires (R215, R216). -/
def tmrFire (n : Nat) (c : Bool) (s : State) : State :=
  let key := 2 * n + b2n c
  let cnt := s.rd64 (TMR_COUNT n)
  let cmp := s.rd64 (tmrCmp n c)
  let int := s.rd64 (tmrInt n c)
  if cnt < cmp ∨ s.dev.tmrFired.contains key then s else
  let s := if int = 0 then { s with dev := { s.dev with tmrFired := key :: s.dev.tmrFired } }
    else
      let k := (cnt - cmp) / int
      (s.wr64 (tmrCmp n c) ((cmp + (k + 1) * int) % 2 ^ 64)).inc (TMR_MISS n) k
  let s := s.fs (TMR_STATUS n) (if c then TMR_STATUS.CMP1_HIT else TMR_STATUS.CMP0_HIT) 1
  let s := if s.fb (TMR_CTRL n) (if c then TMR_CTRL.CMP1_IE else TMR_CTRL.CMP0_IE) then
      let s := (s.emit (.mgmt 0x20 [n, b2n c])).emit (.msix 0 (48 + n))
      if s.fb (TMR_OWN n) TMR_OWN.VALID then s.emit (.msix (s.fv (TMR_OWN n) TMR_OWN.INST + 1) 6) else s
    else s
  if c then s else
  let s := (List.range 8).foldl (fun s m =>
    if m = n ∨ s.fv (TMR_CTRL m) TMR_CTRL.LEAD ≠ n then s
    else match s.fv (TMR_CTRL m) TMR_CTRL.FMODE with
      | 2 => s.fs (TMR_CTRL m) TMR_CTRL.EN 1
      | 3 => tmrClear m s
      | _ => s) s
  timerTick n s
/-- Every compare that is due fires (R215). -/
def tmrFires (s : State) : State := (List.range 8).foldl (fun s n => tmrFire n true (tmrFire n false s)) s
/-- TIMER_SOURCE_EVENT (R213, R214): a cycle of AONCLK, or an edge of SYNC_IN after which the pin stands at the level given. -/
def execTimerSourceEvent (e : TmrSource) (s : State) : Res :=
  match e with
  | .aonclk => ok (tmrSource (fun n => tmrSrc n s == 0) s)
  | .syncIn high =>
    if s.pin pinSYNC_IN = high then ok s else
    let s := s.setPin pinSYNC_IN high
    ok (tmrSource (fun n => tmrSrc n s == 3 || (high && tmrSrc n s == 2)) s)
/-- TIMER_COMPARE_FIRE (R215): `c` selects the compare. -/
def execTimerCompareFire (n : Fin 8) (c : Bool) (s : State) : Res := ok (tmrFire n.val c s)

/-- The rights over timer `n` (R218); a load holds the timers of its instance (Table 11-5 step 3). -/
def onTimer (q : Req) (n : Nat) (write : Bool) (f : State → State) (s : State) : State := s.gate q 5 fun s =>
  let own := s.fb (TMR_OWN n) TMR_OWN.VALID
  let i := s.fv (TMR_OWN n) TMR_OWN.INST
  let mine := match q with
    | .vf v => own && i == v.val
    | _ => true
  if !mine then s.cross q else s.late q false false (write && own && loading i s) f
/-- Following leaders from timer `m` reaches `n`. -/
def leadsTo (lead : Nat → Nat) (n : Nat) : Nat → Nat → Bool
  | 0, _ => false
  | f + 1, m => m == n || leadsTo lead n f (lead m)
/-- A write of TMR_CTRL (R213–R217). A timer whose FMODE is 0x0 has no leader. -/
def writeTmrCtrl (q : Req) (n v : Nat) (s : State) : State :=
  onTimer q n true (fun s =>
    let lead := bits v 10 3
    let fm := bits v 13 2
    let next := fun m => if s.fv (TMR_CTRL m) TMR_CTRL.FMODE = 0 then 8 else s.fv (TMR_CTRL m) TMR_CTRL.LEAD
    if bits v 4 3 = 7 ∨ (fm ≠ 0 ∧ leadsTo next n 9 lead) then s.done q cBAD_ARG [] false
    else
      let s := s.wr (TMR_CTRL n) (v &&& 0x37F71)
      let s := if bit v 1 then (tmrClear n s).wr (TMR_MISS n) 0 else s
      s.done q cOK [] false) s
/-- TIMER_CLR (R217): a write of TMR_CTRL with CLR = 1. -/
def execTimerClr (q : Req) (n : Fin 8) (v : Word) (s : State) : Res := ok (writeTmrCtrl q n.val (setBits v.toNat 1 1 1) s)
/-- A write of TMR_COUNT (R217). -/
def writeTmrCount (q : Req) (n v : Nat) (s : State) : State :=
  onTimer q n true (fun s => if s.fb (TMR_CTRL n) TMR_CTRL.EN then s.done q cREFUSED [] false else (s.wr64 (TMR_COUNT n) v).done q cOK [] false) s
/-- TMR_COUNT_WRITE (R217). -/
def execTmrCountWrite (q : Req) (n : Fin 8) (v : DWord) (s : State) : Res := ok (s.keep q (TMR_COUNT n.val) (writeTmrCount q n.val v.toNat s))
/-- A write of a compare register arms it again (R215). -/
def writeTmrCmp (q : Req) (n : Nat) (c : Bool) (v : Nat) (s : State) : State :=
  onTimer q n true (fun s =>
    (({ s with dev := { s.dev with tmrFired := s.dev.tmrFired.filter (· != 2 * n + b2n c) } }).wr64 (tmrCmp n c) v).done q cOK [] false) s
/-- A write of TMR_OWN (R218). -/
def writeTmrOwn (q : Req) (n v : Nat) (s : State) : State := s.gate q 5 fun s =>
  match q with
  | .vf i => if s.fb (TMR_OWN n) TMR_OWN.VALID && s.fv (TMR_OWN n) TMR_OWN.INST == i.val then s.done q cREFUSED [] false else s.cross q
  | _ =>
    if (s.fb (TMR_OWN n) TMR_OWN.VALID ∧ s.conf (s.fv (TMR_OWN n) TMR_OWN.INST)) ∨ (bit v 4 ∧ s.conf (bits v 0 4)) then s.cross q
    else if s.fb (TMR_CTRL n) TMR_CTRL.EN then s.done q cREFUSED [] false
    else if bit v 4 && (resetting (bits v 0 4) s || loading (bits v 0 4) s) then s.done q cRETRY [] false
    else ((if bit v 4 then activate (bits v 0 4) s else s).wr (TMR_OWN n) (v % 32)).done q cOK [] false
/-- TMR_OWN_WRITE (R218). -/
def execTmrOwnWrite (q : Req) (n : Fin 8) (v : Word) (s : State) : Res := ok (writeTmrOwn q n.val v.toNat s)

/-! Offsets, rate, reference -/

/-- The second in which TIME64 + TIME_PPSO_OFS stands (R212). -/
def ppsSecond (s : State) : Int := ((s.now : Int) + sx 32 (s.rd TIME_PPSO_OFS)) / 1000000000
/-- PPS_OUT rises when a second boundary has passed since the last one noted (R212); a pulse in progress goes on. -/
def ppsRise (s : State) : State :=
  if s.fb TIME_CTRL TIME_CTRL.PPSO_EN = false ∨ ppsSecond s ≤ s.dev.ppsSec then s else
  let s := { s with dev := { s.dev with ppsSec := ppsSecond s } }
  if s.pin pinPPS_OUT then s else s.drive pinPPS_OUT true
/-- A capture at a time that has come. -/
def measAtTime (s : State) : State :=
  match measDue 2 s with
  | some n => measCapture n s
  | none => s
/-- A forward step of `o` ns (R208, R209). The one event of timer source 0x6 is the first multiple of 1,000 ns that the step passes; the
compares it makes due fire after a capture whose time is not later, and before one whose time is (log entry 79). -/
def forwardStep (o : Nat) (s : State) : State :=
  let t0 := s.now
  let s := s.wr64 TIME64 ((t0 + o) % 2 ^ 64)
  let s := { s with dev := { s.dev with slewLeft := 0 } }
  let k := TIME_STATUS
  let s := ((s.fs k TIME_STATUS.FWDSTEP 1).fs k TIME_STATUS.SLEWING 0).fs k TIME_STATUS.BACKSTEP 0
  let s := s.log 0x09 none [s.rd k, o % 2 ^ 32, o / 2 ^ 32]
  let s := (List.range 16).foldl (fun s i =>
    if timed i s then (s.wr64 (STEP_SHIFT i) ((s.rd64 (STEP_SHIFT i) + o) % 2 ^ 64)).fs (STEP_STATUS i) STEP_STATUS.FWDSHIFT 1 else s) s
  let s := ppsRise s
  if t0 / 1000 = (t0 + o) / 1000 then measAtTime s else
  let s := tmrSource (fun n => tmrSrc n s == 6) s
  let first := match s.dev.meas with
    | some (_, _, v) => decide (v ≤ (t0 / 1000 + 1) * 1000)
    | none => true
  let fire := fun (s : State) => (List.range 8).foldl (fun s n => if tmrSrc n s = 6 then tmrFire n true (tmrFire n false s) else s) s
  if first then fire (measAtTime s) else measAtTime (fire s)
/-- An offset `o` is applied (Table 6-3). -/
def applyOffset (o : Int) (s : State) : State :=
  let k := TIME_STATUS
  let s := lockOffset o s
  let back := s.fb k TIME_STATUS.BACKSTEP
  if o > 1000000 then forwardStep o.toNat s
  else
    let s := { s with dev := { s.dev with slewLeft := o * ((2 ^ 32 : Nat) : Int) } }
    if o ≥ -1000000 then (s.fs k TIME_STATUS.BACKSTEP 0).fs k TIME_STATUS.SLEWING (b2n (decide (o ≠ 0)))
    else
      let s := ((s.fs k TIME_STATUS.BACKSTEP 1).fs k TIME_STATUS.BACKSEEN 1).wr64 TIME_BACKSTEP_OFS (tc 64 o)
      let s := s.fs k TIME_STATUS.SLEWING (s.fv TIME_CTRL TIME_CTRL.BIGSLEW)
      if back then s else s.log 0x09 none [s.rd k, tc 64 o % 2 ^ 32, tc 64 o / 2 ^ 32]
/-- Who may write TIME_ADJ and TIME_RATE (R207). -/
def mayAdjust (q : Req) (s : State) : Bool :=
  match q with
  | .mp => true
  | .vf _ => false
  | _ => !s.fb TIME_CTRL TIME_CTRL.SRC
/-- A write of TIME_ADJ. -/
def writeTimeAdj (q : Req) (v : Nat) (s : State) : State := s.gate q 5 fun s =>
  if isVf q then s.cross q
  else if mayAdjust q s = false then s.done q cREFUSED [] false
  else (applyOffset (sx 64 v) s).done q cOK [] false
/-- TIME_ADJ_WRITE (R208). -/
def execTimeAdjWrite (q : Req) (v : DWord) (s : State) : Res := ok (s.keep q TIME_ADJ (writeTimeAdj q v.toNat s))
/-- TIME_SLEW_DONE (R208): the offset has been applied. -/
def execTimeSlewDone (s : State) : Res := ok (if s.dev.slewLeft = 0 then s.fs TIME_STATUS TIME_STATUS.SLEWING 0 else s)
/-- A write of TIME_RATE (R207, R208). -/
def writeTimeRate (q : Req) (v : Nat) (s : State) : State := s.gate q 5 fun s =>
  if isVf q then s.cross q
  else if mayAdjust q s = false ∨ s.fb TIME_STATUS TIME_STATUS.BACKSTEP then s.done q cREFUSED [] false
  else if sx 32 v > 4294967 ∨ sx 32 v < -4294967 then s.done q cBAD_ARG [] false
  else (s.wr TIME_RATE v).done q cOK [] false
/-- TIME_RATE_WRITE (R207). -/
def execTimeRateWrite (q : Req) (v : Word) (s : State) : Res := ok (writeTimeRate q v.toNat s)
/-- A write of TIME_CTRL (R210): SRC 0x0 sets free-run. -/
def writeTimeCtrl (q : Req) (v : Nat) (s : State) : State :=
  onDev q (fun s =>
    if bits v 0 3 > 4 then s.done q cBAD_ARG [] false
    else if 1 ≤ bits v 0 3 ∧ s.dev.fusedEth.contains (bits v 0 3 - 1) then s.done q cUNSUPPORTED [] false else
    let s := if bit v 8 && !s.fb TIME_CTRL TIME_CTRL.PPSO_EN then { s with dev := { s.dev with ppsSec := ppsSecond s } } else s
    let s := s.wr TIME_CTRL (v &&& 0x117)
    let s := if bits v 0 3 = 0 then s.fs TIME_STATUS TIME_STATUS.LOCK 0 else s
    (if bit v 8 = false ∧ s.pin pinPPS_OUT then s.drive pinPPS_OUT false else s).done q cOK [] false) s

/-- TIME_REF_LOSS (R205, R210). -/
def execTimeRefLoss (s : State) : Res :=
  let l := s.fv TIME_STATUS TIME_STATUS.LOCK
  ok ((s.fs TIME_STATUS TIME_STATUS.REFLOSS 1).fs TIME_STATUS TIME_STATUS.LOCK (if l = 0 then 0 else 3))
/-- TIME_REF_RETURN (R205). -/
def execTimeRefReturn (s : State) : Res := ok (s.fs TIME_STATUS TIME_STATUS.REFLOSS 0)
/-- TIME_OFFSET_TIMEOUT (R210): no offset for 4 s. -/
def execTimeOffsetTimeout (s : State) : Res :=
  let l := s.fv TIME_STATUS TIME_STATUS.LOCK
  ok (if l = 1 ∨ l = 2 then s.fs TIME_STATUS TIME_STATUS.LOCK 3 else s)

/-! PPS -/

/-- A write of TIME_TOD (R211). -/
def writeTimeTod (q : Req) (v : Nat) (s : State) : State :=
  onDev q (fun s =>
    let d := s.dev
    let base := if d.todWrites = [] then s.fv TIME_TOD TIME_TOD.SEC else d.todBase
    (({ s with dev := { d with todBase := base, todWrites := (v % 2 ^ 48, s.now) :: d.todWrites } }).fs TIME_TOD TIME_TOD.SEC v).done q cOK [] false) s
/-- The time of day that the edge at `t` takes: the newest value written at least 1 ms before it; and whether a later one stands. -/
def todAt (t : Nat) (s : State) : Nat × Bool :=
  let d := s.dev
  let late := fun (x : Nat × Nat) => decide (t < x.2 + 1000000)
  let sec := match d.todWrites.find? fun x => !late x with
    | some x => x.1
    | none => if d.todWrites = [] then s.fv TIME_TOD TIME_TOD.SEC else d.todBase
  (sec, d.todWrites.any late)
/-- PPS_IN_EDGE (R211, R213): a TIME_TOD written within 1 ms before the edge is for the edge after it. -/
def execPpsInEdge (s : State) : Res :=
  let t := s.now
  let s := tmrSource (fun n => tmrSrc n s == 4) s
  let (sec, late) := todAt t s
  let s : State := { (s.wr64 TIME_PPS_CAP t) with dev := { s.dev with todWrites := [] } }
  let s := if late then s.fs TIME_STATUS TIME_STATUS.TOD_LATE 1 else s
  if s.fv TIME_CTRL TIME_CTRL.SRC ≠ 4 then ok s else
  let s := if late then s else s.fs TIME_TOD TIME_TOD.SEC (sec + 1)
  ok (applyOffset ((sec : Int) * 1000000000 - t) s)
/-- PPS_MISS (R211). -/
def execPpsMiss (s : State) : Res := ok (s.fs TIME_STATUS TIME_STATUS.PPS_MISS 1)
/-- PPS_OUT_RISE (R212). -/
def execPpsOutRise (s : State) : Res := ok (ppsRise s)
/-- PPS_OUT_FALL (R212): TIME_PPSO.WIDTH µs after the rise. -/
def execPpsOutFall (s : State) : Res := ok (if s.pin pinPPS_OUT then s.drive pinPPS_OUT false else s)

/-! One TCLK cycle (log entry 20) -/

/-- A per-mille load of a window of 1,024 cycles. -/
def permille (n : Nat) : Nat := if n ≥ 1024 then 1000 else n * 1000 / 1024
/-- A load window of the endpoint lanes ends: DNET_EP_LOAD keeps the highest (Table 7-18). -/
def loadWindow (s : State) : State :=
  let up := fun (k : Nat) (f : Fld) (v : Nat) (s : State) => if v > s.fv k f then s.fs k f v else s
  let s := s.net.winLoad.foldl (fun s x =>
    let k := DNET_EP_LOAD (x.1 / 4)
    up k DNET_EP_LOAD.ALL (permille x.2.2) (up k DNET_EP_LOAD.EVT (permille x.2.1) s)) s
  s.setNet { s.net with winCyc := s.net.winCyc - 1024, winLoad := [] }
/-- `n` NETCLK cycles pass: held delivery positions, endpoints that wait for a credit and the load window count them (Tables 7-15 and
7-18). -/
def netCycles (n : Nat) (s : State) : State :=
  let waits := fun (c : Nat) (x : ClusterSt) => x.inj.any fun e => e.1 != injFence && bits e.2.1 0 8 != epCluster c
  let s := s.clusters.foldl (fun s x =>
    let s := if x.2.dlv.any fun q => s.fb (CLA_SLOTTAB x.1 q.1) CLA_SLOTTAB.HOLD then s.inc (CLA_RTR_HOLD x.1) n else s
    if waits x.1 x.2 then s.inc (DNET_EP_STALL (epCluster x.1)) n else s) s
  let s := s.net.edge.foldl (fun s x => s.inc (DNET_EP_STALL x.1) n) s
  let s := s.setNet { s.net with winCyc := s.net.winCyc + n,
                                 mgtWait := (s.net.mgtWait.map fun x => (x.1, x.2 - n)).filter fun x => x.2 != 0 }
  if s.net.winCyc ≥ 1024 then loadWindow s else s
/-- What the data network and the queue units can send without a command goes on. -/
def netPump (s : State) : State :=
  let s := netGo s
  let s := s.net.edge.foldl (fun s x => edgeGo x.1 x.2.length s) s
  let s := s.clusters.foldl (fun s x => if x.2.inj = [] then s else routerGo x.1 s) s
  s.cores.foldl (fun s x => if x.2.q.out = [] then s else outPump x.1 s) s
/-- TIME64 advances by one TCLK cycle (R208). -/
def timeTick (s : State) : State :=
  let d := s.dev
  let m : Int := slewStep s
  let sl : Int := if slewHeld s then 0 else if d.slewLeft > m then m else if d.slewLeft < -m then -m else d.slewLeft
  let f := (d.tfrac : Int) + tickBase s + sl
  let left := d.slewLeft - sl
  let s := ({ s with dev := { d with tfrac := (f % (2 ^ 32 : Nat)).toNat, slewLeft := left } }).wr64 TIME64
    ((s.now + (f / (2 ^ 32 : Nat)).toNat) % 2 ^ 64)
  if s.fb TIME_STATUS TIME_STATUS.BACKSTEP && !slewHeld s && decide (left ≥ -ms32) then s.fs TIME_STATUS TIME_STATUS.BACKSTEP 0 else s
/-- One TCLK cycle (log entry 20): TIME64 advances; the timers on TCLK, and at a multiple of 1,000 ns those on source 0x6, count, and the
compares that are due fire; 3.2 NETCLK cycles pass on average. -/
def tclk (s : State) : State :=
  let t0 := s.now
  let s := timeTick s
  let micro := t0 / 1000 != s.now / 1000
  let s := tmrFires (tmrSource (fun n => tmrSrc n s == 1 || (micro && tmrSrc n s == 6)) s)
  let a := s.net.netFrac + 16
  netPump (netCycles (a / 5) (s.setNet { s.net with netFrac := a % 5 }))

end Sys2Proof.Machine
end

