-- ==== Sys2Proof/Machine/NetFam.lean ====
section
/-! DEFINITION. The on-die networks (R219–R253): switches, spines, lanes, the edge of the data network, the control hub and the
congestion map. -/
namespace Sys2Proof.Machine

/-- The virtual channel of a packet kind (Table 7-4): none for a reserved kind; transit uses any but RSP. -/
def pkVc (pk vc : Nat) : Bool :=
  match pk with
  | 0 => vc == 3 | 1 => vc == 2 | 2 => vc == 2 | 3 => vc == 1 | 4 => vc == 1 | 5 => vc == 2 | 6 => vc == 2 | 7 => vc == 0
  | 8 => vc != 1 | 9 => vc == 3 | 10 => vc == 1 | _ => false
/-- A packet is discarded and counted; an event's discard counts as delivered, a request is answered as R43 states: `phys` when the
physical function made it (R220). -/
def netDiscard (h : Nat) (body : List Nat) (answer phys : Bool) (s : State) : State :=
  let pk := bits h 22 4
  let s := s.inc DNET_UNROUTE 1
  if pk = 0 then
    (if bit h 31 then s else countGone (bits h 8 8) (body.headD 0) (bits h 18 4) (bit h 43) (bits h 44 12) s)
  else if answer && (pk == 1 || pk == 2 || pk == 5 || pk == 6) then
    let code := if bits h 8 8 = 0 ∨ phys then cUNSUPPORTED else cREFUSED
    s.emit (.packet (bits h 8 8) (bits h 0 8) (if pk = 2 ∨ pk = 5 then pkWR_CPL else pkRD_RSP) (bits h 18 4) (bits h 32 8) (bits h 40 12) [code])
  else s
/-- A switch checks a header: the header corrected, or none when the packet is discarded (R223). -/
def hdrCheck (sw h : Nat) (s : State) : Option Nat × State :=
  match secDec 57 (h % 2 ^ 57) (bits h 57 7) with
  | (none, _) =>
    let s := s.inc DNET_HDR_UE 1
    (none, s.log 0x0A none [3, sw, s.rd DNET_HDR_UE])
  | (some d, fixed) => (some (hdrSeal d), if fixed then s.inc DNET_HDR_CE 1 else s)
/-- A packet enters at leaf `sw` from its endpoint (R220, R224): it waits at the up-lane to its spine, or is discarded. -/
def leafIn (sw : Nat) (phys : Bool) (h : Nat) (body : List Nat) (s : State) : State :=
  if pkVc (bits h 22 4) (bits h 16 2) = false then netDiscard h body false phys s
  else if epGone (bits h 0 8) s then netDiscard h body true phys s
  else netPut (32 * sw + spineOf h s) (unitOf h body (inEp (bits h 8 8) (epLane (bits h 8 8) h s)) 0 0) s
/-- The packets of a flit that pass the check of a switch: headers with their bodies. -/
def goodPks (sw : Nat) (l : List (Nat × List Nat)) (s : State) : List (Nat × List Nat) × State :=
  l.foldl (fun (q : List (Nat × List Nat) × State) x =>
    match hdrCheck sw x.1 q.2 with
    | (some h, s) => (q.1 ++ [(h, x.2)], s)
    | (none, s) => (q.1, s)) ([], s)
/-- The packets of a flit as one unit between switches. -/
def unitOfPks (inl sp seq : Nat) : List (Nat × List Nat) → Option NUnit
  | [] => none
  | (h, b) :: t => some { unitOf h b inl sp seq with second := t.head?.map fun x => (x.1, x.2.headD 0) }
/-- SWITCH_PACKET_RECEIVE (R220–R224, R226, R239, R240): at leaf `sw` from an endpoint (`up`), at spine `sw`, or at leaf `sw` from spine
`sp`. `seq` numbers the first flit; `resent` names the spine under which a resent flit was first sent. -/
def switchReceive (sw : Nat) (isSpine up : Bool) (sp seq : Nat) (resent : Option Nat) (phys : Bool) (l : List (Nat × List Nat)) (s : State) : State :=
  let (l, s) := goodPks sw l s
  match l with
  | [] => s
  | (h, b) :: _ =>
    let n := (unitOf h b 0 0 0).n
    let src := leafOf (bits h 8 8)
    if isSpine then
      match unitOfPks (inSpine sw src) (resent.getD sw) seq l with
      | some u => netGo (netPut (512 + 16 * sw + leafOf (bits h 0 8)) u s)
      | none => s
    else if up then netGo (l.foldl (fun s x => leafIn sw phys x.1 x.2 s) (countTx (bits h 8 8) h n s))
    else
      let k := 256 * sw + 16 * src + resent.getD sp
      let last := sget (fun _ => 0) k s.net.seqRx
      if resent.isSome ∧ last ≠ 0 ∧ (last + 255 - (seq + n - 1)) % 256 < 128 then s.inc DNET_DUP n
      else
        let s := s.setNet { s.net with seqRx := sset (fun _ => 0) k ((seq + n - 1) % 256 + 1) s.net.seqRx }
        match unitOfPks (inLeaf sw sp) (resent.getD sp) seq l with
        | some u => netGo (netPut (outOfEp (bits h 0 8) h s) u s)
        | none => s
/-- SWITCH_PACKET_RECEIVE (R223). -/
def execSwitchPacketReceive (sw : Fin 16) (isSpine up : Bool) (sp : Fin 16) (seq : Byte) (resent : Option (Fin 16)) (phys : Bool) (hdr : DWord)
    (body : List DWord) (second : Option (DWord × DWord)) (s : State) : Res :=
  ok (switchReceive sw.val isSpine up sp.val seq.toNat (resent.map (·.val)) phys
    ((hdr.toNat, body.map (·.toNat)) :: (second.map fun x => (x.1.toNat, [x.2.toNat])).toList) s)

/-- An injecting edge endpoint checks the block-table entry of DCORE (R228): the event enters the network, or is discarded,
counted and delivered. -/
def edgeInject (ep : Nat) (e : EvtIn) (s : State) : State :=
  let ev := e.ev.toNat
  let i := e.inst.toNat
  let b := DNET_BLK (bits ev 48 12 / 16)
  if s.fb b DNET_BLK.VALID = false then evGone ep e (s.inc DNET_UNROUTE 1)
  else if s.fb b DNET_BLK.IVAL = false ∨ s.fv b DNET_BLK.INST ≠ i then evGone ep e (s.inc DNET_INST_ERR 1)
  else edgeSend ep (evtHdr (epCluster (s.fv b DNET_BLK.CLNUM)) ep i (b2n e.hpar) e.sstep5.toNat e.scl.toNat e.rem e.rank.toNat) ev s
/-- EDGE_EVENT_INJECT (R228). -/
def execEdgeEventInject (ep : Byte) (e : EvtIn) (s : State) : Res := ok (edgeInject ep.toNat e s)

/-! Spines and lanes -/

/-- The next spine in service after `n`, ascending modulo 16. -/
def nextSpine (mask n : Nat) : Nat :=
  (((List.range 16).map fun i => (n + 1 + i) % 16).find? fun k => mask.testBit k).getD n
/-- Leaf `l` resends, in their order, the flits of its replay buffers that went through spine `sp` last, each through the spine that the
map now names and under its original number (Table 7-8 step 3). -/
def resend (l sp : Nat) (s : State) : State :=
  let map := s.rd64 DNET_SPMAP
  (List.range 16).foldl (fun s x =>
    let k := 16 * l + x
    let move := fun (f : RepFlit) => if f.via = sp then { f with via := bits map (4 * f.h) 4 } else f
    let old := s.netReplay k
    old.foldl (fun s f => if f.via = sp then s.emit (flitOut (32 * l + bits map (4 * f.h) 4) x f.seq f.data f.valid) else s)
      (s.setReplay k (old.map move))) s
/-- Packets that waited at the up-lanes to spine `sp` wait at those to their new spines; what the spine itself held is resent. -/
def rehome (sp : Nat) (s : State) : State :=
  let s := (List.range 16).foldl (fun s l => s.setOut (512 + 16 * sp + l) {}) s
  (List.range 16).foldl (fun s l =>
    let o := 32 * l + sp
    let w := (s.netOut o).wait
    w.foldl (fun s u => netPut (32 * l + spineOf u.hdr s) u s) (s.setOut o {})) s
/-- A spine goes out of service (R240, R457). -/
def spineOut (sp : Nat) (s : State) : State :=
  let old := s.fv DNET_STATUS DNET_STATUS.SPINE_OK
  if old.testBit sp = false then s else
  let mask := setBits old sp 1 0
  let s := s.fs DNET_STATUS DNET_STATUS.SPINE_OK mask
  let m := s.rd64 DNET_SPMAP
  let s := s.wr64 DNET_SPMAP ((List.range 16).foldl (fun v h => if bits m (4 * h) 4 = sp then setBits v (4 * h) 4 (nextSpine mask sp) else v) m)
  let s := (List.range 16).foldl (fun s l => resend l sp s) s
  let s := netGo (rehome sp s)
  let s := rasStat (s.inc DNET_SPINE_FAIL 1)
  let few := popcount mask 16 < 12
  let s := s.faultAt 6 (if few then 3 else 1) none sp 0xFFF 0 50
  if few then faultHold 7 s else s
/-- SPINE_FAILURE (R240). -/
def execSpineFailure (sp : Fin 16) (s : State) : Res := ok (spineOut sp.val s)
/-- SPINE_ACK (R239): destination leaf `dst` has delivered every flit up to `seq`. -/
def execSpineAck (leaf sp dst : Fin 16) (seq : Byte) (s : State) : Res :=
  let k := 16 * leaf.val + sp.val
  ok (netGo (s.setReplay k ((s.netReplay k).filter fun f => f.dst != dst.val || decide ((seq.toNat + 256 - f.seq) % 256 ≥ 128))))
/-- A lane goes out of service (R238). -/
def laneOut (l : Lane) (s : State) : State :=
  if s.net.lanesOut.contains l then s else
  let out := rasStat (s.setNet { s.net with lanesOut := l :: s.net.lanesOut })
  match l with
  | .spine _ sp => spineOut sp.val s
  | .cluster c n => out.faultAt 5 1 (some c.val) n.val 0xFFF 0 (2 ^ 32 - 1)
  | .endpoint e => out.faultAt 5 2 none 0 0xFFF e.toNat (2 ^ 32 - 1)
  | .syncAgent c => out.faultAt 5 2 (some c.val) 0 0xFFF 0 (2 ^ 32 - 1)
  | .syncNode n => out.faultAt 5 2 none n.val 0xFFF (syNode n.val) (2 ^ 32 - 1)
  | .syncPart p => out.faultAt 5 2 none p.val 0xFFF (syPart p.val) (2 ^ 32 - 1)
  | .syncPort e => out.faultAt 5 2 none 0 0xFFF e.toNat (2 ^ 32 - 1)
/-- The output that drives a lane of the data network, toward the network (`up`) or away from it; none for a hop of the sync network. -/
def outOfLane (up : Bool) : Lane → Option Nat
  | .spine l sp => some (if up then 32 * l.val + sp.val else 512 + 16 * sp.val + l.val)
  | .cluster c n => some (if up then 768 + epCluster c.val else 32 * (c.val / 4) + 16 + 2 * (c.val % 4) + n.val)
  | .endpoint e =>
    some (if up then 768 + e.toNat else
      32 * leafOf e.toNat + (if e.toNat < 0x20 then 28 + e.toNat % 2 else 24 + e.toNat % 4))
  | .syncAgent _ | .syncNode _ | .syncPart _ | .syncPort _ => none
/-- HOP_RETRY_REQUEST (R238, R246): the receiver of a lane checks the CRC-16 of a flit. A good one ends the run of failures. On a mismatch
the sender resends what its hop retry buffer holds; when the eighth resend in a row has failed, the lane goes out of service. -/
def execHopRetryRequest (l : Lane) (up : Bool) (data : BitVec 256) (valid : BitVec 2) (crc : BitVec 16) (s : State) : Res :=
  let n := ((s.net.lanes.find? fun x => x.1 == l).map (·.2)).getD 0
  let rest := s.net.lanes.filter fun x => x.1 != l
  if flitCrc data.toNat valid.toNat = crc.toNat then ok (s.setNet { s.net with lanes := rest }) else
  let s := s.setNet { s.net with lanes := (l, n + 1) :: rest }
  if n ≥ 8 then ok (laneOut l s) else
  let s := s.inc DNET_HOP_RETRY 1
  match outOfLane up l with
  | none => ok s
  | some o =>
    let buf := ((s.net.hop.find? fun x => x.1 == (l, up)).map (·.2)).getD []
    ok (buf.foldl (fun s f => s.emit (flitOut o 0 0 f.1 f.2)) s)

/-! Watchdog, control hub, congestion map -/

/-- DNET_STALL_TIMEOUT (R237): output `o` by its byte in the congestion map, or 768 + c for the router of
cluster c, and its virtual channel. -/
def execDnetStallTimeout (o : Fin 832) (vc : Fin 4) (s : State) : Res :=
  let s := (s.inc DNET_STALL 1).emit (.mgmt 0x37 [o.val, vc.val])
  let recent := s.net.stallLog.any fun x => x.1 == o.val && decide (s.now < x.2 + 60000000000)
  let s := s.setNet { s.net with stalls := o.val :: s.net.stalls.filter (· != o.val),
                                 stallLog := if recent then s.net.stallLog else (o.val, s.now) :: s.net.stallLog.filter (·.1 != o.val) }
  ok (if recent then s else s.log 0x0A none [4, o.val, vc.val, s.rd DNET_STALL])
/-- CONTROL_TIMEOUT (R243). -/
def execControlTimeout (q : Req) (s : State) : Res := ok ((s.inc DNET_CTL_TMO 1).done q cTIMEOUT [] false)

/-- The lane or spine of byte `o` of the map is out of service. -/
def cmapDown (o : Nat) (s : State) : Bool :=
  let ok := s.fv DNET_STATUS DNET_STATUS.SPINE_OK
  if o ≥ 512 then !ok.testBit ((o - 512) / 16)
  else if o % 32 < 16 then !ok.testBit (o % 32)
  else if o % 32 < 24 then s.net.lanesOut.any fun l => match l with
    | .cluster c n => c.val == 4 * (o / 32) + (o % 32 - 16) / 2 && n.val == (o % 32 - 16) % 2
    | _ => false
  else s.net.lanesOut.any fun l => match l with
    | .endpoint e => e.toNat == (if o % 32 < 28 then 0x80 + 4 * (o / 32) + o % 32 - 24 else 2 * (o / 32) + o % 32 - 28)
    | _ => false
/-- CMAP_PERIOD_END (R251): `occ` gives the occupancies and MGT waits of the period, one byte for each output. -/
def execCmapPeriodEnd (occ : List Byte) (s : State) : Res :=
  if s.fb DNET_CMAP_CTRL DNET_CMAP_CTRL.EN = false then ok s else
  let seq := s.rd (DNET_CMAP 1)
  let byte := fun (o : Nat) =>
    if o < 512 ∧ o % 32 ≥ 30 then 0
    else (occ.getD o 0).toNat % 32 + 32 * b2n (s.net.stalls.contains o) + 128 * b2n (cmapDown o s)
  let s1 := ((s.wr (DNET_CMAP 0) 0x434D4150).wr (DNET_CMAP 1) ((seq / 2 * 2 + 2) % 2 ^ 32)).wr64 (DNET_CMAP 2) s.now
  let s1 := (List.range 192).foldl (fun s w =>
    s.wr (DNET_CMAP (4 + w)) (byte (4 * w) + 2 ^ 8 * byte (4 * w + 1) + 2 ^ 16 * byte (4 * w + 2) + 2 ^ 24 * byte (4 * w + 3))) s1
  let s1 := if s1.fb MGT_CMX_CTRL MGT_CMX_CTRL.EN then { s1 with mgmt := { s1.mgmt with cmx := s1.mgmt.cmx + 1 } } else s1
  ok ((List.range 12).foldl (fun s p => if s.dev.fusedJlk.contains p then s else jlkCmap p s) (s1.setNet { s1.net with stalls := [] }))

/-- Clear the CLA router and fail-operational counters of cluster `c` (R253, R460, R418, R411). -/
def clearClaCounters (c : Nat) (s : State) : State :=
  let b := base_cla c
  let s := ((s.resetRegs (b + 0x540) 0x10).resetRegs (b + 0x604) 8).resetRegs (b + 0x688) 8
  let s := ((s.resetRegs (b + 0x708) 4).resetRegs (b + 0x80C) 0x10).resetRegs (b + 0x820) 4
  let s := (s.resetRegs (b + 0x484) 8)
  s.fs (CLA_JRN_OCC c) CLA_JRN_OCC.HWM (s.fv (CLA_JRN_OCC c) CLA_JRN_OCC.OCC)
/-- A write of DNET_CNT_CLR (R253). -/
def writeDnetCntClr (q : Req) (v : Nat) (s : State) : State :=
  onDev q (fun s =>
    let s := if bit v 0 then
        (List.range 64).foldl (fun s c => clearClaCounters c s) ((s.resetRegs (base_dnet + 0x800) 0x28).resetRegs (base_dnetEp 0) 0x2000)
      else s
    s.done q cOK [] false) s
/-- DNET_CNT_CLR (R253). -/
def execDnetCntClr (q : Req) (v : Word) (s : State) : Res := ok (writeDnetCntClr q v.toNat s)

/-! Band supervisors (R28, R244) -/

/-- BAND_SUPERVISOR_FAIL (R28). -/
def execBandSupervisorFail (b : Fin 8) (s : State) : Res :=
  if s.net.bandsDown.contains b.val then ok s
  else ok ((rasStat (s.setNet { s.net with bandsDown := b.val :: s.net.bandsDown })).faultAt 0xA 1 none b.val 0xFFF 0 10000)
/-- BAND_SUPERVISOR_RECOVER (R28). -/
def execBandSupervisorRecover (b : Fin 8) (s : State) : Res :=
  ok (rasStat (s.setNet { s.net with bandsDown := s.net.bandsDown.filter (· != b.val) }))

end Sys2Proof.Machine
end

