-- ==== Sys2Proof/Machine/Failover.lean ====
section
/-! DEFINITION. Fail-operational behaviour (chapter 14): cluster rewind and spare takeover (R444–R455), the rollback transport
(R249, R59), segment migration (R447), duplicated logic (R456) and the fault record window (R460). -/
namespace Sys2Proof.Machine

/-! Spares -/

/-- The spare slot of a cluster: a good slot that holds no LCID (R32). -/
def spareSlot (c : Nat) (s : State) : Option Nat :=
  if s.fb (CLA_FO_STAT c) CLA_FO_STAT.SPSLOT then
    (List.range 17).find? fun k => !s.slotGone (32 * c + k) && (s.lcid (32 * c + k)).isNone
  else none
/-- The spare segment: a good segment that no slot holds. -/
def spareSeg (c : Nat) (s : State) : Option Nat :=
  if s.fb (CLA_FO_STAT c) CLA_FO_STAT.SPSEG then
    (List.range 17).find? fun g => bit (s.fv (CLA_SEGOK c) CLA_SEGOK.OK) g
      && (List.range 17).all fun k => s.segOf (32 * c + k) != some g
  else none

/-! The registers of a slot -/

/-- Return the counters, statuses and registers of the core port of `p` to reset, but for its PCID and LCID. -/
def clearPort (p : Nat) (s : State) : State :=
  let id := s.rd (CORE_ID p)
  (s.resetRegs (base_core p) 0x2000).wr (CORE_ID p) id
/-- Load the port of `dst` from the shadow of `src`, as it stands in `old`: every register that software or a pattern writes (R398). -/
def loadShadow (old : State) (src dst : Nat) (s : State) : State :=
  regs_core.foldl (fun t r =>
    if r.flds.any (fun f => f.acc == .rw) then
      (List.range r.n).foldl (fun t i => t.wr (base_core dst + r.off + r.stride * i) (old.rd (base_core src + r.off + r.stride * i))) t
    else t) s
/-- Read-only fields that lie beside software's in a register of the shadow start empty. -/
def clearStatus (p : Nat) (s : State) : State :=
  (List.range 4).foldl (fun s g => s.fs (Q_GRND p g) Q_GRND.CNT 0) s

/-! Rollback at a core (R59) -/

/-- Discard the pending entries of slot `p` that `drop` picks; counted in CORE_RB_DISCARD. -/
def pendDiscard (p : Nat) (drop : Nat × Nat → Bool) (s : State) : State :=
  (List.range 16).foldl (fun s k =>
    let (n, s) := ringFilter p k (fun e => !drop e) s
    if n = 0 then s else s.inc (CORE_RB_DISCARD p) n) s
/-- The pending entry comes from source (REM, SRANK, SCL) in sender step `t`. -/
def entryFrom (rem : Bool) (rank scl t : Nat) (e : Nat × Nat) : Bool :=
  bit e.1 39 == rem && bits e.1 40 12 == rank && bits e.1 52 6 == scl && bits e.2 46 5 == t % 32
/-- A rollback notice reaches cluster `c`: its cores discard, and the journal marks the matching records void (R59, R441). -/
def clusterRbk (c : Nat) (rem : Bool) (rank scl t : Nat) (s : State) : State :=
  let rank := if rem then rank else 0
  let s := (clSlots c).foldl (fun s p => if (s.lcid p).isSome then pendDiscard p (entryFrom rem rank scl t) s else s) s
  if !rem && scl == c then s else
  let x := s.cluster c
  s.setCluster c { x with journal := x.journal.map fun r =>
    if r.rem == rem && r.srank == rank && r.scl == scl && r.sstep5 == t % 32 then { r with void := true } else r }

/-! The rewind (Table 14-4) -/

/-- Work of the open step `t` in a core is abandoned: pipelines, staging and the learning hold area (step 2). A core that makes the writes
of an epoch close finishes them first (R113); one that has committed `t` commits it again. -/
def abandon (t p : Nat) (s : State) : State :=
  let s := if s.faulted p then s else closeEnd p 0 s
  let x := s.core p
  s.setCore p { x with phase := .idle, stgHead := 0, stgN := 0, stgWait := [], emitIdx := 0, spiked := [], holdN := 0, holdHead := 0,
                       modSum := 0, swept := false, stampsWas := [], closeFor := none,
                       lastCommit := if x.lastCommit = some t then (if t = 0 then none else some (t - 1)) else x.lastCommit }
/-- Step 2: HOLD on the 16 positions, injection stopped, work abandoned; a close that the cores had already taken is held again. -/
def freeze (c t : Nat) (s : State) : State :=
  let s := (List.range 16).foldl (fun s k => s.fs (CLA_SLOTTAB c k) CLA_SLOTTAB.HOLD 1) s
  let ps := s.clParts c
  let taken := ps.any fun p => (s.core p).phase == .closed || (s.core p).closeFor == some t || (s.core p).lastCommit == some t
  let x := s.cluster c
  let s := s.setCluster c { x with noInject := true, closes := if taken && !x.closes.contains t then t :: x.closes else x.closes }
  ps.foldl (fun s p => abandon t p s) s

/-- The rewind of a core that stays in service (step 7, R59, R115). -/
def survivor (t : Nat) (q : Bool × State) (p : Nat) : Bool × State :=
  let s := q.2
  if halted p s && (s.core p).phase == .idle && (s.core p).lastCommit.isNone then q else
  let (lost, s) := mirRestore p t false s
  let s := pendDiscard p (fun e => bits e.2 51 5 == t % 32) s
  (q.1 || lost, s.setCore p { s.core p with closing := [] })

/-- A journal record as a pending entry with RF = 1, at a rewind of step `t` (R448). -/
def refile (p t : Nat) (r : JRec) (s : State) : State :=
  let w0 := r.axon % 65536 + r.payload % 2 ^ 22 * 2 ^ 16 + b2n r.g * 2 ^ 38 + b2n r.rem * 2 ^ 39 + r.srank * 2 ^ 40 + r.scl * 2 ^ 52
  let w1 := r.sstep5 * 2 ^ 46 + r.astep5 * 2 ^ 51 + 2 ^ 56
  match ringPut p (r.tstep5 % 16) (decide ((r.tstep5 + 32 - t % 32) % 32 = 16)) w0 w1 s with
  | some s => s.inc64 (CORE_EVT_IN p) 1
  | none => s

/-- The records that the replay's own events file again (R448). -/
def selfSent (c t : Nat) (r : JRec) : Bool := !r.rem && r.scl == c && r.astep5 == t % 32

/-- Journal replay for step `t` of cluster `c` (step 8, R448): `adopted` is the position the spare adopted. Answers the number
refiled and whether a record failed its check (R442). -/
def journalReplay (c t : Nat) (adopted : Option Nat) (s : State) : (Nat × Bool) × State :=
  let x := s.cluster c
  let (n, bad, s) := x.journal.foldl (fun (q : Nat × Bool × State) r =>
    let (n, bad, s) := q
    if r.bad then (n, true, s.inc (CLA_JRN_CHKERR c) 1)
    else
      let mine := if adopted = some r.dpos then (r.tstep5 + 32 - t % 32) % 32 ≤ 16 else r.astep5 = t % 32
      if r.void ∨ selfSent c t r ∨ ¬mine then (n, bad, s)
      else
        let tab := CLA_SLOTTAB c r.dpos
        if s.fb tab CLA_SLOTTAB.VALID then (n + 1, bad, refile (32 * c + s.fv tab CLA_SLOTTAB.SLOT) t r s) else (n, bad, s)) (0, false, s)
  let j := x.journal.filter fun r => !r.bad && !selfSent c t r
  ((n, bad), (s.setCluster c { s.cluster c with journal := j }).fs (CLA_JRN_OCC c) CLA_JRN_OCC.OCC j.length)

/-- Salvage of bytes 0x0000–0x17FF of slot `f` into slot `p` (R446): whether every word could be read. -/
def salvage (f p : Nat) (s : State) : Bool × State :=
  (List.range 0x600).foldl (fun (q : Bool × State) i =>
    let w := s.sramW f (4 * i)
    let y := sget (fun _ => 0) (sramBase f + 4 * i) s.sramSyn
    match secDec 32 w (secEnc 32 w ^^^ y) with
    | (some d, _) => (q.1, q.2.wrSram p (4 * i) d)
    | (none, _) => (false, q.2.wrSram p (4 * i) 0)) (true, s)

/-- The failed slot: recorded as failed, Off, its queue unit and dense work lost (R186, R267). -/
def slotFails (f : Nat) (s : State) : State :=
  let s := queueReset f s
  let x := s.cluster (f / 32)
  let s := s.setCluster (f / 32) { x with failed := if x.failed.contains (f % 32) then x.failed else x.failed ++ [f % 32] }
  s.fs (CORE_STATE f) CORE_STATE.STATE stOff

/-- The spare `p` adopts the LCID and segment of slot `f` for the rewind of step `t` (steps 4–7, R34, R446, R147): the flags
of the fault record. -/
def takeover (c f p t : Nat) (s : State) : Nat × State :=
  let wasOff := coreState p s == stOff
  let s := if wasOff then (s.clrSram p 0 0x28000).fs (CORE_STATE p) CORE_STATE.STATE stIdle else s
  let k := ((s.lcid f).getD 0) % 16
  let id := bits (s.rd (CORE_ID f)) 16 16
  let seg := s.segOf f
  -- step 4
  let s := s.wr (CLA_SEGMAP c (f % 32)) 0
  let s := match seg with
    | some g => connectSeg p g s
    | none => s
  let s := s.fs (CLA_SLOTTAB c k) CLA_SLOTTAB.SLOT (p % 32)
  -- step 5
  let (whole, s) := salvage f p s
  let scratch := s.fb (MAC_STAND f) MAC_STAND.COUNT || s.fb (MAC_CTRL f) MAC_CTRL.SVEC_EN
  -- step 6
  let s := clearStatus p (loadShadow s f p (clearPort p s))
  let s := (s.wr (CORE_ID p) (p + id * 2 ^ 16)).wr (CORE_ID f) (f + 0xFFF * 2 ^ 16)
  let s := (s.fs (CORE_STEP p) CORE_STEP.CUR (cur f s)).wr (LRN_EPNUM p) (epochOf p (cur f s) s)
  let x := s.core f
  let s := (s.setCore p { heldOpens := x.heldOpens, lastCommit := x.lastCommit, q := { inBuf := x.q.inBuf, held := x.q.held } }).setCore f {}
  let good := whole && !scratch
  let s := (s.fs (CORE_STATE p) CORE_STATE.STATE (if good then stRun else stIdle)).fs (CORE_STATE p) CORE_STATE.HALTED (b2n !good)
  let s := if good then s else s.fs (CORE_CTRL p) CORE_CTRL.HALT 1
  -- step 7
  let (lost, s) := mirRestore p t true s
  let s := if lrnEn p s then learnAdopt p s else s
  let s := (s.fs (CLA_FO_STAT c) CLA_FO_STAT.SPSLOT 0).inc (CLA_FO_TAKEOVER c) 1
  (b2n lost * 4 + b2n scratch * 8 + b2n (!whole) * 16 + b2n wasOff * 64, s)

/-- With no spare the failed position is invalid and no longer a participant (R452 steps 2–4). -/
def degrade (c f : Nat) (s : State) : State :=
  let l := (s.lcid f).getD 0
  let s := s.fs (CLA_SLOTTAB c (l % 16)) CLA_SLOTTAB.VALID 0
  let s := takeFrom c (l % 16) s
  let s := (queueGone f s).setCore f {}
  let s := match s.clInst c with
    | some i => s.setInst i { s.inst i with parts := (s.inst i).parts.filter (· != l) }
    | none => s
  setFo c foDegraded s

/-- FENCE to every endpoint the cluster sent events to in the step, behind the events its router has accepted; with none, the notice goes
up at once (R249 steps 1–3). -/
def sendFences (c i t : Nat) (s : State) : State :=
  let x := s.cluster c
  if x.mask = [] then syncOut (epCluster c) 7 i t (rbkArg false 0 c) s else
  let l := x.mask.map fun d => (injFence, fenceHdr d (epCluster c) i (s.gen i), t)
  routerGo c ((s.setCluster c { x with inj := x.inj ++ l }).inc (CLA_RTR_FENCE c) l.length)

/-- The step a rewind of cluster `c` with failed slot `f` replays: its open step, or the next when none is open; and which. -/
def openStep (c f : Nat) (s : State) : Nat × Bool :=
  match (s.clParts c ++ [f]).find? fun p => (s.core p).phase != .idle with
  | some p => (cur p s, true)
  | none => match (s.core f).lastCommit with
    | some t => (t + 1, false)
    | none => (cur f s + 1, false)

/-- A cluster rewind with failed slot `f` (R445, R451, R452, R454). -/
def rewind (c f : Nat) (s : State) : State :=
  let detail := s.fv (CORE_STATE f) CORE_STATE.FCAUSE
  let lcid := (s.lcid f).getD 0xFFF
  let i := (s.clInst c).getD 0
  let second := (s.cluster c).rewind.isSome
  let spare := if second then none else spareSlot c s
  let lostq := qTotal f s
  let exposed := foState c s == foExposed
  let (t, isOpen) := match (s.cluster c).rewind with
    | some r => (r.step, r.wasOpen)
    | none => openStep c f s
  let old := match (s.cluster c).rewind with
    | some r => r.flags
    | none => 0
  if s.fb (CLA_FO_CTRL c) CLA_FO_CTRL.EN = false then
    let s := fpmRewrite [c] [] (degrade c f (slotFails f s))
    let (v, s) := s.free
    s.fault (frec 1 2 c (f % 32) lcid i 0x20 t detail s.now v 0 lostq) (s.clInst c)
  else
    let s := s.inc (CLA_FO_REWIND c) 1
    let s := s.setCluster c { s.cluster c with migrate := none }
    let s := freeze c t s
    let s := queueReset f s
    let (fl, adopted, s) := match spare with
      | some k =>
        let (fl, s) := takeover c f (32 * c + k) t s
        (fl, some (lcid % 16), setFo c foRewinding (slotFails f s))
      | none => (0x20 + b2n second * 0x100, none, degrade c f (slotFails f s))
    let skip := spare.map (32 * c + ·)
    let (lost, s) := ((s.clParts c).filter fun p => some p != skip).foldl (survivor t) (false, s)
    let ((n, bad), s) := journalReplay c t adopted s
    let flags := old ||| fl ||| b2n (exposed || bad) ||| (if lost then 4 else 0)
    let s := s.setCluster c { s.cluster c with
      rewind := some ⟨t, f % 32, lcid, detail, s.now, flags, n, lostq, (s.cluster c).mask, isOpen, true⟩ }
    sendFences c i t s

/-- CLUSTER_REWIND_START (R444, R445): what the core of slot `k` reported. -/
def execClusterRewindStart (c : Cl) (k : Sl) (why : CoreRep) (s : State) : Res :=
  let p := pcid c k
  if (s.lcid p).isNone || s.slotGone p then ok s else
  match why with
  | .sram => ok (if s.faulted p then rewind c.val p s else s)
  | .pipeline => ok (rewind c.val p (s.stopCore p 7))
  | .queuePtr n =>
    let x := (s.core p).q
    ok (rewind c.val p ((s.setQ p { x with stopped := x.stopped ++ [n.val] }).fs (Q_CHK p) Q_CHK.PFAULT 1))
  | .spares => ok (rewind c.val p s)

/-- CORE_HANG_TIMEOUT (R444): a participant that holds pending entries or staged events has not reported done HANG_US after its
open. -/
def execCoreHangTimeout (c : Cl) (k : Sl) (s : State) : Res :=
  let p := pcid c k
  let x := s.core p
  if (s.clParts c.val).contains p ∧ (x.phase = .walked ∨ x.phase = .updated) ∧ (pendOcc p s ≠ 0 ∨ x.stgN ≠ 0) ∧ s.slotGone p = false then
    ok (rewind c.val p s)
  else ok s

/-! Packets and rollback notices that pass on (R315, R319) -/

/-- The words of an item on the die: a record, or a packet with its flits filled up. -/
def transitWords : JCont → List Nat
  | .ev l => l.flatMap fun r => [r.w0, r.w1]
  | .pk w0 w1 b =>
    let f := padTo (64 * pkFlits b.length - 16) b
    w0 :: w1 :: (List.range (f.length / 8)).map fun i => leNat ((f.drop (8 * i)).take 8)
/-- An item in transit crosses the die from port `p` to port `q` as TRANSIT, on its own virtual channel (R315 step 2). -/
def transitSend (p q vc : Nat) (c : JCont) (s : State) : State :=
  let ws := transitWords c
  edgePut (epJlk p) (transitHdr (epJlk q) (epJlk p) vc ws.length) ws s
/-- A packet in transit goes to its egress port (R315 step 2). -/
def transitPk (p vc w0 w1 : Nat) (b : List Byte) (s : State) : State :=
  let (d, s) := routeTo (bits w0 0 16) s
  match d with
  | none => s.inc (JLK_TX_UNROUTE p) 1
  | some q => transitSend p q vc (.pk w0 w1 b) s
/-- A notice whose fences have all been answered goes on: to the root, or to the egress port of its address (R319 step 4). -/
def noticeOn (p : Nat) (r : RbkIn) (s : State) : State :=
  match r.pkt with
  | some (w0, w1, b) => transitPk p 0 w0 w1 b s
  | none => syncOut (epJlk p) 7 r.inst r.step (rbkArg true r.rank r.scl) s
/-- The earliest notice that waits for endpoint `d` has its answer. -/
def fenceGone (d : Nat) : List RbkIn → List RbkIn
  | [] => []
  | r :: t => if r.fence.contains d then { r with fence := r.fence.filter (· != d) } :: t else r :: fenceGone d t
/-- A FENCE_ACK of endpoint `d` at port `p`. A notice for this device stays until the root has answered it. -/
def noticeAck (p d : Nat) (s : State) : State :=
  let x := s.jp p
  let l := fenceGone d x.rbkIn
  let go := ((x.rbkIn.zip l).filter fun y => y.1.fence != [] && y.2.fence == []).map (·.2)
  go.foldl (fun s r => noticeOn p r s) (s.setJp p { x with rbkIn := l.filter fun r => r.pkt.isNone || r.fence != [] })

/-! The rollback transport -/

/-- FENCEs of `l` after `f`; those with nothing left before them are answered by endpoint `ep`. -/
def fencesGo (ep : Nat) (f : FenceWait → FenceWait) (l : List FenceWait) (s : State) : List FenceWait × State :=
  let l := l.map f
  (l.filter fun y => y.before != [], (l.filter fun y => y.before == []).foldl (fun s y => fenceAck ep y s) s)
/-- The FENCEs that wait at egress port `e` (0 host, 1 and 2 event ports) after `f`. -/
def egrFences (e : Nat) (f : FenceWait → FenceWait) (s : State) : State :=
  let (l, s) := fencesGo (0x11 + e) f (sget (fun _ => []) e s.host.fences) s
  { s with host := { s.host with fences := sset (fun _ => []) e l s.host.fences } }
/-- The FENCEs that wait at Jarisk port `p` after `f`: before one, key 0 counts the first records staged and key 1 the first
events held. -/
def jlkFences (p : Nat) (f : FenceWait → FenceWait) (s : State) : State :=
  let (l, s) := fencesGo (epJlk p) f (s.jp p).fenceIn s
  s.setJp p { s.jp p with fenceIn := l }
/-- The counts of a FENCE: key 0 and key 1. -/
def fenceCount (a b : Nat) : SMap Nat := sset (fun _ => 0) 0 a (sset (fun _ => 0) 1 b [])
/-- FENCE_RECEIVE (R249 step 2, R319 step 1, R345): endpoint `ep` answers a FENCE of endpoint `frm` once the events it received before
it have left its queues; it stands behind those. -/
def execFenceReceive (ep frm : Byte) (i : InstNo) (s : State) : Res :=
  let e := ep.toNat
  let f : FenceWait := ⟨frm.toNat, i.val, []⟩
  if 0x40 ≤ e ∧ e < 0x80 then ok (fenceAt (e - 0x40) f.frm f.inst s)
  else if 0x11 ≤ e ∧ e < 0x14 then
    let n := (sget (fun _ => []) (e - 0x11) s.host.held).length
    let l := sget (fun _ => []) (e - 0x11) s.host.fences ++ [{ f with before := fenceCount n 0 }]
    ok (egrFences (e - 0x11) id { s with host := { s.host with fences := sset (fun _ => []) (e - 0x11) l s.host.fences } })
  else if 0x14 ≤ e ∧ e < 0x20 then
    let x := s.jp (e - 0x14)
    ok (jlkFences (e - 0x14) id (s.setJp (e - 0x14) { x with fenceIn := x.fenceIn ++ [{ f with before := fenceCount (stgRecs x) (heldOn x chEVT).length }] }))
  else ok (fenceAck e f s)

/-- FENCE_ACK_RECEIVE (R249 step 3, R319 step 4): at a rewinding cluster agent, or at a port that holds a notice. -/
def execFenceAckReceive (dst frm : Byte) (s : State) : Res :=
  let d := dst.toNat
  if 0x40 ≤ d ∧ d < 0x80 then
    let c := d - 0x40
    let x := s.cluster c
    match x.rewind with
    | none => ok s
    | some r =>
      if r.fence.contains frm.toNat = false then ok s else
      let f := r.fence.filter (· != frm.toNat)
      let s := s.setCluster c { x with rewind := some { r with fence := f } }
      ok (if f = [] then syncOut (epCluster c) 7 ((s.clInst c).getD 0) r.step (rbkArg false 0 c) s else s)
  else if 0x14 ≤ d ∧ d < 0x20 then
    ok (noticeAck (d - 0x14) frm.toNat s)
  else ok s

/-- The combined RBK_ACK of step `t` reaches the rewinding agent of cluster `c`, which releases the emission of the replay (R249 step 6,
Table 14-4 step 9). -/
def rbkRelease (c t : Nat) (s : State) : State :=
  let x := s.cluster c
  match x.rewind with
  | none => s
  | some r =>
    if r.fence ≠ [] ∨ r.live = false ∨ r.step ≠ t then s else
    let s := s.setCluster c { x with rewind := some { r with live := false }, noInject := false, mask := [] }
    let s := (List.range 16).foldl (fun s k => s.fs (CLA_SLOTTAB c k) CLA_SLOTTAB.HOLD 0) s
    let s := if r.wasOpen then
        (s.clParts c).foldl (fun s p =>
          let y := s.core p
          s.setCore p { y with heldOpens := if y.heldOpens.contains r.step then y.heldOpens else r.step :: y.heldOpens }) s
      else s
    (List.range 16).foldl (fun s k => takeFrom c k s) s

/-! Segment migration (R447) -/

/-- SEGMENT_MIGRATION_START (R447): a failing segment that a slot holds starts to move to the spare segment. -/
def execSegmentMigrationStart (c : Cl) (g : Sl) (s : State) : Res :=
  let n := c.val
  match spareSeg n s with
  | none => ok s
  | some d =>
    if bit (s.fv (CLA_SEG_FAILING n) CLA_SEG_FAILING.FAIL) g.val && foState n s == foProtected && (s.cluster n).migrate.isNone
        && (List.range 17).any (fun k => s.segOf (32 * n + k) == some g.val) then
      ok (setFo n foMigrating (s.setCluster n { s.cluster n with migrate := some ⟨g.val, d, false, s.now⟩ }))
    else ok s

/-- MIGRATION_COPY_DONE (R447 steps 1 and 3). -/
def execMigrationCopyDone (c : Cl) (s : State) : Res :=
  let x := s.cluster c.val
  match x.migrate with
  | none => ok s
  | some m =>
    if m.copied then ok s else
    ok ((s.copyN (segBase c.val m.src) (segBase c.val m.dst) 0x180000).setCluster c.val { x with migrate := some { m with copied := true } })

/-! Duplicated logic and the fault record window -/

/-- DUP_LOGIC_MISMATCH (R456, R457): `explained` when one copy's own checks fail. -/
def execDupLogicMismatch (unit : Byte) (explained : Bool) (s : State) : Res :=
  let u := unit.toNat
  if explained then ok ((s.inc RAS_CNT_DUP 1).faultAt 0x0E 0 none 0 0xFFF u 1)
  else if s.dev.dupRetry.contains u then ok (faultHold 7 (s.faultAt 0x0E 3 none 0 0xFFF u (2 ^ 32 - 1)))
  else ok { s with dev := { s.dev with dupRetry := s.dev.dupRetry ++ [u] } }

/-- A write of RAS_FREC_SEL (R460): the record goes to the requester's data registers; a virtual function sees its own. -/
def writeFrecSel (q : Req) (v : Nat) (s : State) : State := s.gate q 0 fun s =>
  let n := reqIx q
  let r := s.dev.frecs.getD (bits v 0 6) []
  let r := match q with
    | .vf i => if bits (r.getD 1 0) 12 4 = i.val then r else []
    | _ => r
  let s := s.fs (RAS_FREC_SEL n) RAS_FREC_SEL.IDX (bits v 0 6)
  ((List.range 8).foldl (fun s i => s.wr (RAS_FREC_DATA n i) (r.getD i 0)) s).done q cOK [] false
/-- RAS_FREC_SELECT (R460). -/
def execRasFrecSelect (q : Req) (v : Word) (s : State) : Res := ok (writeFrecSel q v.toNat s)

end Sys2Proof.Machine
end

