-- ==== Sys2Proof/Machine/Windows.lean ====
section
/-! DEFINITION. The memory windows (R15, R42, R43): core SRAM (R48–R51), segments (R88–R93), shared slices (R275) and module
memory (R357–R360); and the segment switch (R89, R90). -/
namespace Sys2Proof.Machine

/-! Rights and results -/

/-- The answer of a window access: code, bytes read, state. -/
abbrev WinRes := Nat × List Byte × State

def winLen : WinOp → Nat
  | .rd n => n
  | .wr d => d.length
/-- A failed access returns 0 for every byte. -/
def winFail (o : WinOp) (code : Nat) (s : State) : WinRes :=
  (code, match o with
    | .rd n => List.replicate n 0#8
    | .wr _ => [], s)
/-- The code of R43. -/
def r43 (q : Req) : Nat := if isVf q then cREFUSED else cUNSUPPORTED
/-- The requester is kept from instance `i`'s memories by the filters of a confidential instance (Table 15-8). -/
def filtered (q : Req) (i : Option Nat) (s : State) : Bool :=
  match i with
  | some n => s.conf n && (match q with
    | .vf v => v.val != n
    | _ => true)
  | none => false
/-- A write to a unit of an instance that a load holds (Table 11-5 step 3). -/
def loadLocked (i : Option Nat) (op : WinOp) (s : State) : Bool :=
  match op, i with
  | .wr _, some n => loading n s
  | _, _ => false
/-- A virtual function of another instance than `i`. -/
def foreign (q : Req) (i : Option Nat) : Bool :=
  match q with
  | .vf v => i != some v.val
  | _ => false

/-! Core SRAM (R48–R51) -/

/-- Whether a window write at offset `o` may be made: scratch always, the rest halted, staging and the pending area never. -/
def sramWritable (p o : Nat) (s : State) : Bool :=
  if scrLo p s ≤ o then true else if 0x2800 ≤ o ∧ o < 0xB000 then false else halted p s
/-- Read the words that hold `n` bytes from `o`; each word with its check (R50): whether all could be used. -/
def sramRead (p o n : Nat) (s : State) : Bool × List Byte × State :=
  let lo := o / 4
  let hi := (o + n + 3) / 4
  let (good, l, s) := (List.range (hi - lo)).foldl (fun (q : Bool × List Byte × State) i =>
    let a := 4 * (lo + i)
    let ue := (sramCause (q.2.2.ncomp p) a).isSome &&
      (match secDec 32 (q.2.2.sramW p a) (secEnc 32 (q.2.2.sramW p a) ^^^ sget (fun _ => 0) (sramBase p + a) q.2.2.sramSyn) with
        | (none, _) => true
        | _ => false)
    let (w, s) := q.2.2.rdSram p a
    (q.1 && !ue, q.2.1 ++ leBytes 4 (if ue then 0 else w), s)) (true, [], s)
  (good, (l.drop (o - 4 * lo)).take n, s)
/-- Write bytes with new check bits for each word touched. -/
def sramWrite (p o : Nat) (d : List Byte) (s : State) : State :=
  s.wrNs (sramBase p + o) d
/-- The words that a write of `n` bytes at `o` reads first: every word it touches when it is not of whole aligned words (R50). -/
def partWords (o n : Nat) : List Nat :=
  if o % 4 = 0 ∧ n % 4 = 0 then [] else (List.range ((o + n + 3) / 4 - o / 4)).map (o / 4 + ·)

/-- A window access to core SRAM (R51, Table 2-3, Table 15-8). -/
def winSram (q : Req) (p o : Nat) (op : WinOp) (s : State) : WinRes :=
  let c := p / 32
  let n := winLen op
  if p % 32 > 16 ∨ o + n > 0x28000 then winFail op (r43 q) s
  else if foreign q (s.clInst c) ∨ filtered q (s.clInst c) s then winFail op cREFUSED s
  else if s.slotGone p then winFail op (r43 q) s
  else if coreState p s = stOff then winFail op cREFUSED s
  else
    let s := clusterWake c s
    let locked := match op with
      | .wr d => (List.range d.length).any fun i => !sramWritable p (o + i) s
      | .rd _ => false
    if locked then winFail op cREFUSED s
    else if s.dev.drainCl.contains c then winFail op cDRAINING s
    else if loadLocked (s.clInst c) op s then winFail op cRETRY s
    else match op with
      | .rd n =>
        let (good, l, s) := sramRead p o n s
        (if good then cOK else cCHECK_FAIL, l, s)
      | .wr d =>
        let (good, s) := (partWords o n).foldl (fun (t : Bool × State) w =>
          let (g, _, s) := sramRead p (4 * w) 4 t.2
          (t.1 && g, s)) (true, s)
        if good then (cOK, [], sramWrite p o d s) else (cCHECK_FAIL, [], s)

/-- The completion of a window access; it records no LAST_CODE, which is for configuration space (R17). -/
def memDone (q : Req) (r : WinRes) : State :=
  { r.2.2 with cpl := ⟨q, r.1, r.2.1.map (·.toNat), false⟩ :: r.2.2.cpl }
/-- A window access lies within one aligned 256-byte block and has 1 to 256 bytes (R15). -/
def winShape (a : Nat) (o : WinOp) : Bool := decide (1 ≤ winLen o ∧ a % 256 + winLen o ≤ 256)
/-- CORE_SRAM_WINDOW_ACCESS (R51). -/
def execCoreSramWindowAccess (q : Req) (p : Fin 2048) (off : BitVec 18) (o : WinOp) (s : State) : Res :=
  ok (memDone q (if winShape off.toNat o then winSram q p.val off.toNat o s else winFail o cBAD_ARG s))

/-! Segments (R88–R93) -/

/-- The slot a segment is connected to. -/
def slotOf (c g : Nat) (s : State) : Option Nat := (List.range 17).find? fun k => s.segOf (32 * c + k) == some g
/-- Segment `g` is within a connection change (R90). -/
def swapping (c g : Nat) (s : State) : Bool := (s.cluster c).swaps.any fun x => x.2.1 == some g || x.2.2 == some g
/-- The lines that hold `n` bytes from segment offset `o`. -/
def segLines (c g o n : Nat) (s : State) : Bool × State :=
  (List.range ((o + n + 31) / 32 - o / 32)).foldl (fun (q : Bool × State) i =>
    let (good, s) := q.2.bondLine c (segBase c g + 32 * (o / 32 + i))
    (q.1 && good, s)) (true, s)

/-- A window access to a segment (Table 3-1, R91, R93). -/
def winSeg (q : Req) (c g o : Nat) (op : WinOp) (s : State) : WinRes :=
  let n := winLen op
  let slot := slotOf c g s
  if g > 16 ∨ o + n > 0x180000 then winFail op (r43 q) s
  else if (if slot.isSome then foreign q (s.clInst c) else isVf q) || filtered q (s.clInst c) s then winFail op cREFUSED s
  else if s.clGone c ∨ bit (s.fv (CLA_SEGOK c) CLA_SEGOK.OK) g = false ∨ (s.cluster c).synOff.contains g then winFail op (r43 q) s
  else
    let s' := clusterWake c s
    let locked := match slot with
      | some k => coreState (32 * c + k) s' != stOff && !halted (32 * c + k) s'
      | none => false
    let isWr := match op with
      | .wr _ => true
      | _ => false
    if locked && isWr then winFail op cREFUSED s'
    else if s.dev.drainCl.contains c then winFail op cDRAINING s'
    else if swapping c g s || loadLocked (s.clInst c) op s then winFail op cRETRY s'
    else
      let (good, s) := segLines c g o n s'
      if good = false then winFail op cCHECK_FAIL s
      else match op with
        | .rd n => (cOK, s.rdN n (segBase c g + o), s)
        | .wr d =>
          let s := s.wrN (segBase c g + o) d
          (cOK, [], match (s.cluster c).migrate with
            | some m => if m.src = g then s.wrN (segBase c m.dst + o) d else s
            | none => s)
/-- SEGMENT_WINDOW_ACCESS (R92). -/
def execSegmentWindowAccess (q : Req) (c : Cl) (g : Fin 32) (off : BitVec 21) (o : WinOp) (s : State) : Res :=
  ok (memDone q (if winShape off.toNat o then winSeg q c.val g.val off.toNat o s else winFail o cBAD_ARG s))

/-! Module memory (R357–R360) -/

/-- The enabled window that holds address `a`. -/
def memWin (a : Nat) (s : State) : Option Nat :=
  (List.range 16).find? fun i => s.fb (MEMC_WIN i) MEMC_WIN.EN && decide (s.fv (MEMC_WIN i) MEMC_WIN.BASE * 2 ^ 28 ≤ a)
    && decide (a < (s.fv (MEMC_WIN i) MEMC_WIN.BASE + s.fv (MEMC_WIN i) MEMC_WIN.LEN) * 2 ^ 28)
/-- The key of address `a`. -/
def memKey (a : Nat) (s : State) : Nat :=
  match memWin a s with
  | some i => sget (fun _ => 0) i s.memc.keys
  | none => s.memc.devKey
/-- A byte of module memory under the key of its address (R359). -/
def modByte (a : Nat) (s : State) : Byte :=
  let (k, b) := sget (fun _ => (0, 0)) a s.memc.cells
  if k = memKey a s then BitVec.ofNat 8 b else if s.memc.scrubbed.contains (memKey a s) then 0#8 else Config.moduleByte (memKey a s) k b a
def modRead (a n : Nat) (s : State) : List Byte := (List.range n).map fun i => modByte (a + i) s
/-- A write; a data unit of 64 bytes written in part is read and written back whole under its key (R359). -/
def modWrite (a : Nat) (d : List Byte) (s : State) : State :=
  let u := a / 64 * 64
  let n := roundUp (a + d.length) 64 - u
  let l := (List.range n).map fun i => if a ≤ u + i ∧ u + i < a + d.length then d.getD (u + i - a) 0 else modByte (u + i) s
  let k := memKey a s
  { s with memc := { s.memc with cells :=
    ((List.range n).foldl (fun m i => sset (fun _ => (0, 0)) (u + i) (k, (l.getD i 0).toNat) m) s.memc.cells) } }

/-- A window access to module memory (R358, R360, Table 15-8). -/
def winMod (q : Req) (a : Nat) (op : WinOp) (s : State) : WinRes :=
  let w := memWin a s
  let n := winLen op
  let lock := match s.dev.srcLock with
    | some (b, l, who) => decide (b < a + n) && decide (a < b + l) && !(who == some (reqIx q))
    | none => false
  if (isVf q && foreign q w) || filtered q w s then winFail op cREFUSED (s.inc MEMC_ACC_REFUSED 1)
  else if (match op with
    | .wr _ => lock
    | .rd _ => false) || loadLocked w op s then winFail op cRETRY s
  else if (match w with
    | some i => s.fb (MEMC_SCRUB i) MEMC_SCRUB.BUSY
    | none => false) then winFail op cRETRY s
  else match op with
    | .rd n => (cOK, modRead a n s, s.inc64 MEMC_RD_B n)
    | .wr d => (cOK, [], (modWrite a d s).inc64 MEMC_WR_B d.length)

/-! Every window -/

/-- A window access to the shared slices (R275). -/
def winShm (q : Req) (a : Nat) (op : WinOp) (s : State) : WinRes :=
  let r : SlReq := ⟨0, match q with
    | .vf i => some i
    | _ => none, BitVec.ofNat 48 a, 0, 0⟩
  let o : SlOp := match op with
    | .rd n => .rd (BitVec.ofNat 8 (n - 1))
    | .wr d => .wr d
  let code := slAdmit r o s
  let x := slSlice (a - shmBase)
  if code ≠ cOK then winFail op code s
  else if s.fb (SHM_OWN x) SHM_OWN.VALID && loadLocked (some (s.fv (SHM_OWN x) SHM_OWN.INST)) op s then winFail op cRETRY s
  else
    let (l, s) := slPerform r o s
    (cOK, l.map (BitVec.ofNat 8), s)
/-- A memory window access to device address `a` (R15, R42, R43). -/
def winAccess (q : Req) (a : Nat) (op : WinOp) (s : State) : WinRes :=
  if winShape a op = false then winFail op cBAD_ARG s
  else if a < 0x2000000000 then winMod q a op s
  else if 0x004000000000 ≤ a ∧ a < 0x004100000000 then
    winSeg q ((a - 0x004000000000) / 0x4000000) (bits a 21 5) (a % 0x200000) op s
  else if 0x004100000000 ≤ a ∧ a < 0x004120000000 then winSram q ((a - 0x004100000000) / 0x40000) (a % 0x40000) op s
  else if shmBase ≤ a ∧ a < shmBase + 0x2000000 then winShm q a op s
  else winFail op (r43 q) s
/-! The segment switch (R89, R90) -/

/-- CLA_FO_STAT.SPSEG and SPSLOT follow what is free. -/
def refreshSpares (c : Nat) (s : State) : State :=
  let seg := (List.range 17).any fun g => bit (s.fv (CLA_SEGOK c) CLA_SEGOK.OK) g && (slotOf c g s).isNone
  let slot := (List.range 17).any fun k => !s.slotGone (32 * c + k) && (s.lcid (32 * c + k)).isNone
  rasStat ((s.fs (CLA_FO_STAT c) CLA_FO_STAT.SPSEG (b2n seg)).fs (CLA_FO_STAT c) CLA_FO_STAT.SPSLOT (b2n slot))

/-- A write of CLA_SEGMAP_s (R89). -/
def writeSegmap (q : Req) (c k v : Nat) (s : State) : State :=
  onCluster q c true false false (fun s =>
    let p := 32 * c + k
    let g := bits v 0 5
    let conn := bit v 31
    let refuse := (coreState p s != stOff && !halted p s) || (conn &&
      (decide (g ≤ 16) && !bit (s.fv (CLA_SEGOK c) CLA_SEGOK.OK) g || (match slotOf c g s with
        | some j => j != k
        | none => false)))
    let busy := (s.cluster c).swaps.any (fun x => x.1 == k || (match s.segOf p with
      | some o => x.2.1 == some o || x.2.2 == some o
      | none => false)) || (conn && swapping c g s)
    if refuse then s.done q cREFUSED [] false
    else if conn && decide (g > 16) then s.done q cBAD_ARG [] false
    else if s.slotGone p then s.done q cUNSUPPORTED [] false
    else if busy then s.done q cRETRY [] false
    else
      let x := s.cluster c
      (s.setCluster c { x with swaps := x.swaps ++ [(k, s.segOf p, if conn then some g else none)] }).done q cOK [] false) s
/-- SEGMAP_WRITE (R89). -/
def execSegmapWrite (q : Req) (c : Cl) (k : Sl) (v : Word) (s : State) : Res := ok (writeSegmap q c.val k.val v.toNat s)

/-- SEGMAP_CHANGE_END (R90): the oldest change of the cluster ends; the floor-plan map is rewritten. -/
def execSegmapChangeEnd (c : Cl) (s : State) : Res :=
  let x := s.cluster c.val
  match x.swaps with
  | [] => ok s
  | (k, _, g) :: r =>
    let s := s.setCluster c.val { x with swaps := r }
    let p := 32 * c.val + k
    let s := match g with
      | some g => connectSeg p g s
      | none => (s.fs (CLA_SEGMAP c.val k) CLA_SEGMAP.CONN 0).inc (CLA_SEG_SWITCHES c.val) 1
    ok (fpmRewrite [c.val] [] (refreshSpares c.val s))

end Sys2Proof.Machine
end

