-- ==== Sys2Proof/Machine/JarTx.lean ====
section
/-! DEFINITION. The transmit side of the Jarisk ports (chapter 09): arrivals from the die, link states, the choice of flits, link control
flits, codewords, lane changes, and reroute after a link failure. -/
namespace Sys2Proof.Machine

/-! Rights -/

/-- An access to the window of port `p` by other than a virtual function (R331). -/
def onJlk (q : Req) (p : Nat) (f : State → State) (s : State) (bad : Bool := false) : State :=
  onDev q (State.late q (s.dev.fusedJlk.contains p) bad false f) s

/-! Records (R291, R313, R314, R319) -/

/-- An item with RR set and its check recomputed. -/
def rrRec (r : LRec) : LRec :=
  let w := setBits r.w0 55 1 1 % 2 ^ 57
  { r with w0 := w + secEnc 57 w * 2 ^ 57 }
def rrPk (w0 w1 : Nat) : Nat × Nat := let w := setBits w0 45 1 1; (w, jpSeal w w1)
/-- Port `p` has room for one more record (Table 9-12). -/
def recRoom (p : Nat) (s : State) : Bool :=
  jState p s != jsDown && decide ((s.jp p).evOut.length + ((s.jp p).evStage.length + 4) / 4 ≤ 8)
/-- A record is staged at port `p`: four of them make a flit that is ready; the first with a new SSTEP5 clears the destination set of the
same low bit (R319 step 2). -/
def stageRec (p : Nat) (r : LRec) (s : State) : State :=
  let y := s.jp p
  let l := y.evStage ++ [r]
  let y := if l.length ≥ 4 then { y with evStage := l.drop 4, evOut := y.evOut ++ [l.take 4] } else { y with evStage := l }
  match r.src with
  | none => s.setJp p y
  | some (i, _, ss) =>
    let k := 2 * i + ss % 2
    s.setJp p (if (sget (fun _ => (0, [])) k y.sets).1 = ss then y else { y with sets := sset (fun _ => (0, [])) k (ss, []) y.sets })
/-- A record that is ready arrives at port `p`. -/
def putRec (p : Nat) (r : LRec) (s : State) : State :=
  if heldOn (s.jp p) chEVT = [] ∧ recRoom p s then stageRec p r s else holdArr p chEVT (.rcd r) s
/-- STEP[15:0] of a record (R314). -/
def recStep (i ss : Nat) (s : State) : Nat :=
  let c := s.fv (STEP_CUR i) STEP_CUR.STEP
  tc 16 ((c : Int) - ((c + 32 - ss) % 32 : Nat))
/-- The record of event `e` under rank entry `w` (R313 step 5). -/
def recOf (e : EvtIn) (w : Nat) (s : State) : LRec :=
  let i := e.inst.toNat
  let v := rkFaddr w + (ownRank i s).getD 0 * 2 ^ 16 + rkInst w * 2 ^ 28 + e.scl.toNat * 2 ^ 32 + recStep i e.sstep5.toNat s * 2 ^ 38
    + b2n e.hpar * 2 ^ 54 + 2 ^ 56
  ⟨v + secEnc 57 v * 2 ^ 57, e.ev.toNat, some (i, e.rank.toNat, e.sstep5.toNat)⟩
/-- The quench in force for an injection of instance `i` toward address `a`: none, or its DROP (R320). -/
def quenched (i a : Nat) (s : State) : Option Bool :=
  let (v, _) := sget (fun _ => (0, 0)) i s.jdev.qInst
  if v ≠ 0 then some (v == 2) else (s.jdev.qTgt.find? fun t => t.1 == a).map (·.2.1)
/-- What R313 steps 1 to 4 do with a remote event: discard it under a counter, turn it back, hold it, or send it under rank entry `w` to
the port of its route. -/
inductive EvWay where
  | gone (ctr : Nat)
  | back
  | wait
  | to (w : Nat) (q : Option Nat)
deriving DecidableEq, Repr
def evWay (p : Nat) (e : EvtIn) (s : State) : EvWay × State :=
  let i := e.inst.toNat
  let (w, s) := rdRank i e.rank.toNat s
  if !rkValid w || (ownRank i s).isNone then (.gone (JLK_TX_UNROUTE p), s)
  else if isMine (rkFaddr w) s then (if rkInst w ≠ i then .gone (JLK_TX_UNROUTE p) else .back, s)
  else match quenched i (rkFaddr w) s with
    | some true => (.gone (JLK_QUENCH_DROP p), s)
    | some false => (.wait, s)
    | none =>
      let (d, s) := routeTo (rkFaddr w) s
      (.to w d, s)
/-- The port discards a remote event: it counts on this device, as delivered (R317). -/
def evDrop (p ctr : Nat) (e : EvtIn) (s : State) : State := countGone (epJlk p) e.ev.toNat e.inst.toNat false 0 (s.inc ctr 1)
/-- The port turns an event back (R313 step 2, R230). -/
def evBack (p : Nat) (e : EvtIn) (s : State) : State := edgeInject (epJlk p) { e with rem := false, rank := 0 } s
/-- RHDR64 with which port `p` forwards a remote event to port `q` unchanged (R313 step 4). -/
def fwdHdr (p q : Nat) (e : EvtIn) : Nat :=
  evtHdr (epJlk q) (epJlk p) e.inst.toNat (b2n e.hpar) e.sstep5.toNat e.scl.toNat true e.rank.toNat
/-- One remote event at port `p` (R313): none while it must wait. -/
def remoteTx (p : Nat) (e : EvtIn) (s : State) : Option State :=
  if jState p s = jsDown then none else
  match evWay p e s with
  | (.gone c, s) => some (evDrop p c e s)
  | (.back, s) => some (evBack p e s)
  | (.wait, _) => none
  | (.to _ none, s) => some (evDrop p (JLK_TX_UNROUTE p) e s)
  | (.to w (some q), s) =>
    if q ≠ p then some (edgeSend (epJlk p) (fwdHdr p q e) e.ev.toNat s)
    else if recRoom p s then some (stageRec p (recOf e w s) s) else none

/-! Remote writes and fences of the die (R322, R324) -/

/-- A remote write of instance `i` at landing offset `o` (R323): data that the packet does not hold is a failure too. -/
def rawPerform (p i o n : Nat) (d : List Byte) (s : State) : State :=
  let refuse := fun (s : State) => s.inc (JLK_RAW_REFUSED p) 1
  if s.fb (JLK_LAND_EN i) JLK_LAND_EN.EN = false ∨ o + n > s.fv (JLK_LAND_LEN i) JLK_LAND_LEN.LEN * 4096 ∨ (ownRank i s).isNone
      ∨ d.length < n then refuse s
  else
    let (code, _, t) := winAccess (.vf (Fin.ofNat 16 i)) (s.fv (JLK_LAND_BASE i) JLK_LAND_BASE.BASE * 4096 + o) (.wr (d.take n)) s
    if code = cOK then t else refuse s
/-- Answer a request of the die. -/
def jAnswer (p pk : Nat) (a : JAns) (ws : List Nat) (s : State) : State := s.emit (.packet a.sep (epJlk p) pk a.inst a.gen a.tag ws)
/-- What R313 steps 1, 2 and 4 do with a request of the die: refuse it, at this device's own address, to a port under rank entry `w`, or
no port. -/
inductive ReqWay where
  | no (code : Nat)
  | own (w : Nat)
  | to (w q : Nat)
  | unrouted
deriving DecidableEq, Repr
def reqWay (p : Nat) (r : SlReq) (s : State) : ReqWay × State :=
  if s.dev.fusedJlk.contains p then (.no (if r.who.isSome then cREFUSED else cUNSUPPORTED), s) else
  match r.who with
  | none => (.no cREFUSED, s)
  | some i =>
    let (w, s) := rdRank i.val (bits r.addr.toNat 36 12) s
    if !rkValid w || (ownRank i.val s).isNone then (.no cREFUSED, s.inc (JLK_TX_UNROUTE p) 1)
    else if isMine (rkFaddr w) s then (.own w, s)
    else
      let (d, s) := routeTo (rkFaddr w) s
      match d with
      | none => (.unrouted, s)
      | some q => (.to w q, s)
def ansOf (r : SlReq) : JAns := ⟨r.sep.toNat, (r.who.map (·.val)).getD 0, r.gen.toNat, r.tag.toNat⟩
/-- A write of the die whose size or address is malformed (R258, R322). -/
def rawBad (r : SlReq) (data : List Byte) : Bool :=
  data.isEmpty || decide (r.addr.toNat % 256 + data.length > 256) || bit r.addr.toNat 35
/-- The RAW packet of a write. -/
def rawPk (r : SlReq) (data : List Byte) (w : Nat) (s : State) : JPkt :=
  ⟨mkPk (rkFaddr w) jkRAW (rkInst w) (data.length - 1) (bits r.addr.toNat 0 35) data s, (ansOf r).inst, some (ansOf r)⟩
/-- A WR_REQ at the endpoint of port `p` (R322): none while it must wait. -/
def rawTx (p : Nat) (r : SlReq) (data : List Byte) (s : State) : Option State :=
  let a := ansOf r
  if jState p s = jsDown ∧ s.dev.fusedJlk.contains p = false then none
  else if rawBad r data then some (jAnswer p pkWR_CPL a [cBAD_ARG] s)
  else match reqWay p r s with
    | (.no code, s) => some (jAnswer p pkWR_CPL a [code] s)
    | (.unrouted, s) => some (jAnswer p pkWR_CPL a [cREFUSED] (s.inc (JLK_TX_UNROUTE p) 1))
    | (.own w, s) => some (jAnswer p pkWR_CPL a [cOK] (rawPerform p (rkInst w) (bits r.addr.toNat 0 35) data.length data s))
    | (.to w q, s) =>
      if q ≠ p then some (s.emit (.packet (epJlk q) a.sep pkWR_REQ a.inst a.gen a.tag (r.addr.toNat :: data.map (·.toNat))))
      else
        let y := rawPk r data w s
        if canStage p chREQ (contFlits y.c) s then some (s.setJp p { s.jp p with txReq := (s.jp p).txReq ++ [y] }) else none
/-- A free place of the fence table of port `p` (R324). -/
def fenceSlot (p : Nat) (s : State) : Option Nat := (List.range 32).find? fun t => (sget (fun _ => none) t (s.jp p).fences).isNone
/-- Fence `t` of port `p` starts: its tag names the port and the place in its table. -/
def fenceStart (p t : Nat) (r : SlReq) (w : Nat) (s : State) : JPkt × State :=
  (⟨mkPk (rkFaddr w) jkRFENCE (rkInst w) 0 (32 * p + t) [] s, (ansOf r).inst, none⟩,
   s.setJp p { s.jp p with fences := sset (fun _ => none) t (some (ansOf r)) (s.jp p).fences })
/-- An RD_REQ with NB = 0 and ADDR[35] = 1 at the endpoint of port `p` (R324): none while it must wait. -/
def fenceTx (p : Nat) (r : SlReq) (s : State) : Option State :=
  let a := ansOf r
  if jState p s = jsDown ∧ s.dev.fusedJlk.contains p = false then none
  else if bit r.addr.toNat 35 = false then some (jAnswer p pkRD_RSP a [cBAD_ARG, 0] s)
  else match reqWay p r s with
    | (.no code, s) => some (jAnswer p pkRD_RSP a [code, 0] s)
    | (.unrouted, s) => some (jAnswer p pkRD_RSP a [cREFUSED, 0] (s.inc (JLK_TX_UNROUTE p) 1))
    | (.own _, s) => some (jAnswer p pkRD_RSP a [cOK, 0] s)
    | (.to w q, s) =>
      if q ≠ p then some (s.emit (.packet (epJlk q) a.sep pkRD_REQ a.inst a.gen a.tag [r.addr.toNat, 0])) else
      match fenceSlot p s with
      | none => some (jAnswer p pkRD_RSP a [cRETRY, 0] s)
      | some t =>
        if canStage p chREQ 1 s then
          let (y, s) := fenceStart p t r w s
          some (s.setJp p { s.jp p with txReq := (s.jp p).txReq ++ [y] })
        else none

/-! Arrivals that wait -/

/-- An arrival at port `p` on channel `vc`: none while it must wait. -/
def arrive (p vc : Nat) (a : JArr) (s : State) : Option State :=
  match a with
  | .ev e => remoteTx p e s
  | .raw r d => rawTx p r d s
  | .fence r => fenceTx p r s
  | .rcd r => if recRoom p s then some (stageRec p r s) else none
  | .pk y => if canStage p vc (contFlits y.c) s then some (s.setJp p ((s.jp p).setStaged vc ((s.jp p).staged vc ++ [y]))) else none
/-- The oldest event held has gone on; `n` records are staged when it is among them, none otherwise: the FENCEs behind it. -/
def fenceMove (n : Option Nat) (f : FenceWait) : FenceWait :=
  let h := sget (fun _ => 0) 1 f.before
  if h = 0 then f else { f with before := fenceCount (n.getD (sget (fun _ => 0) 0 f.before)) (h - 1) }
/-- The arrivals held on channel `vc` of port `p` go on, oldest first. -/
def retryHeld (p vc : Nat) : Nat → State → State
  | 0, s => s
  | n + 1, s =>
    match heldOn (s.jp p) vc with
    | [] => s
    | a :: t =>
      let before := stgRecs (s.jp p)
      match arrive p vc a (setHeldOn p vc t s) with
      | none => s
      | some s =>
        let after := stgRecs (s.jp p)
        retryHeld p vc n (if vc = chEVT then jlkFences p (fenceMove (if after > before then some after else none)) s else s)
def goHeld (p : Nat) (s : State) : State :=
  [chMGT, chREQ, chEVT].foldl (fun s vc => retryHeld p vc (heldOn (s.jp p) vc).length s) s
/-- An arrival takes its turn. -/
def takeArr (p vc : Nat) (a : JArr) (s : State) : State :=
  if heldOn (s.jp p) vc ≠ [] then holdArr p vc a s
  else match arrive p vc a s with
    | some s => s
    | none => holdArr p vc a s
/-- JLK_REMOTE_EVENT_TX (R313). -/
def execJlkRemoteEventTx (p : JPort) (e : EvtIn) (s : State) : Res := ok (takeArr p.val chEVT (.ev e) s)
/-- JLK_RAW_SEND (R322): a WR_REQ at the endpoint of port `p`. -/
def execJlkRawSend (p : JPort) (r : SlReq) (data : List Byte) (s : State) : Res := ok (takeArr p.val chREQ (.raw r data) s)
/-- JLK_REMOTE_FENCE (R324): an RD_REQ with NB = 0 and ADDR[35] = 1 at the endpoint of port `p`. -/
def execJlkRemoteFence (p : JPort) (r : SlReq) (s : State) : Res := ok (takeArr p.val chREQ (.fence r) s)
/-- EVENT_FLIT_SEND (R291): no further record has arrived for 2 NETCLK cycles: those staged make a flit. -/
def execEventFlitSend (p : JPort) (s : State) : Res :=
  let x := s.jp p.val
  ok (if x.evStage = [] then s else s.setJp p.val { x with evStage := x.evStage.drop 4, evOut := x.evOut ++ [x.evStage.take 4] })

/-! Link states (R302–R305, R325–R327) -/

def setJState (p v : Nat) (s : State) : State := s.fs (JLK_STATUS p) JLK_STATUS.STATE v
/-- Port `p` enters Dark: it sends the training pattern on all nine wavelengths, unless training starts only 1 s later (R302). -/
def enterDark (p : Nat) (later : Bool) (s : State) : State :=
  let s := setJState p jsDark (s.setJp p { s.jp p with holdoff := later, darkDone := false })
  if later then s else s.emit (.jlk p 0 [0x1FF])
/-- The link enters Up: sequences and credits start at 0 (R298). -/
def enterUp (p : Nat) (s : State) : State :=
  let x := s.jp p
  let s := s.setJp p { x with replay := [], txSeq := 0, txPtr := 0, resend := none, nakAt := 0, nakRun := 0, sent := [], granted := [], arb := {},
                              lcmds := [], nakOut := false, rxExp := 0, nakOwed := false, gap := false, asm := [], asmLeft := 0, rxCnt := [],
                              rxGrant := [], lcmdIn := [], change := [], sleepPeer := false, sleepAck := false, rerouted := false }
  goHeld p (refreshMap (setJState p jsUp s))
/-- Nothing of a link that is not trained. -/
def clearLink (p : Nat) (s : State) : State :=
  let s := (((s.fs (JLK_STATUS p) JLK_STATUS.WIDTH 0).fs (JLK_STATUS p) JLK_STATUS.WLOK 0).fs (JLK_STATUS p) JLK_STATUS.SPARE 0xF).fs
    (JLK_STATUS p) JLK_STATUS.DEGRADED 0
  let s := (s.fs (JLK_STATUS p) JLK_STATUS.TXWIDTH 0).wr (JLK_LANEMAP p) 0xFFFFFFFF
  s.setJp p { s.jp p with txLanes := [], txSpare := none }
/-- Pending fences complete TIMEOUT (Table 9-12). -/
def fencesFail (p : Nat) (s : State) : State :=
  let x := s.jp p
  x.fences.foldl (fun s f => match f.2 with
    | some a => jAnswer p pkRD_RSP a [cTIMEOUT, 0] s
    | none => s) (s.setJp p { x with fences := [] })
/-- A link in Up or Sleep goes Down (R325, R326 steps 1 and 2); `failed` when a failure took it down (R439). A packet whose last flit has
not arrived is dropped here; its sender reinjects it (log entry 83). -/
def linkDown (p : Nat) (failed : Bool) (s : State) : State :=
  if jState p s ≠ jsUp ∧ jState p s ≠ jsSleep then s else
  let s := ((setJState p jsDown s).inc (JLK_DOWN p) 1).fs (JLK_STATUS p) JLK_STATUS.REROUTING 1
  let s := (s.fs (JLK_CMAP p) JLK_CMAP.DOWN 1).log 0x05 none [p, s.rd (JLK_STATUS p), s.rd (JLK_PEER p)]
  let s := fencesFail p (s.setJp p { s.jp p with rerouted := false, change := [], asm := [], asmLeft := 0 })
  let peer := s.fv (JLK_PEER p) JLK_PEER.FADDR
  let (r, s) := routeTo peer s
  let s := match r with
    | some q => stageMgt q (mkPk peer jkLDN 0 0 0 (leBytes 2 (((s.jp p).rxExp + 4095) % 4096 + p * 2 ^ 12)) s) flowTR s
    | none => s
  if failed then s.faultAt 8 (if r.isSome then 0 else 2) none p 0xFFF 0 (2 ^ 32 - 1) else s

/-! Reroute (R326) -/

/-- Pass one record or packet to the port chosen for its destination, RR set; `skip` excludes items for the peer itself. -/
def rerouteRec (p : Nat) (skip : Option Nat) (r : LRec) (s : State) : State :=
  let a := bits r.w0 0 16
  let (d, s) := routeTo a s
  match (if skip = some a then none else d) with
  | some q => (putRec q (rrRec r) s).inc (JLK_REROUTE_FLITS p) 1
  | none =>
    let s := s.inc (JLK_REROUTE_DROP p) 1
    match r.src with
    | some (i, _, _) => countGone (epJlk p) r.w1 i false 0 s
    | none => s
def reroutePk (p : Nat) (skip : Option Nat) (w0 w1 : Nat) (b : List Byte) (flow : Nat) (ans : Option JAns) (s : State) : State :=
  let a := bits w0 0 16
  let (d, s) := routeTo a s
  match (if skip = some a then none else d) with
  | some q =>
    let (v0, v1) := rrPk w0 w1
    (stagePk q (if bits w0 32 2 = 0 then chMGT else chREQ) ⟨.pk v0 v1 b, flow, ans⟩ s).inc (JLK_REROUTE_FLITS p) 1
  | none =>
    let s := s.inc (JLK_REROUTE_DROP p) 1
    match ans with
    | some a => jAnswer p pkWR_CPL a [cREFUSED] s
    | none => s
def rerouteItem (p : Nat) (skip : Option Nat) (y : JPkt) (s : State) : State :=
  match y.c with
  | .ev l => l.foldl (fun s r => rerouteRec p skip r s) s
  | .pk w0 w1 b => reroutePk p skip w0 w1 b y.flow y.ans s
/-- The items of which a flit is in `l`, each once, in sequence order; the packet being sent goes last, as it stands (log entry 83). -/
def replayItems (l : List JFlit) (cur : Option JCur) : List JPkt :=
  let own := fun (f : JFlit) => match cur with
    | some c => f.first == c.first && f.c == c.pkt.c
    | none => false
  let rec go : List Nat → List JFlit → List JPkt
    | _, [] => []
    | seen, f :: t => if seen.contains f.first then go seen t else ⟨f.c, flowTR, none⟩ :: go (f.first :: seen) t
  go [] (l.filter fun f => !own f) ++ (cur.map (·.pkt)).toList
/-- Steps 4 and 5 of R326 at port `p`: free up to `last` when given, reinject the rest. -/
def reinject (p : Nat) (last skip : Option Nat) (s : State) : State :=
  if jState p s ≠ jsDown ∨ (s.jp p).rerouted then s else
  let x := s.jp p
  let rest := x.replay.filter fun f => match last with
    | some l => decide ((l + 4096 - f.seq) % 4096 ≥ 2048)
    | none => true
  let s := s.setJp p { x with replay := [], cur := none, rerouted := true }
  (replayItems rest x.cur).foldl (fun s y => rerouteItem p skip y s) s
/-- JLK_LOS_TIMEOUT, JLK_LCF_TIMEOUT (R325). -/
def execJlkLosTimeout (p : JPort) (s : State) : Res := ok (linkDown p.val true s)
def execJlkLcfTimeout (p : JPort) (s : State) : Res := ok (linkDown p.val true s)
/-- REROUTE_WAIT_TIMEOUT (R326). -/
def execRerouteWaitTimeout (p : JPort) (s : State) : Res :=
  ok (reinject p.val none (some (s.fv (JLK_PEER p.val) JLK_PEER.FADDR)) s)
/-- An arrival that a Down port held goes on in the same way (R326 step 6): to the port of its destination, RR set; an event under a quench
stays held. -/
def releaseArr (p : Nat) (s : State) (x : Nat × JArr) : State :=
  match x.2 with
  | .rcd r => rerouteRec p none r s
  | .pk y => rerouteItem p none y s
  | .ev e =>
    match evWay p e s with
    | (.gone c, s) => evDrop p c e s
    | (.back, s) => evBack p e s
    | (.wait, s) => holdArr p chEVT (.ev e) s
    | (.to _ none, s) => evDrop p (JLK_REROUTE_DROP p) e s
    | (.to w (some q), s) => (putRec q (rrRec (recOf e w s)) s).inc (JLK_REROUTE_FLITS p) 1
  | .raw r d =>
    let a := ansOf r
    if rawBad r d then jAnswer p pkWR_CPL a [cBAD_ARG] s else
    match reqWay p r s with
    | (.no code, s) => jAnswer p pkWR_CPL a [code] s
    | (.unrouted, s) => jAnswer p pkWR_CPL a [cREFUSED] (s.inc (JLK_REROUTE_DROP p) 1)
    | (.own w, s) => jAnswer p pkWR_CPL a [cOK] (rawPerform p (rkInst w) (bits r.addr.toNat 0 35) d.length d s)
    | (.to w _, s) => rerouteItem p none (rawPk r d w s) s
  | .fence r =>
    let a := ansOf r
    if bit r.addr.toNat 35 = false then jAnswer p pkRD_RSP a [cBAD_ARG, 0] s else
    match reqWay p r s with
    | (.no code, s) => jAnswer p pkRD_RSP a [code, 0] s
    | (.unrouted, s) => jAnswer p pkRD_RSP a [cREFUSED, 0] (s.inc (JLK_REROUTE_DROP p) 1)
    | (.own _, s) => jAnswer p pkRD_RSP a [cOK, 0] s
    | (.to w q, s) =>
      match fenceSlot q s with
      | none => jAnswer p pkRD_RSP a [cRETRY, 0] s
      | some t => let (y, s) := fenceStart q t r w s; rerouteItem p none y s
/-- REROUTE_COMPLETE (R326 step 6, R327): what was staged and held is forwarded, the port enters Dark (Off with EN = 0) and the rank port
maps are rewritten. -/
def execRerouteComplete (p : JPort) (s : State) : Res :=
  let n := p.val
  let x := s.jp n
  if jState n s ≠ jsDown ∨ x.rerouted = false then ok s else
  let s := s.setJp n { x with evStage := [], evOut := [], txReq := [], txMgt := [], held := [], rerouted := false }
  let s := (s.fs (JLK_STATUS n) JLK_STATUS.REROUTING 0)
  let s := clearLink n (if s.fb (JLK_CTRL n) JLK_CTRL.EN then enterDark n true s else setJState n jsOff s)
  let s := (x.txMgt ++ x.txReq).foldl (fun s y => rerouteItem n none y s) s
  let s := (x.evOut.flatten ++ x.evStage).foldl (fun s r => rerouteRec n none r s) s
  let s := ([chMGT, chREQ, chEVT].flatMap fun vc => (heldOn x vc).map fun a => (vc, a)).foldl (releaseArr n) s
  let left := (heldOn (s.jp n) chEVT).length
  let s := jlkFences n (fun f => let h := sget (fun _ => 0) 1 f.before; { f with before := fenceCount 0 (if h < left then h else left) }) s
  ok (refreshMap s)

/-! The choice of flits (R296–R298) -/

/-- Credits left on channel `vc` (R298). -/
def jCredit (p vc : Nat) (s : State) : Nat :=
  (sget (fun _ => 0) vc (s.jp p).granted + 4096 - sget (fun _ => 0) vc (s.jp p).sent) % 4096
/-- Counting and destination set of a record at its first transmission (R317, R319 step 2). -/
def firstTx (p : Nat) (s : State) (r : LRec) : State :=
  match r.src with
  | none => s
  | some (i, rank, ss) =>
    let x := s.inst i
    let s := if evCounts r.w1 then
        diffAdd (epJlk p) i true 1 (diffAdd (epJlk p) i false (-1)
          (s.setInst i { x with injected := x.injected - 1, remInj := x.remInj + 1 }))
      else s
    let y := s.jp p
    let k := 2 * i + ss % 2
    let (old, l) := sget (fun _ => (0, [])) k y.sets
    if old = ss ∧ l.contains rank = false then s.setJp p { y with sets := sset (fun _ => (0, [])) k (ss, l ++ [rank]) y.sets } else s
/-- A new flit of channel `vc` enters the replay buffer under the next number: flit `k` of content `c`, whose first flit has number
`first` (the next number when `k` is 0). -/
def txFlit (p vc : Nat) (c : JCont) (k first : Nat) (s : State) : (Nat × List Byte) × State :=
  let x := s.jp p
  let q := x.txSeq
  ((contSlot c, contBytes c k),
   s.setJp p { x with txSeq := (q + 1) % 4096, txPtr := (q + 1) % 4096, replay := x.replay ++ [⟨q, c, k, if k = 0 then q else first⟩],
                      sent := sset (fun _ => 0) vc ((sget (fun _ => 0) vc x.sent + 1) % 4096) x.sent })
/-- The oldest packet of each flow, as units for the deficit round robin: `hdr` is its place in the list. -/
def pkHeads (vc : Nat) (l : List JPkt) : List NUnit :=
  (List.range 17).filterMap fun f =>
    (l.findIdx? fun y => y.flow == f).map fun i => { hdr := i, body := [], vc, flow := f, n := ((l[i]?).map fun y => contFlits y.c).getD 1, inl := 0 }
/-- The packet of channel `vc` that deficit round robin chooses (R232, R297). -/
def pkPick (vc : Nat) (l : List JPkt) (x : OutSt) (s : State) : Option (Nat × OutSt) :=
  let w := fun f => flowWeight f s
  let heads := pkHeads vc l
  let cost := heads.foldl (fun a u => if w u.flow > a then w u.flow else a) 1
  let d := x.dfc.filter fun e => e.1 / 32 != vc || heads.any fun u => u.flow == e.1 % 32
  (drrGo w cost vc heads 340 (sget (fun _ => 0) vc x.last + 1) d).map fun y => (y.1.hdr, { x with dfc := y.2, last := sset (fun _ => 0) vc y.1.flow x.last })
/-- The next flit of a packet (R292); its last flit answers the write (R322). -/
def txPacket (p : Nat) (c : JCur) (s : State) : (Nat × List Byte) × State :=
  let first := if c.k = 0 then (s.jp p).txSeq else c.first
  let (y, s) := txFlit p c.vc c.pkt.c c.k first s
  if c.k + 1 < contFlits c.pkt.c then (y, s.setJp p { s.jp p with cur := some { c with k := c.k + 1, first } })
  else
    let s := s.setJp p { s.jp p with cur := none }
    (y, match c.pkt.ans with
      | some a => jAnswer p pkWR_CPL a [cOK] s
      | none => s)
/-- A channel has a flit that holds a credit: the packet being sent shuts out other packets (R292). -/
def txHas (p : Nat) (s : State) (vc : Nat) : Bool :=
  let x := s.jp p
  decide (jCredit p vc s ≠ 0) && (if vc = chEVT then !x.evOut.isEmpty
    else (vc == chMGT || vc == chREQ) && (match x.cur with
      | some c => c.vc == vc
      | none => !(x.staged vc).isEmpty))
/-- A new flit for a slot: the channel by the order of R232 and its one-in-four rule, the packet by deficit round robin; none when no
channel can send (R296, R297). -/
def txNew (p : Nat) (s : State) : Option ((Nat × List Byte) × State) :=
  let x := s.jp p
  if x.replay.length ≥ 2048 then none else
  match vcPick x.arb (txHas p s) with
  | none => none
  | some vc =>
    let a := { x.arb with low := if vc = chREQ then 0 else if txHas p s chREQ then x.arb.low + 1 else 0 }
    let s := s.setJp p { x with arb := a }
    if vc = chEVT then
      let l := x.evOut.headD []
      let s := l.foldl (firstTx p) (s.setJp p { s.jp p with evOut := x.evOut.tail })
      let s := jlkFences p (fun f => { f with before := fenceCount (sget (fun _ => 0) 0 f.before - l.length) (sget (fun _ => 0) 1 f.before) }) s
      some (txFlit p chEVT (.ev (l.map fun r => { r with src := none })) 0 0 s)
    else match x.cur with
      | some c => some (txPacket p c s)
      | none =>
        match pkPick vc (x.staged vc) a s with
        | none => none
        | some (i, a) =>
          match (x.staged vc)[i]? with
          | none => none
          | some y =>
            let s := s.setJp p { (s.jp p).setStaged vc ((x.staged vc).eraseIdx i) with arb := a }
            some (txPacket p ⟨vc, y, 0, 0⟩ s)
/-- The content of a slot that is no LCF: a flit that is resent, a new one, or an idle flit, whose bytes the spec does not give (R296). -/
def txSlot (p : Nat) (s : State) : (Nat × List Byte) × State :=
  let x := s.jp p
  let idle := fun (s : State) => let (v, s) := s.free; ((slIdle, leBytes 64 v), s)
  if jState p s ≠ jsUp then idle s
  else if x.txPtr ≠ x.txSeq then
    match x.replay.find? fun f => f.seq == x.txPtr with
    | some f => ((contSlot f.c, contBytes f.c f.k), s.setJp p { x with txPtr := (x.txPtr + 1) % 4096 })
    | none => idle s
  else match txNew p s with
    | some y => y
    | none => idle s

/-! Link control flits (R293) -/

/-- The receiver grants credits: each channel its reserved part, REQ and EVT in equal parts what room the shared part has (R298; log entry
84). -/
def grant (p : Nat) (s : State) : State :=
  let x := s.jp p
  let cnt := fun vc => sget (fun _ => 0) vc x.rxCnt
  let low := fun vc r => let g := sget (fun _ => 0) vc x.rxGrant; let v := cnt vc + r - rxOcc x vc; if v > g then v else g
  let extra := fun vc g => (g - cnt vc) + rxOcc x vc - 64
  let (q, e) := (low chREQ 64, low chEVT 64)
  let room := 1888 - (extra chREQ q + extra chEVT e)
  let q := q + room / 2
  let e := e + (room - room / 2)
  s.setJp p { x with rxGrant := sset (fun _ => 0) chMGT (low chMGT 32) (sset (fun _ => 0) chREQ q (sset (fun _ => 0) chEVT e x.rxGrant)) }
/-- The 64 bytes of an LCF (Table 9-6). -/
def lcfBytes (p : Nat) (nak : Bool) (c : LCmd) (s : State) : List Byte :=
  let x := s.jp p
  let g := fun vc => sget (fun _ => 0) vc x.rxGrant % 4096
  let occ := occClass (rxFlits p s) 2048
  let b := leBytes 4 (x.txPtr + (x.rxExp + 4095) % 4096 * 2 ^ 12 + b2n nak * 2 ^ 24)
    ++ leBytes 8 (g chMGT + g chREQ * 2 ^ 12 + g chEVT * 2 ^ 24) ++ leBytes 4 (myFaddr s + p * 2 ^ 16)
    ++ leBytes 4 (c.cmd + c.lane * 2 ^ 3 + c.wl * 2 ^ 7 + c.cwn * 2 ^ 11)
    ++ leBytes 4 (s.fv (JLK_STATUS p) JLK_STATUS.WIDTH + s.fv (JLK_STATUS p) JLK_STATUS.WLOK * 2 ^ 4 + occ * 2 ^ 13)
    ++ List.replicate 32 0 ++ leBytes 4 (x.txCrc ^^^ 0xFFFFFFFF)
  b ++ leBytes 4 (crc32 b)
/-- The command an LCF of a link in Up carries: the oldest that waits, or SLEEP_REQ while JLK_CTRL.SLEEP = 1 (R305). -/
def lcfCmd (p : Nat) (s : State) : LCmd :=
  if jState p s ≠ jsUp then ⟨0, 0, 0, 0⟩ else
  match (s.jp p).lcmds with
  | c :: _ => c
  | [] => if s.fb (JLK_CTRL p) JLK_CTRL.SLEEP then ⟨5, 0, 0, 0⟩ else ⟨0, 0, 0, 0⟩
/-- Where a resend stands at the next LCF: a NAK starts it (R296); one that an acknowledgement has overtaken goes on at the oldest flit
kept. -/
def resendGo (p : Nat) (s : State) : State :=
  let x := s.jp p
  match x.resend with
  | some a => (s.setJp p { x with resend := none, txPtr := a }).inc (JLK_REPLAY p) 1
  | none =>
    if x.txPtr ≠ x.txSeq ∧ (x.replay.any fun f => f.seq == x.txPtr) = false then
      s.setJp p { x with txPtr := (x.replay.head?.map (·.seq)).getD x.txSeq }
    else s
/-- The LCF of an even codeword. -/
def txLcf (p : Nat) (s : State) : (Nat × List Byte) × State :=
  let s := resendGo p s
  let s := if jState p s = jsUp then grant p s else s
  let x := s.jp p
  let b := lcfBytes p x.nakOut (lcfCmd p s) s
  ((slLcf, b), (s.setJp p { x with nakOut := false, lcmds := x.lcmds.tail, txCrc := 0xFFFFFFFF }).inc (JLK_NAK_TX p) (b2n x.nakOut))

/-! Lane changes (R300, R301) -/

/-- Counter values of the codeword sent or received last. -/
def txCtr (x : JPortSt) : Nat := (x.txN - 1) % 4096
def rxCtr (x : JPortSt) : Nat := (x.rxN - 1) % 4096
/-- A lane leaves: pending changes of lanes above it name one lane lower. -/
def chgDown (rx : Bool) (lane : Nat) (c : LaneChg) : LaneChg := if c.rx = rx ∧ c.lane > lane then { c with lane := c.lane - 1 } else c
/-- One lane change takes effect (R300 steps 4 and 5, R301). -/
def laneChange (p : Nat) (s : State) (c : LaneChg) : State :=
  let map := s.rd (JLK_LANEMAP p)
  let old := bits map (4 * c.lane) 4
  let w := s.fv (JLK_STATUS p) JLK_STATUS.WIDTH
  let x := s.jp p
  let drop := fun (s : State) => s.fs (JLK_STATUS p) JLK_STATUS.WLOK (setBits (s.fv (JLK_STATUS p) JLK_STATUS.WLOK) old 1 0)
  if c.rx && c.swap then
    let s := ((drop s).wr (JLK_LANEMAP p) (setBits map (4 * c.lane) 4 c.wl)).fs (JLK_STATUS p) JLK_STATUS.SPARE 0xF
    let s := (s.inc (JLK_LANE_SWAP p) 1).log 0x05 none [p, s.rd (JLK_STATUS p), s.rd (JLK_PEER p)]
    s.faultAt 7 0 none p 0xFFF old (2 ^ 32 - 1)
  else if c.rx then
    let up := bits map (4 * c.lane + 4) (32 - 4 * c.lane)
    let s := (drop s).wr (JLK_LANEMAP p) (map % 2 ^ (4 * c.lane) + up % 2 ^ (28 - 4 * c.lane) * 2 ^ (4 * c.lane) + 15 * 2 ^ 28)
    let s := s.setJp p { x with rxPos := 0, change := x.change.map (chgDown true c.lane) }
    let s := ((s.fs (JLK_STATUS p) JLK_STATUS.WIDTH (w - 1)).fs (JLK_STATUS p) JLK_STATUS.DEGRADED 1).inc (JLK_NARROW p) 1
    let s := s.fs (JLK_CMAP p) JLK_CMAP.WIDTH (w - 1)
    (s.log 0x05 none [p, s.rd (JLK_STATUS p), s.rd (JLK_PEER p)]).faultAt 7 1 none p 0xFFF old (2 ^ 32 - 1)
  else if c.swap then s.setJp p { x with txLanes := x.txLanes.set c.lane c.wl, txSpare := none }
  else
    (s.setJp p { x with txLanes := x.txLanes.eraseIdx c.lane, txPos := 0, change := x.change.map (chgDown false c.lane) }).fs
      (JLK_STATUS p) JLK_STATUS.TXWIDTH (x.txLanes.length - 1)
/-- The changes of a direction that the next codeword of that direction brings. -/
def changesDue (p : Nat) (rx : Bool) (s : State) : State :=
  let n := fun (s : State) => (if rx then (s.jp p).rxN else (s.jp p).txN) % 4096
  let due := (s.jp p).change.filter fun c => c.rx == rx && c.cwn == n s
  (List.range due.length).foldl (fun s _ =>
    match (s.jp p).change.find? fun c => c.rx == rx && c.cwn == n s with
    | none => s
    | some c => laneChange p (s.setJp p { s.jp p with change := (s.jp p).change.erase c }) c) s

/-! Codewords (R286–R289) -/

/-- The codeword of 544 symbols goes out over the transmit lanes; a spare that is idle carries a copy of lane 0 (R299). -/
def lightOut (p : Nat) (syms : List Nat) (s : State) : State :=
  let x := s.jp p
  let w := x.txLanes.length
  let lanes := (x.txLanes.zip (deal w x.txPos syms)).map fun y => (y.1, y.2.flatMap pamOf)
  let all := lanes ++ (x.txSpare.map fun v => (v, (lanes.headD (0, [])).2)).toList
  (s.setJp p { x with txPos := (x.txPos + cwLen) % w }).emit (.light p all)
/-- CRC-32 register of the slots of a group (Table 9-6 GCRC). -/
def slotCrc (c : Nat) (y : Nat × List Byte) : Nat := (BitVec.ofNat 8 y.1 :: (if y.1 = slIdle then [] else y.2)).foldl crc32Byte c
/-- One slot of the codeword being formed. -/
def txPart (p : Nat) (q : List (Nat × List Byte) × State) (i : Nat) : List (Nat × List Byte) × State :=
  if i = 0 ∧ (q.2.jp p).txN % 2 = 0 then
    let (y, s) := txLcf p q.2
    (q.1 ++ [y], s)
  else
    let (y, s) := txSlot p q.2
    (q.1 ++ [y], s.setJp p { s.jp p with txCrc := slotCrc (s.jp p).txCrc y })
/-- The next codeword of port `p` (R287–R289). -/
def txCodeword (p : Nat) (s : State) : State :=
  let x := s.jp p
  if x.txLanes = [] then s
  else if x.txN ≥ alignAfter then lightOut p (alignCw x.txLanes.length x.txPos) (s.setJp p { x with txN := 0 })
  else
    let (slots, s) := (List.range 10).foldl (txPart p) ([], changesDue p false s)
    let x := s.jp p
    let (v, h) := scramble x.txScr (cwMessage slots)
    goHeld p (lightOut p (rsEncode (msgSyms v)) (s.setJp p { x with txScr := h, txN := x.txN + 1 }))
/-- One TCLK cycle at a port: W lanes send 7 W / 170 of a codeword in it (Table 9-2). -/
def jTick (p : Nat) (s : State) : State :=
  if s.dev.fusedJlk.contains p || (jState p s != jsUp && jState p s != jsQualify) then s else
  let x := s.jp p
  let f := x.txFrac + 7 * x.txLanes.length
  let s := s.setJp p { x with txFrac := f % 170 }
  if f ≥ 170 then txCodeword p s else s
/-- A window of 1 ms ends: the corrected symbols of each wavelength (JLK_WL_SER). -/
def serWindow (s : State) : State :=
  s.jports.foldl (fun s x =>
    let s := (List.range 9).foldl (fun s w => s.wr (JLK_WL_SER x.1 w) (satU 32 (sget (fun _ => 0) w x.2.ser))) s
    s.setJp x.1 { s.jp x.1 with ser := [] }) s
/-- One TCLK cycle of 2 ns at the Jarisk ports. -/
def jlkTick (s : State) : State :=
  let c := s.jdev.serCyc + 1
  let s : State := { s with jdev := { s.jdev with serCyc := c % 500000 } }
  let s := if c ≥ 500000 then serWindow s else s
  s.jports.foldl (fun s x => jTick x.1 s) s

end Sys2Proof.Machine
end

