-- ==== Sys2Proof/Machine/Jarisk.lean ====
section
/-! DEFINITION. The Jarisk ports (chapter 09): training and link commands, the received stream, lanes and lasers, tables, arrivals from
the link, sync records and rollback over links, QUENCH, counters. -/
namespace Sys2Proof.Machine

/-! Training and sleep (R302–R305) -/

/-- PEER_DETECTED (R302): the peer's training pattern on at least six wavelengths. -/
def execPeerDetected (p : JPort) (wls : BitVec 9) (s : State) : Res :=
  if jState p.val s = jsDark ∧ (s.jp p.val).holdoff = false ∧ popcount wls.toNat 9 ≥ 6 ∧ s.dev.fusedJlk.contains p.val = false then
    ok (setJState p.val jsTrain (s.fs (JLK_PEER p.val) JLK_PEER.VALID 0))
  else ok s
/-- The wavelengths of `m` in ascending index. -/
def wlList (m : Nat) : List Nat := (List.range 9).filter (bit m ·)
/-- Streams begin after training: an alignment codeword comes first; what stands in the scrambler and what the receiver has seen of the
line is not stated. -/
def streamStart (p : Nat) (s : State) : State :=
  let (a, s) := s.free
  let (b, s) := s.free
  s.setJp p { s.jp p with txN := alignAfter, txPos := 0, txScr := a % 2 ^ 58, txCrc := 0xFFFFFFFF, txFrac := 0, rxN := 0, rxPos := 0,
                          rxScr := b % 2 ^ 58, rxSlots := [], rxBad := false, rxSync := false, rxNext := none, ser := [], qual := [] }
/-- TRAIN_COMPLETE (R303): the receiver's good wavelengths, the peer's RXWLOK, and the identity its LCFs carry. This end's own LCF goes out
with them (step 4), and each direction assigns its lanes and its spare (step 5). -/
def execTrainComplete (p : JPort) (good peer : BitVec 9) (faddr : BitVec 16) (port : BitVec 4) (s : State) : Res :=
  let n := p.val
  if jState n s ≠ jsTrain then ok s else
  let l := wlList good.toNat
  let t := wlList peer.toNat
  let w := if l.length < 8 then l.length else 8
  let map := (List.range 8).foldl (fun a i => a + (if i < w then l.getD i 15 else 15) * 2 ^ (4 * i)) 0
  let s := s.fs (JLK_STATUS n) JLK_STATUS.WLOK good.toNat
  let s := s.emit (.jlk n 1 ((lcfBytes n false ⟨0, 0, 0, 0⟩ s).map (·.toNat)))
  let s := (s.fs (JLK_STATUS n) JLK_STATUS.WIDTH w).fs (JLK_STATUS n) JLK_STATUS.SPARE (l.getD 8 15)
  let s := (s.fs (JLK_STATUS n) JLK_STATUS.DEGRADED (b2n (w < 8))).fs (JLK_STATUS n) JLK_STATUS.TXWIDTH (if t.length < 8 then t.length else 8)
  let s := (s.wr (JLK_LANEMAP n) map).wr (JLK_PEER n) (faddr.toNat + port.toNat * 2 ^ 16 + 2 ^ 31)
  let s := streamStart n (setJState n jsQualify s)
  ok (s.setJp n { s.jp n with qualErr := false, txLanes := t.take 8, txSpare := t[8]? })
/-- A failed training or qualification: back to Dark. -/
def trainFail (p : Nat) (wait : Bool) (s : State) : State :=
  let x := s.jp p
  let dd := x.darkDone
  let s := clearLink p ((enterDark p wait (s.setJp p { x with fails := x.fails + 1 })).inc (JLK_QUAL_FAIL p) 1)
  s.setJp p { s.jp p with darkDone := dd }
/-- TRAIN_TIMEOUT (R302). -/
def execTrainTimeout (p : JPort) (s : State) : Res := ok (if jState p.val s = jsTrain then trainFail p.val false s else s)
/-- No active lane has had a corrected-symbol ratio above JLK_QUAL.SERMAX parts per million in Qualify (R304). -/
def qualLanes (p : Nat) (s : State) : Bool :=
  (List.range (s.fv (JLK_STATUS p) JLK_STATUS.WIDTH)).all fun l =>
    let (bad, all) := sget (fun _ => (0, 0)) (bits (s.rd (JLK_LANEMAP p)) (4 * l) 4) (s.jp p).qual
    decide (bad * 1000000 ≤ s.fv (JLK_QUAL p) JLK_QUAL.SERMAX * all)
/-- QUALIFY_END (R304). -/
def execQualifyEnd (p : JPort) (s : State) : Res :=
  let n := p.val
  if jState n s ≠ jsQualify then ok s
  else if s.fv (JLK_STATUS n) JLK_STATUS.WIDTH ≥ 6 ∧ qualLanes n s ∧ (s.jp n).qualErr = false then
    let s := enterUp n s
    ok (s.log 0x05 none [n, s.rd (JLK_STATUS n), s.rd (JLK_PEER n)])
  else ok (trainFail n true s)
/-- RETRAIN_DELAY_END (R302): the port sends the training pattern again. -/
def execRetrainDelayEnd (p : JPort) (s : State) : Res :=
  let n := p.val
  let x := s.jp n
  let t := s.setJp n { x with holdoff := false }
  ok (if x.holdoff ∧ jState n s = jsDark then t.emit (.jlk n 0 [0x1FF]) else t)

/-- A sleeping port wakes: it sends the wake pattern on the wavelength of lane 0, the streams start again with an alignment codeword, and
the link is Up again (R305). -/
def jWake (p : Nat) (s : State) : State :=
  if jState p s ≠ jsSleep then s else
  let s := s.emit (.jlk p 2 [(s.jp p).txLanes.headD 0])
  let x := s.jp p
  enterUp p (s.setJp p { x with txN := alignAfter, rxSync := false, rxNext := none, rxSlots := [], rxBad := false })
/-- JLK_SLEEP_ENTER (R305). -/
def execJlkSleepEnter (p : JPort) (s : State) : Res :=
  let x := s.jp p.val
  if jState p.val s = jsUp ∧ s.fb (JLK_CTRL p.val) JLK_CTRL.SLEEP ∧ x.sleepPeer ∧ x.replay = [] ∧ stgRecs x = 0 ∧ x.txReq = [] ∧ x.txMgt = []
      ∧ x.cur = none ∧ x.held = [] then ok (setJState p.val jsSleep s)
  else ok s
/-- JLK_WAKE (R305): a staged flit, a cleared SLEEP or the wake pattern. -/
def execJlkWake (p : JPort) (s : State) : Res := ok (jWake p.val s)
/-- JLK_RELOCK_TIMEOUT (R305). -/
def execJlkRelockTimeout (p : JPort) (s : State) : Res := ok (if jState p.val s = jsSleep then linkDown p.val true s else s)

/-- JLK_CTRL takes the value `v` (R302, R305, R325): from Up a cleared EN passes through Down. -/
def jlkCtrl (p v : Nat) (s : State) : State :=
  let was := s.fb (JLK_CTRL p) JLK_CTRL.EN
  let s := s.wr (JLK_CTRL p) (v % 8)
  let s := if was && !bit v 0 then
      (if jState p s = jsUp then linkDown p false s
       else if jState p s = jsDown then s else clearLink p (setJState p jsOff s))
    else if !was && bit v 0 && jState p s == jsOff then enterDark p false s
    else s
  let s := if bit v 1 = false then jWake p s else s
  if bit v 3 then linkDown p false s else s
/-- A write of JLK_CTRL. -/
def writeJlkCtrl (q : Req) (p v : Nat) (s : State) : State := onJlk q p (fun s => (jlkCtrl p v s).done q cOK [] false) s
/-- JLK_ENABLE (R302): a write of JLK_CTRL with EN = 1. -/
def execJlkEnable (q : Req) (p : JPort) (v : Word) (s : State) : Res := ok (writeJlkCtrl q p.val (setBits v.toNat 0 1 1) s)
/-- JLK_DISABLE (R302): a write of JLK_CTRL with EN = 0. -/
def execJlkDisable (q : Req) (p : JPort) (v : Word) (s : State) : Res := ok (writeJlkCtrl q p.val (setBits v.toNat 0 1 0) s)
/-- JLK_RETRAIN (R325): a write of JLK_CTRL with RETRAIN = 1. -/
def execJlkRetrain (q : Req) (p : JPort) (v : Word) (s : State) : Res := ok (writeJlkCtrl q p.val (setBits v.toNat 3 1 1) s)

/-! The received stream (R287–R298) -/

/-- The records of an event flit. -/
def flitRecs (b : List Byte) : List (Nat × Nat × Bool) :=
  (List.range 4).map fun i => (leNat ((b.drop (16 * i)).take 8), leNat ((b.drop (16 * i + 8)).take 8), i == 3)
/-- One more flit received on a channel. -/
def rxCount (vc : Nat) (x : JPortSt) : JPortSt := { x with rxCnt := sset (fun _ => 0) vc (sget (fun _ => 0) vc x.rxCnt + 1) x.rxCnt }
/-- The channel of a packet header; a reserved VC counts as REQ (log entry 83). -/
def hdrCh (w0 : Nat) : Nat := if bits w0 32 2 = 0 then chMGT else chREQ
/-- A whole packet passes into the receive buffer of its channel. -/
def rxPacket (b : List Byte) (x : JPortSt) : JPortSt :=
  let w0 := leNat (b.take 8)
  let y := (w0, leNat ((b.drop 8).take 8), b.drop 16)
  if hdrCh w0 = chMGT then { x with rxMgt := x.rxMgt ++ [y] } else { x with rxReq := x.rxReq ++ [y] }
/-- One flit passes into the receive buffer, in order. A header that names more than five flits stands alone (R292; log entry 83). -/
def rxFlit (x : JPortSt) (y : Nat × List Byte) : JPortSt :=
  let x := { x with rxExp := (x.rxExp + 1) % 4096 }
  if y.1 = slEvent then { rxCount chEVT x with rxEv := x.rxEv ++ flitRecs y.2 }
  else
    let h := leNat ((if x.asmLeft = 0 then y.2 else x.asm).take 8)
    let x := rxCount (hdrCh h) x
    if x.asmLeft = 0 then
      let n := bits h 38 3
      if n = 0 ∨ n > 4 then rxPacket y.2 x else { x with asm := y.2, asmLeft := n }
    else if x.asmLeft = 1 then rxPacket (x.asm ++ y.2) { x with asm := [], asmLeft := 0 }
    else { x with asm := x.asm ++ y.2, asmLeft := x.asmLeft - 1 }

/-- A NAK goes out in the next LCF, with ACKSEQ = e − 1 (R295). -/
def sendNak (p : Nat) (s : State) : State := s.setJp p { s.jp p with nakOut := true, gap := true }
/-- The flits of an accepted group; `nx` is the number of the first of them, none when the LCF before the group was discarded (R295). -/
def rxGroup (p : Nat) (nx : Option Nat) (flits : List (Nat × List Byte)) (s : State) : State :=
  let x := s.jp p
  let owed := x.nakOwed
  let s := s.setJp p { x with nakOwed := false }
  match nx with
  | none => if owed then sendNak p s else s
  | some nx =>
    let d := (nx + 4096 - x.rxExp) % 4096
    if 1 ≤ d ∧ d ≤ 2047 then (if x.gap && !owed then s else sendNak p s)
    else
      let dup := if d = 0 then 0 else 4096 - d
      let k := if dup < flits.length then dup else flits.length
      let s := (s.setJp p { s.jp p with gap := false }).inc (JLK_RX_DUP p) k
      let s := s.setJp p ((flits.drop k).foldl rxFlit (s.jp p))
      if owed then sendNak p s else s
/-- An LCF's acknowledgement, NAK and credits at the transmitter (R296, R298). -/
def rxAck (p ack : Nat) (nak : Bool) (cred : Nat) (s : State) : State :=
  let x := s.jp p
  let keep := x.replay.filter fun f => decide ((ack + 4096 - f.seq) % 4096 ≥ 2048)
  let run := if nak then (if x.nakRun ≠ 0 ∧ x.nakAt = ack then x.nakRun + 1 else 1) else x.nakRun
  let g := sset (fun _ => 0) 3 (bits cred 24 12) (sset (fun _ => 0) 2 (bits cred 12 12) (sset (fun _ => 0) 0 (bits cred 0 12) []))
  let s := s.setJp p { x with replay := keep, nakRun := run, nakAt := if nak then ack else x.nakAt, granted := g,
                              resend := if nak then some ((ack + 1) % 4096) else x.resend }
  if nak ∧ run ≥ s.fv (JLK_TMO p) JLK_TMO.STORM then linkDown p true s else s
/-- The group of slots `l` with the LCF `lcf` after it may be accepted (R289, R294). -/
def groupOk (l : List (Nat × List Byte)) (lcf : Nat × List Byte) : Bool :=
  lcf.1 == slLcf && leNat (lcf.2.drop 60) == crc32 (lcf.2.take 60) && l.all (fun y => y.1 != slLcf)
    && leNat ((lcf.2.drop 56).take 4) == (l.foldl slotCrc 0xFFFFFFFF) ^^^ 0xFFFFFFFF
/-- The content of a good LCF: identity and width of the peer (R308), its command. -/
def lcfTake (p : Nat) (b : List Byte) (s : State) : State :=
  let s := (s.wr (JLK_PEER p) (leNat ((b.drop 12).take 4) % 2 ^ 20 + 2 ^ 31)).fs (JLK_STATUS p) JLK_STATUS.TXWIDTH (bits (leNat ((b.drop 20).take 4)) 0 4)
  let v := leNat ((b.drop 16).take 4)
  let c : LCmd := ⟨bits v 0 3, bits v 3 4, bits v 7 4, bits v 11 12⟩
  let x := s.jp p
  if jState p s = jsUp ∧ c.cmd ≠ 0 ∧ x.lcmdIn.getLast? ≠ some c then s.setJp p { x with lcmdIn := x.lcmdIn ++ [c] } else s
/-- An LCF ends the group `l` held; `good` when its own codeword decoded (R294–R296, R298). The first good LCF after training or a wake only
starts the first group. -/
def rxLcf (p : Nat) (good : Bool) (l : List (Nat × List Byte)) (lcf : Nat × List Byte) (s : State) : State :=
  let x := s.jp p
  let w := leNat (lcf.2.take 4)
  if x.rxSync = false then
    (if good && lcf.1 == slLcf && leNat (lcf.2.drop 60) == crc32 (lcf.2.take 60) then
      lcfTake p lcf.2 (s.setJp p { x with rxSync := true, rxNext := some (bits w 0 12) }) else s)
  else if good = false ∨ x.rxBad ∨ groupOk l lcf = false then
    (s.setJp p { x with nakOwed := true, qualErr := true, rxNext := none }).inc (JLK_GRP_ERR p) 1
  else
    let s := lcfTake p lcf.2 (s.setJp p { x with rxNext := some (bits w 0 12) })
    if jState p s ≠ jsUp then s else
    let s := rxAck p (bits w 12 12) (bit w 24) (leNat ((lcf.2.drop 4).take 8)) s
    if jState p s ≠ jsUp then s else
    rxGroup p x.rxNext (l.filter fun y => y.1 == slEvent || y.1 == slPacket) s
/-- The ten slots of a codeword, none when it was uncorrectable; `even` when slot 0 holds an LCF (R289, R294). -/
def rxSlotsIn (p : Nat) (even : Bool) (d : Option (List (Nat × List Byte))) (s : State) : State :=
  let x := s.jp p
  let l := d.getD []
  if even then
    let s := rxLcf p d.isSome x.rxSlots (l.headD (0, [])) s
    s.setJp p { s.jp p with rxSlots := l.tail, rxBad := d.isNone }
  else s.setJp p { x with rxSlots := x.rxSlots ++ l, rxBad := x.rxBad || d.isNone }
/-- Symbols received, and the places corrected among them, count for their wavelengths: `wls` of the lanes, first lane `pos` (R299, R304). -/
def rxErrors (wls : List Nat) (pos : Nat) (fixed : List Nat) (x : JPortSt) : JPortSt :=
  let w := wls.length
  let of := fun i => wls.getD ((pos + i) % w) 15
  let x := fixed.foldl (fun (x : JPortSt) i =>
    let q := sget (fun _ => (0, 0)) (of i) x.qual
    { x with ser := sset (fun _ => 0) (of i) (sget (fun _ => 0) (of i) x.ser + 1) x.ser, qual := sset (fun _ => (0, 0)) (of i) (q.1 + 1, q.2) x.qual }) x
  (List.range cwLen).foldl (fun (x : JPortSt) i =>
    let q := sget (fun _ => (0, 0)) (of i) x.qual
    { x with qual := sset (fun _ => (0, 0)) (of i) (q.1, q.2 + 1) x.qual }) x
/-- One codeword arrives: the PAM4 levels of each wavelength (R286–R288). -/
def rxCodeword (p : Nat) (s : State) (cw : List (List (Fin 4))) : State :=
  if jState p s ≠ jsUp ∧ jState p s ≠ jsQualify then s else
  let s := changesDue p true (s.inc64 (JLK_CW p) 1)
  let x := s.jp p
  let w := s.fv (JLK_STATUS p) JLK_STATUS.WIDTH
  if w = 0 then s else
  let wls := (List.range w).map fun l => bits (s.rd (JLK_LANEMAP p)) (4 * l) 4
  let lanes := wls.map fun v => symsOfPam ((cw.getD v []).map (·.val))
  let next := (x.rxPos + cwLen) % w
  let raw := collect w x.rxPos lanes
  if raw = alignCw w x.rxPos then s.setJp p { x with rxN := 0, rxPos := next } else
  let even := x.rxN % 2 == 0
  let x := { x with rxN := x.rxN + 1, rxPos := next }
  match rsDecode raw with
  | none =>
    let (_, h) := descramble x.rxScr (symsMsg raw)
    rxSlotsIn p even none ((s.setJp p { rxErrors wls x.rxPos [] x with rxScr := h, qualErr := true }).inc (JLK_CW_UNCORR p) 1)
  | some (syms, fixed) =>
    let (m, h) := descramble x.rxScr (symsMsg syms)
    let pos := (s.jp p).rxPos
    rxSlotsIn p even (some (cwSlots m))
      ((s.setJp p { rxErrors wls pos fixed x with rxScr := h }).inc64 (JLK_CW_CORR p) (b2n (fixed != [])))
/-- LCF_RECEIVE (R294–R296, R298, R308): the codewords that arrive, up to the one that carries the LCF. -/
def execLcfReceive (p : JPort) (cws : List (List (List (Fin 4)))) (s : State) : Res := ok (cws.foldl (rxCodeword p.val) s)

/-! Lanes, lasers and fitting (R299–R301, R306, R307) -/

def addChange (p : Nat) (c : LaneChg) (s : State) : State := s.setJp p { s.jp p with change := (s.jp p).change ++ [c] }
/-- A link command waits for its LCF. -/
def addCmd (p : Nat) (c : LCmd) (s : State) : State := s.setJp p { s.jp p with lcmds := (s.jp p).lcmds ++ [c] }
/-- The receiver takes lane `l` as failing: SWAP to the spare that is free, else NARROW, else the link goes Down (R299–R301). A change that is
agreed and not yet made holds its spare and its lane. -/
def laneFails (p l : Nat) (s : State) : State :=
  let x := s.jp p
  let w := s.fv (JLK_STATUS p) JLK_STATUS.WIDTH
  let sp := s.fv (JLK_STATUS p) JLK_STATUS.SPARE
  let cwn := (rxCtr x + 32) % 4096
  if jState p s ≠ jsUp ∨ l ≥ w ∨ x.change.any (fun c => c.rx && c.lane == l) then s
  else if sp ≠ 0xF ∧ x.change.any (fun c => c.rx && c.swap) = false then
    addCmd p ⟨1, l, sp, cwn⟩ (addChange p ⟨true, true, l, sp, cwn⟩ s)
  else if w - (x.change.filter fun c => c.rx && !c.swap).length ≤ 6 then linkDown p true s
  else addCmd p ⟨2, l, 0, cwn⟩ (addChange p ⟨true, false, l, 0, cwn⟩ s)
/-- The laser of wavelength `w` has failed in both banks. -/
def laserGone (w : Nat) (s : State) : Bool := bit (s.fv JLK_LASER JLK_LASER.AFAULT) w && bit (s.fv JLK_LASER JLK_LASER.BFAULT) w
/-- A condition of R299 holds at the lane on wavelength `w`: what the model holds of it. -/
def laneBad (p w : Nat) (s : State) : LaneFault → Bool
  | .cdr => true
  | .symbols => decide (sget (fun _ => 0) w (s.jp p).ser > s.fv (JLK_THR p) JLK_THR.SWAP) || decide (s.rd (JLK_WL_SER p w) > s.fv (JLK_THR p) JLK_THR.SWAP)
  | .heater => s.fv (JLK_RING p w) JLK_RING.RXH == 0 || s.fv (JLK_RING p w) JLK_RING.RXH == 4095
  | .laser => laserGone w s
/-- LANE_FAILING (R299). -/
def execLaneFailing (p : JPort) (lane : Fin 8) (why : LaneFault) (s : State) : Res :=
  ok (if laneBad p.val (bits (s.rd (JLK_LANEMAP p.val)) (4 * lane.val) 4) s why then laneFails p.val lane.val s else s)
/-- The oldest command received, when it is of kind `k`, and the state without it. -/
def takeCmd (p k : Nat) (s : State) : Option (LCmd × State) :=
  let x := s.jp p
  match x.lcmdIn with
  | c :: t => if c.cmd = k then some (c, s.setJp p { x with lcmdIn := t }) else none
  | [] => none
/-- The codeword an echo carries: the one received, or the own counter + 32 when that has passed (R300). -/
def echoCwn (x : JPortSt) (cwn : Nat) : Nat :=
  let d := (cwn + 4096 - txCtr x) % 4096
  if 1 ≤ d ∧ d ≤ 2047 then cwn else (txCtr x + 32) % 4096
/-- A SWAP or NARROW of the peer is echoed and agreed (R300 step 3, R301). -/
def cmdEcho (p k : Nat) (s : State) : State :=
  match takeCmd p k s with
  | none => s
  | some (c, s) =>
    if jState p s ≠ jsUp then s else
    let n := echoCwn (s.jp p) c.cwn
    addCmd p ⟨k + 2, c.lane, c.wl, n⟩ (addChange p ⟨false, k == 1, c.lane, c.wl, n⟩ s)
/-- The receiver takes the codeword of an acknowledgement. -/
def cmdAck (p k : Nat) (s : State) : State :=
  match takeCmd p k s with
  | none => s
  | some (c, s) =>
    let x := s.jp p
    s.setJp p { x with change := x.change.map fun d => if d.rx && d.swap == (k == 3) && d.lane == c.lane then { d with cwn := c.cwn } else d }
/-- LCMD_SWAP, LCMD_NARROW (R300, R301). -/
def execLcmdSwap (p : JPort) (s : State) : Res := ok (cmdEcho p.val 1 s)
def execLcmdNarrow (p : JPort) (s : State) : Res := ok (cmdEcho p.val 2 s)
/-- LCMD_SWAP_ACK, LCMD_NARROW_ACK (R300, R301). -/
def execLcmdSwapAck (p : JPort) (s : State) : Res := ok (cmdAck p.val 3 s)
def execLcmdNarrowAck (p : JPort) (s : State) : Res := ok (cmdAck p.val 4 s)
/-- LANE_CHANGE_AT_CWN (R300, R301): the changes that the next codeword of each direction brings. -/
def execLaneChangeAtCwn (p : JPort) (s : State) : Res := ok (if jState p.val s = jsUp then changesDue p.val false (changesDue p.val true s) else s)
/-- LCMD_SLEEP_REQ (R305): recorded, and acknowledged while this end asks for Sleep too. -/
def execLcmdSleepReq (p : JPort) (s : State) : Res :=
  match takeCmd p.val 5 s with
  | none => ok s
  | some (_, s) =>
    let s := s.setJp p.val { s.jp p.val with sleepPeer := true }
    ok (if s.fb (JLK_CTRL p.val) JLK_CTRL.SLEEP then addCmd p.val ⟨6, 0, 0, 0⟩ s else s)
/-- LCMD_SLEEP_ACK (R305). -/
def execLcmdSleepAck (p : JPort) (s : State) : Res :=
  match takeCmd p.val 6 s with
  | none => ok s
  | some (_, s) => ok (s.setJp p.val { s.jp p.val with sleepAck := true, sleepPeer := true })

/-- Every port that uses wavelength `w` treats its lane as failing (R306). -/
def wlFails (w : Nat) (s : State) : State :=
  (List.range 12).foldl (fun s p =>
    match (List.range (s.fv (JLK_STATUS p) JLK_STATUS.WIDTH)).find? fun l => bits (s.rd (JLK_LANEMAP p)) (4 * l) 4 == w with
    | some l => laneFails p l s
    | none => s) s
/-- LASER_TAKEOVER (R306): the laser in use on wavelength `w` has failed; the other bank takes over unless it has failed too. -/
def execLaserTakeover (w : Fin 9) (s : State) : Res :=
  let b := bit (s.fv JLK_LASER JLK_LASER.BANK) w.val
  let mark := fun (f : Fld) (s : State) => s.fs JLK_LASER f (setBits (s.fv JLK_LASER f) w.val 1 1)
  let other := bit (s.fv JLK_LASER (if b then JLK_LASER.AFAULT else JLK_LASER.BFAULT)) w.val
  let s := mark (if b then JLK_LASER.BFAULT else JLK_LASER.AFAULT) s
  if other then ok (wlFails w.val s) else
  let s := (s.fs JLK_LASER JLK_LASER.BANK (setBits (s.fv JLK_LASER JLK_LASER.BANK) w.val 1 (b2n (!b)))).inc JLK_LASER_SW 1
  ok (s.faultAt 9 0 none 0 0xFFF (w.val + 16 * b2n b) 300)

/-- A heater moves by −1, 0 or +1 LSB within its 12 bits. -/
def heat (v : Nat) (m : Nat) : Nat := if m = 2 then (if v < 4095 then v + 1 else v) else if m = 0 then v - 1 else v
/-- FITTING_TICK (R307): the direction fitting found for each heater: 0 down, 1 stay, 2 up. -/
def execFittingTick (p : JPort) (tx rx : List (Fin 3)) (s : State) : Res :=
  let n := p.val
  if s.fb (JLK_FIT n) JLK_FIT.EN = false then ok s else
  ok ((List.range 9).foldl (fun s w =>
    let k := JLK_RING n w
    (s.fs k JLK_RING.TXH (heat (s.fv k JLK_RING.TXH) ((tx.getD w 1).val))).fs k JLK_RING.RXH (heat (s.fv k JLK_RING.RXH) ((rx.getD w 1).val))) s)

/-! The tables (R309–R312) -/

/-- The result of a table command. -/
def tblDone (q : Req) (k : Nat) (f : Fld) (code : Nat) (s : State) : State := (s.fs k f code).done q code [] false
/-- A write of JLK_RANK_CMD (R310, R331). -/
def writeRankCmd (q : Req) (v : Nat) (s : State) : State := s.gate q 6 fun s =>
  let n := reqIx q
  let i := match q with
    | .vf j => j.val
    | _ => bits v 16 4
  let r := bits v 0 16
  let op := bits v 20 2
  let s := (s.fs (JLK_RANK_CMD n) JLK_RANK_CMD.RANK r).fs (JLK_RANK_CMD n) JLK_RANK_CMD.INST i
  let fin := fun code s => tblDone q (JLK_RANK_CMD n) JLK_RANK_CMD.CODE code s
  if op = 0 then s.done q cOK [] false
  else if op = 3 then fin cBAD_ARG s
  else if op = 2 ∧ isVf q then fin cREFUSED s
  else if op = 2 ∧ s.conf i then (s.fs (JLK_RANK_CMD n) JLK_RANK_CMD.CODE cREFUSED).cross q
  else if r ≥ 4096 then fin cFULL (exhaustInst i SEC_EXH_SRC.RANK s)
  else
    let (w, s) := rdRank i r s
    if op = 1 then fin cOK (s.fs (JLK_RANK_DATA n) JLK_RANK_DATA.ENTRY (w % 2 ^ 21)) else
    let x := s.fv (JLK_RANK_DATA n) JLK_RANK_DATA.ENTRY
    if rkValid w && (rkFaddr x != rkFaddr w || rkInst x != rkInst w) && s.fb (STEP_STATUS i) STEP_STATUS.STATE then fin cREFUSED s
    else if resetting i s || loading i s then fin cRETRY s
    else fin cOK (refreshMap (wrRank i r x (if rkValid x then activate i s else s)))
/-- JLK_RANK_READ, JLK_RANK_WRITE (R310). -/
def execJlkRankRead (q : Req) (v : Word) (s : State) : Res := ok (writeRankCmd q (setBits v.toNat 20 2 1) s)
def execJlkRankWrite (q : Req) (v : Word) (s : State) : Res := ok (writeRankCmd q (setBits v.toNat 20 2 2) s)
/-- A write of JLK_ROUTE_CMD (R312, R331). -/
def writeRouteCmd (q : Req) (v : Nat) (s : State) : State :=
  onDev q (fun s =>
    let n := reqIx q
    let a := bits v 0 16
    let op := bits v 20 2
    let s := s.fs (JLK_ROUTE_CMD n) JLK_ROUTE_CMD.FADDR a
    let fin := fun code s => tblDone q (JLK_ROUTE_CMD n) JLK_ROUTE_CMD.CODE code s
    if op = 0 then s.done q cOK [] false
    else if op = 3 then fin cBAD_ARG s
    else if op = 1 then
      let (w, s) := rdRoute a s
      fin cOK (s.fs (JLK_ROUTE_DATA n) JLK_ROUTE_DATA.ENTRY (w % 2 ^ 17))
    else fin cOK (refreshMap (wrRoute a (s.fv (JLK_ROUTE_DATA n) JLK_ROUTE_DATA.ENTRY) s))) s
/-- JLK_ROUTE_READ, JLK_ROUTE_WRITE (R312). -/
def execJlkRouteRead (q : Req) (v : Word) (s : State) : Res := ok (writeRouteCmd q (setBits v.toNat 20 2 1) s)
def execJlkRouteWrite (q : Req) (v : Word) (s : State) : Res := ok (writeRouteCmd q (setBits v.toNat 20 2 2) s)

/-! Arrivals from the link (R315, R316) -/

/-- Port `p` has passed a record to endpoint `d`. -/
def passedTo (p d : Nat) (s : State) : State :=
  let y := s.jp p
  s.setJp p { y with dmask := if y.dmask.contains d then y.dmask else y.dmask ++ [d] }
/-- The head record of the EVT channel (R315). -/
def rxRecord (p : Nat) (s : State) : State :=
  let x := s.jp p
  match x.rxEv with
  | [] => s
  | (w0, w1, _) :: t =>
    let s := s.setJp p { x with rxEv := t }
    match secDec 57 (w0 % 2 ^ 57) (bits w0 57 7) with
    | (none, _) => s.inc (JLK_RX_CHKERR p) 1
    | (some v, _) =>
      if bit v 56 = false then s
      else if isMine (bits v 0 16) s = false then
        let (d, s) := routeTo (bits v 0 16) s
        match d with
        | none => s.inc (JLK_TX_UNROUTE p) 1
        | some q => transitSend p q chEVT (.ev [⟨v + secEnc 57 v * 2 ^ 57, w1, none⟩]) (passedTo p (epJlk q) s)
      else
        let i := bits v 28 4
        let rank := bits v 16 12
        let (w, s) := rdRank i rank s
        if (ownRank i s).isNone then s.inc (JLK_RX_INST_ERR p) 1
        else if !rkValid w then countGone (epJlk p) w1 i true rank (s.inc (JLK_RX_INST_ERR p) 1)
        else
          let e : EvtIn := ⟨BitVec.ofNat 64 w1, bit v 54, BitVec.ofNat 5 (bits v 38 5), BitVec.ofNat 6 (bits v 32 6), true, BitVec.ofNat 12 rank,
                            BitVec.ofNat 4 i⟩
          let d := epCluster (s.fv (DNET_BLK (bits w1 48 12 / 16)) DNET_BLK.CLNUM)
          edgeInject (epJlk p) e (passedTo p d s)

/-- The head packet of a channel: header, body. -/
def rxHead (p vc : Nat) (s : State) : Option (Nat × Nat × List Byte) := if vc = 0 then (s.jp p).rxMgt.head? else (s.jp p).rxReq.head?
/-- The head packet of a channel leaves the receive buffer. -/
def rxPop (p vc : Nat) (s : State) : State :=
  let x := s.jp p
  if vc = 0 then s.setJp p { x with rxMgt := x.rxMgt.tail } else s.setJp p { x with rxReq := x.rxReq.tail }
/-- Packet kinds that ride each channel, with the VC and the number of flits a header may name (R292, Tables 9-4 and 9-5). -/
def kindOk (w0 : Nat) : Bool :=
  let jk := bits w0 34 4
  decide (bits w0 38 3 ≤ 4) && (if bits w0 32 2 = 2 then decide (1 ≤ jk ∧ jk ≤ 3) else decide (bits w0 32 2 = 0 ∧ 4 ≤ jk ∧ jk ≤ 8))
/-- A packet that carries a rollback notice (R319). -/
def isNotice (w0 : Nat) (b : List Byte) : Bool :=
  let m0 := leNat (b.take 8)
  bits w0 34 4 == jkSYNC && (match secDec 120 (m0 % 2 ^ 56 + leNat ((b.drop 8).take 8) * 2 ^ 56) (bits m0 56 8) with
    | (some m, _) => bits m 0 4 == 7
    | (none, _) => false)
/-- A notice has arrived: a FENCE goes to every endpoint that took a record of this link since the last fences or has not yet
answered one, and the notice waits for the answers (R319 step 4). -/
def holdNotice (p : Nat) (r : RbkIn) (s : State) : State :=
  let x := s.jp p
  let l := x.dmask ++ ((x.rbkIn.flatMap (·.fence)).filter fun d => !x.dmask.contains d).eraseDups
  let s := s.setJp p { x with rbkIn := if l = [] ∧ r.pkt.isSome then x.rbkIn else x.rbkIn ++ [{ r with fence := l }], dmask := [] }
  if l = [] then noticeOn p r s else
  l.foldl (fun s d => s.emit (.packet d (epJlk p) pkFENCE r.inst (s.gen r.inst) 0 [r.step])) s
/-- The head packet of a channel: check, transit and reserved kinds (R292, R315 steps 1 and 2); a good packet for this device
waits for the command of its kind. -/
def rxPkt (p vc : Nat) (s : State) : State :=
  match rxHead p vc s with
  | none => s
  | some (w0, w1, b) =>
    if !jpOk w0 w1 then (rxPop p vc s).inc (JLK_RX_CHKERR p) 1
    else if !kindOk w0 then (rxPop p vc s).inc (JLK_RX_BAD p) 1
    else if isMine (bits w0 0 16) s = false ∧ (bits w0 0 16 ≠ 0xFFFF ∨ bits w0 34 4 ≠ jkSRM) then
      if vc = 0 ∧ isNotice w0 b then
        if (s.jp p).rxEv ≠ [] then s else holdNotice p ⟨bits w0 41 4, 0, 0, 0, bits w0 16 16, [], some (w0, w1, b)⟩ (rxPop p vc s)
      else transitPk p vc w0 w1 b (rxPop p vc s)
    else s
/-- A TRANSIT packet reaches its egress port (R315 step 2): the port packs the record, or stages the packet. A port whose link has gone
passes it on by the route that now holds. -/
def transitIn (p : Nat) (h : Nat) (ws : List Nat) (s : State) : State :=
  if bits h 22 4 ≠ 8 ∨ bit h 31 = false ∨ bits h 0 8 ≠ epJlk p then s else
  let vc := bits h 16 2
  let w0 := ws.headD 0
  let w1 := ws.getD 1 0
  let c : JCont := if vc = chEVT then .ev [⟨w0, w1, none⟩] else .pk w0 w1 ((ws.drop 2).flatMap (leBytes 8))
  if jState p s = jsUp ∨ jState p s = jsSleep ∨ jState p s = jsDown then
    if vc = chEVT then putRec p ⟨w0, w1, none⟩ s else stagePk p vc ⟨c, flowTR, none⟩ s
  else
    let (d, s) := routeTo (bits w0 0 16) s
    match d with
    | none => s.inc (JLK_TX_UNROUTE p) 1
    | some q => transitSend p q vc c s
/-- JLK_RECORD_RECEIVE (R315): the head of a channel of the receive buffer (0 MGT, 1 REQ, 2 EVT), or a TRANSIT packet from the die. -/
def execJlkRecordReceive (p : JPort) (vc : Fin 3) (transit : Option (DWord × List DWord)) (s : State) : Res :=
  match transit with
  | some (h, ws) => ok (transitIn p.val h.toNat (ws.map (·.toNat)) s)
  | none => ok (if vc.val = 2 then rxRecord p.val s else rxPkt p.val (2 * vc.val) s)
/-- The head packet of a channel when it is a good packet of kind `jk` for this device. -/
def rxMine (p vc jk : Nat) (s : State) : Option (Nat × Nat × List Byte) :=
  match rxHead p vc s with
  | some (w0, w1, b) =>
    if jpOk w0 w1 && kindOk w0 && bits w0 34 4 == jk && (isMine (bits w0 0 16) s || (jk == jkSRM && bits w0 0 16 == 0xFFFF)) then some (w0, w1, b)
    else none
  | none => none

/-! Remote writes and fences from the link (R322–R324) -/

/-- JLK_RAW_RECEIVE (R323). -/
def execJlkRawReceive (p : JPort) (s : State) : Res :=
  match rxMine p.val 2 jkRAW s with
  | none => ok s
  | some (w0, w1, b) => ok (rawPerform p.val (bits w0 41 4) (bits w1 0 35) (bits w0 46 8 + 1) b (rxPop p.val 2 s))
/-- JLK_RFENCE_RECEIVE (R324): the remote writes that arrived earlier have been performed. -/
def execJlkRfenceReceive (p : JPort) (s : State) : Res :=
  match rxMine p.val 2 jkRFENCE s with
  | none => ok s
  | some (w0, w1, _) =>
    let s := rxPop p.val 2 s
    let a := bits w0 16 16
    match routeTo a s with
    | (none, s) => ok (s.inc (JLK_TX_UNROUTE p.val) 1)
    | (some q, s) => ok (stageReq q (mkPk a jkRFDONE 0 0 (bits w1 0 12) [] s) flowTR none s)
/-- A fence of port `p` completes. -/
def fenceDone (p tag code : Nat) (s : State) : State :=
  let x := s.jp p
  match sget (fun _ => none) tag x.fences with
  | none => s
  | some a => jAnswer p pkRD_RSP a [code, 0] (s.setJp p { x with fences := sset (fun _ => none) tag none x.fences })
/-- JLK_RFDONE_RECEIVE (R324): the tag names the port that holds the fence and its place there. -/
def execJlkRfdoneReceive (p : JPort) (s : State) : Res :=
  match rxMine p.val 2 jkRFDONE s with
  | none => ok s
  | some (_, w1, _) => ok (fenceDone (bits w1 0 12 / 32) (bits w1 0 12 % 32) (bits w1 12 8) (rxPop p.val 2 s))
/-- JLK_FENCE_TIMEOUT (R324). -/
def execJlkFenceTimeout (p : JPort) (tag : Fin 32) (s : State) : Res := ok (fenceDone p.val tag.val cTIMEOUT s)

/-! Sync records and rollback over links (R318, R319) -/

/-- Rank `k` (`all` none: every rank) has answered the notice of instance `i`, cluster `scl`, step `t` that port `p` sent; the port answers the
root once all have. -/
def rbkAnswered (p i t scl : Nat) (k : Option Nat) (s : State) : State :=
  let x := s.jp p
  let l := x.rbkOut.map fun (r : Nat × Nat × Nat × List Nat) =>
    if r.1 = i ∧ r.2.1 = t ∧ r.2.2.1 = scl then (r.1, r.2.1, r.2.2.1, r.2.2.2.filter fun y => k.isSome && k != some y) else r
  let fin := l.filter fun (r : Nat × Nat × Nat × List Nat) => r.2.2.2.isEmpty
  let s := s.setJp p { x with rbkOut := l.filter fun (r : Nat × Nat × Nat × List Nat) => !r.2.2.2.isEmpty }
  fin.foldl (fun s r => syncOut (epJlk p) 8 r.1 r.2.1 (rbkArg false 0 r.2.2.1) s) s
/-- Port `p` awaits the answer of rank `k` to that notice. -/
def rbkAwaits (p i t scl k : Nat) (s : State) : Bool :=
  (s.jp p).rbkOut.any fun r => r.1 == i && r.2.1 == t && r.2.2.1 == scl && r.2.2.2.contains k
/-- An answer that arrived at port `p`: for the port that awaits it, which may be another (R319 step 3). -/
def rbkReply (p i t scl k : Nat) (s : State) : State :=
  match (p :: List.range 12).find? fun q => rbkAwaits q i t scl k s with
  | some q => rbkAnswered q i t scl (some k) s
  | none => s
/-- An RBK of the root for an event source on this device: the port sends the notice to each rank of its set (R319 step 3), and answers at once
when there is none. -/
def rbkPort (i scl t : Nat) (s : State) (p : Nat) : State :=
  let (ss, l) := sget (fun _ => (0, [])) (2 * i + t % 2) (s.jp p).sets
  if l = [] ∨ ss ≠ t % 32 then syncOut (epJlk p) 8 i t (rbkArg false 0 scl) s else
  let x := s.jp p
  let s := s.setJp p { x with rbkOut := x.rbkOut ++ [(i, t, scl, l)] }
  l.foldl (fun s r => syncSend i r 7 t (rbkArg false 0 scl) s) s
/-- The answer to a notice that arrived over a link (R319 step 4). -/
def rbkReturn (i rank scl t : Nat) (s : State) (p : Nat) : State :=
  let x := s.jp p
  let mine := fun (r : RbkIn) => r.inst == i && r.rank == rank && r.scl == scl && r.step == t && r.fence.isEmpty && r.pkt.isNone
  match x.rbkIn.find? mine with
  | none => s
  | some r =>
    let s := s.setJp p { x with rbkIn := x.rbkIn.filter fun y => !mine y }
    let (w, s) := rdRank i rank s
    match routeTo r.sfaddr s with
    | (none, s) => s.inc (JLK_TX_UNROUTE p) 1
    | (some q, s) =>
      stageMgt q (mkPk r.sfaddr jkSYNC (rkInst w) 0 0 (syncBytes 8 i t (rbkArg false 0 scl) ++ leBytes 2 ((ownRank i s).getD 0)) s) i s

/-- JLK_SYNC_RECEIVE (R318, R319): the message's INST is replaced by that of the packet and the root takes it. -/
def execJlkSyncReceive (p : JPort) (s : State) : Res :=
  let n := p.val
  match rxMine n 0 jkSYNC s with
  | none => ok s
  | some (w0, _, b) =>
    let rank := leNat ((b.drop 16).take 2) % 4096
    let i := bits w0 41 4
    match syncRecv (leNat (b.take 8)) (leNat ((b.drop 8).take 8)) s with
    | (none, s) => ok (rxPop n 0 s)
    | (some (op, _, t, arg), s) =>
      match op with
      | 1 => ok (seqReport i rank t (bits arg 32 32) (rxPop n 0 s))
      | 2 => ok (advRelayed i t arg (rxPop n 0 s))
      | 7 => if (s.jp n).rxEv ≠ [] then ok s else ok (holdNotice n ⟨i, rank, bits arg 0 6, t, bits w0 16 16, [], none⟩ (rxPop n 0 s))
      | 8 => ok (rbkReply n i t (bits arg 0 6) rank (rxPop n 0 s))
      | 0xB => ok (gatherMsg i t arg (rxPop n 0 s))
      | _ => ok ((rxPop n 0 s).inc DNET_SYNC_UE 1)
/-- JLK_RBK_TIMEOUT (R319, R453): the port answers the root and counts the ranks that did not. -/
def execJlkRbkTimeout (p : JPort) (i : InstNo) (s : State) : Res :=
  let x := s.jp p.val
  let late := x.rbkOut.filter fun (r : Nat × Nat × Nat × List Nat) => r.1 == i.val
  ok (late.foldl (fun s r =>
    let s := (s.inc (JLK_RBK_TMO p.val) r.2.2.2.length).log 0x05 (some i.val) (p.val :: r.2.2.2)
    let s := match (s.cluster r.2.2.1).rewind with
      | some w => s.setCluster r.2.2.1 { s.cluster r.2.2.1 with rewind := some { w with flags := w.flags ||| 2 } }
      | none => s
    rbkAnswered p.val r.1 r.2.1 r.2.2.1 none s) s)

/-! QUENCH (R320) -/

/-- JLK_QSTAT follows the quenches in force; held events go on where none applies. -/
def quenchSettle (s : State) : State :=
  let s := (List.range 16).foldl (fun s i =>
    let (v, _) := sget (fun _ => (0, 0)) i s.jdev.qInst
    s.wr (JLK_QSTAT i) (b2n (v != 0) + b2n (v == 2) * 2 + s.jdev.qTgt.length * 4)) s
  (List.range 12).foldl (fun s p => goHeld p s) s
/-- A QUENCH in force or released. -/
def quench (i tgt scope : Nat) (drop : Bool) (lease : Nat) (s : State) : State :=
  let d := s.jdev
  let others := d.qTgt.filter fun y => y.1 != tgt
  match scope with
  | 0 => quenchSettle { s with jdev := { d with qInst := sset (fun _ => (0, 0)) i (1 + b2n drop, lease) d.qInst } }
  | 1 =>
    if others.length ≥ 64 then (s.inc JLK_QUENCH_FULL 1).log 0x05 none [tgt, s.rd JLK_QUENCH_FULL + 1]
    else quenchSettle { s with jdev := { d with qTgt := others ++ [(tgt, drop, lease)] } }
  | 2 => quenchSettle { s with jdev := { d with qInst := sset (fun _ => (0, 0)) i (0, 0) d.qInst } }
  | _ => quenchSettle { s with jdev := { d with qTgt := others } }
/-- QUENCH_RECEIVE (R320). -/
def execQuenchReceive (p : JPort) (s : State) : Res :=
  match rxMine p.val 0 jkQUENCH s with
  | none => ok s
  | some (w0, _, b) =>
    let s := rxPop p.val 0 s
    if s.fb (JLK_CTRL p.val) JLK_CTRL.FM_EN = false then ok (s.inc (JLK_RX_BAD p.val) 1) else
    let v := leNat (b.take 4)
    ok (quench (bits w0 41 4) (bits v 0 16) (bits v 16 2) (bit v 18) (leNat ((b.drop 4).take 2)) s)
/-- QUENCH_LEASE_EXPIRE (R320): of a target, or of instance `i` when none is given. -/
def execQuenchLeaseExpire (tgt : Option (BitVec 16)) (i : InstNo) (s : State) : Res :=
  match tgt with
  | some a => ok (if s.jdev.qTgt.any (fun y => y.1 == a.toNat && y.2.2 != 0) then quench 0 a.toNat 3 false 0 s else s)
  | none =>
    let (v, l) := sget (fun _ => (0, 0)) i.val s.jdev.qInst
    ok (if v ≠ 0 ∧ l ≠ 0 then quench i.val 0 2 false 0 s else s)

/-! Reroute after a link failure (R326) -/

/-- JLK_LDN_RECEIVE (R325, R326): the notice names the sender's port; the local port that faces it goes Down too and reinjects. -/
def execJlkLdnReceive (p : JPort) (s : State) : Res :=
  match rxMine p.val 0 jkLDN s with
  | none => ok s
  | some (w0, _, b) =>
    let s := rxPop p.val 0 s
    let v := leNat (b.take 2)
    match (List.range 12).find? fun q => s.fb (JLK_PEER q) JLK_PEER.VALID && s.fv (JLK_PEER q) JLK_PEER.FADDR == bits w0 16 16
        && s.fv (JLK_PEER q) JLK_PEER.PORT == bits v 12 4 with
    | none => ok s
    | some q => ok (reinject q (some (bits v 0 12)) none (linkDown q true s))
/-! Counters -/

/-- A write of JLK_CNT_CLR (R331). -/
def writeJlkCntClr (q : Req) (p v : Nat) (s : State) : State :=
  onJlk q p (fun s => (if bit v 0 then s.resetRegs (base_jlk p + 0x100) 0x58 else s).done q cOK [] false) s
/-- JLK_CNT_CLR (R331). -/
def execJlkCntClr (q : Req) (p : JPort) (v : Word) (s : State) : Res := ok (writeJlkCntClr q p.val v.toNat s)

end Sys2Proof.Machine
end

