-- ==== Sys2Proof/Machine/Host.lean ====
section
/-! DEFINITION. The host port (R332–R345): BAR2, rings, ingress events, egress and rollback at the egress ports. -/
namespace Sys2Proof.Machine

/-- The requester and the instance of function `f` (R335). -/
def fnReq (f : Fin 17) : Req := if h : f.val = 0 then .pf else .vf ⟨f.val - 1, by omega⟩
def State.ring (s : State) (r : Nat) : RingSt := sget (fun _ => {}) r s.host.rings
def State.setRing (r : Nat) (x : RingSt) (s : State) : State :=
  { s with host := { s.host with rings := sset (fun _ => {}) r x s.host.rings } }
/-- Register keys and fields of ring context `r` = 8 × function + k. -/
def rgCfg (r : Nat) : Nat := RING_CFG (r / 8) (r % 8)
def rgD (r : Nat) : Nat := RING_DIDX (r / 8) (r % 8)
def rgH (r : Nat) : Nat := RING_HIDX (r / 8) (r % 8)
def rgOn (r t : Nat) (s : State) : Bool := !s.tdiErr (r / 8) && s.fb (rgCfg r) RING_CFG.EN && s.fv (rgCfg r) RING_CFG.TYPE == t
def rgSize (r : Nat) (s : State) : Nat := 2 ^ s.fv (rgCfg r) RING_CFG.LOG2SZ
def tyEV : Nat := 1
def tyER : Nat := 2
def tyBK : Nat := 3
def tyBC : Nat := 4

/-! Egress staging (R343) -/

def State.eth (s : State) (p : Nat) : EthSt := sget (fun _ => {}) p s.host.eth
def State.setEth (p : Nat) (x : EthSt) (s : State) : State := { s with host := { s.host with eth := sset (fun _ => {}) p x s.host.eth } }
def State.stage (s : State) (e : Nat) : List EgrEnt := sget (fun _ => []) e s.host.stage
def State.setStage (e : Nat) (l : List EgrEnt) (s : State) : State :=
  { s with host := { s.host with stage := sset (fun _ => []) e l s.host.stage } }
def State.egrHeld (s : State) (e : Nat) : List EvtIn := sget (fun _ => []) e s.host.held
def State.setEgrHeld (e : Nat) (l : List EvtIn) (s : State) : State :=
  { s with host := { s.host with held := sset (fun _ => []) e l s.host.held } }
/-- The ring a host egress binding of instance `i` names. -/
def egrRing (i : Nat) (s : State) : Nat :=
  8 * (if s.fb (HOST_EGR i) HOST_EGR.FNPF then 0 else i + 1) + s.fv (HOST_EGR i) HOST_EGR.RING
/-- Entries instance `i` holds at egress port `e`: staged, and released ones that wait. -/
def egrHolds (e i : Nat) (s : State) : Nat :=
  ((s.stage e).filter fun x => x.inst == i).length +
    (if e = 0 then s.host.rings.foldl (fun n r => n + (r.2.pend.filter fun x => x.inst == some i).length) 0
     else (s.eth (e - 1)).recs.length + (s.eth (e - 1)).dgrams.foldl (fun n l => n + l.length) 0)
def egrLimit (e i : Nat) (s : State) : Nat := if e = 0 then s.fv (HOST_EGR i) HOST_EGR.MAXK * 256 else 16384
/-- The drop and rollback counters of an egress port for instance `i`. -/
def egrDrop (e i : Nat) (s : State) : Nat := if e = 0 then HOST_EGR_DROP (egrRing i s / 8) else ETH_EGR_DROP (e - 1)
def egrRbk (e i : Nat) (s : State) : Nat := if e = 0 then HOST_EGR_RBK (egrRing i s / 8) else ETH_EGR_RBK (e - 1)
/-- One event at egress port `e` that its credit lets in: staged, or discarded at the limit; none while it must wait. -/
def egrArrive (e : Nat) (v : EvtIn) (s : State) : Option State :=
  let i := v.inst.toNat
  let full := decide (egrHolds e i s ≥ egrLimit e i s) || (e == 0 && decide ((s.stage 0).length ≥ 65536))
  let hold := s.fb (HOST_EGR i) HOST_EGR.HOLD
  let ev := v.ev.toNat
  let del := countGone (0x11 + e) ev i false 0
  if resetting i s then some (del (s.inc (egrDrop e i s) 1))
  else if full then (if hold then none else some (del (s.inc (egrDrop e i s) 1)))
  else
    some (del (s.setStage e (s.stage e ++ [⟨i, bits ev 32 16, bits ev 0 22, bits ev 60 4 == 1, bits ev 48 12, v.sstep5.toNat, v.scl.toNat⟩])))
/-- Take events whose credit was withheld, oldest first; a FENCE behind one has one fewer before it (R345). -/
def egrRetry (e : Nat) : Nat → State → State
  | 0, s => s
  | n + 1, s =>
    match s.egrHeld e with
    | [] => s
    | v :: t => match egrArrive e v s with
      | some s => egrRetry e n (egrFences e (fenceStep 0) (s.setEgrHeld e t))
      | none => s
def egrGo (e : Nat) (s : State) : State := egrRetry e (s.egrHeld e).length s

/-! Device-produced rings (R340) -/

/-- A signal of the ring's vector. -/
def rgSignal (r : Nat) (s : State) : State :=
  (s.setRing r { s.ring r with unsig := 0 }).emit (.msix (r / 8) (s.fv (rgCfg r) RING_CFG.VEC))
/-- The device's index is written to the index block. -/
def rgIndex (r : Nat) (s : State) : State :=
  s.emit (.hostWrite (r / 8) (s.rd64 (RING_IDXADDR (r / 8) (r % 8))) (leBytes 16 (s.rd (rgD r))))
/-- Write the oldest waiting entry into the ring with its PH bit: 1 on even laps. -/
def rgWrite1 (r : Nat) (e : RingEnt) (s : State) : State :=
  let d := s.rd (rgD r)
  let n := rgSize r s
  let ph := b2n (d / n % 2 == 0) * 2 ^ 63
  let l := if s.fv (rgCfg r) RING_CFG.TYPE = tyER then leBytes 8 (e.w0 % 2 ^ 63 + ph) ++ leBytes 8 e.w1
    else leBytes 8 e.w0 ++ leBytes 8 (e.w1 % 2 ^ 63 + ph)
  (s.emit (.hostWrite (r / 8) (s.rd64 (RING_BASE (r / 8) (r % 8)) + 16 * (d % n)) l)).wr (rgD r) ((d + 1) % 2 ^ 32)
/-- Write at most `n` waiting entries. -/
def rgBatch (r : Nat) : Nat → State → State
  | 0, s => s
  | n + 1, s =>
    let x := s.ring r
    match x.pend with
    | [] => s
    | e :: t =>
      if (s.rd (rgD r) + 2 ^ 32 - s.rd (rgH r)) % 2 ^ 32 ≥ rgSize r s then s
      else rgBatch r n (rgWrite1 r e (s.setRing r { x with pend := t, unsig := x.unsig + 1 }))
/-- Batches of at most 64 entries while entries wait and the ring has room: entries, index block, signal (R340). -/
def rgDrain (r : Nat) : Nat → State → State
  | 0, s => s
  | k + 1, s =>
    let d := s.rd (rgD r)
    let s := rgBatch r 64 s
    if s.rd (rgD r) = d then s
    else
      let s := rgIndex r s
      let c := s.fv (RING_MOD (r / 8) (r % 8)) RING_MOD.CNT
      rgDrain r k (if c ≠ 0 ∧ (s.ring r).unsig ≥ c then rgSignal r s else s)
/-- Write what can be written; the room it makes at the host port lets held egress in (R343). -/
def rgGo (r : Nat) (s : State) : State :=
  if rgOn r tyER s || rgOn r tyBC s then egrGo 0 (rgDrain r ((s.ring r).pend.length / 64 + 1) s) else s

/-- RING_MOD_TIMER (R340): MOD.US has passed since the first entry not yet signalled. -/
def execRingModTimer (f : Fin 17) (k : Fin 8) (s : State) : Res :=
  let r := 8 * f.val + k.val
  let m := RING_MOD f.val k.val
  if (s.ring r).unsig ≠ 0 ∧ s.fb m RING_MOD.CNT ∧ s.fb m RING_MOD.US then ok (rgSignal r s) else ok s

/-! Function windows (R364) -/

/-- An access to the window of function `f`: its own, and the physical function's except that a locked interface is read-only to
it (R364, R468). -/
def onFn (q : Req) (f : Nat) (write : Bool) (g : State → State) (s : State) : State := s.hub q 5 fun s =>
  match q with
  | .vf i => if i.val + 1 = f then g s else s.cross q
  | _ => if write && f != 0 && s.fb (SEC_INST (f - 1)) SEC_INST.TDI then s.cross q else g s
/-- A write of a ring context's CFG (R338): while EN = 1 only one that clears EN and leaves the other fields as they are. -/
def writeRingCfg (q : Req) (f k v : Nat) (s : State) : State :=
  onFn q f true (fun s =>
    let c := RING_CFG f k
    let t := bits v 1 3
    let l := bits v 4 5
    let bad := decide (l < 6 ∨ l > 16) || (bit v 0 && (decide (t = 0 ∨ t > 4) || decide (s.rd64 (RING_BASE f k) % 4096 ≠ 0)
      || decide (bits v 16 6 > (if f = 0 then 47 else 5))))
    if s.fb c RING_CFG.EN then
      (if bit v 0 = false ∧ [RING_CFG.TYPE, RING_CFG.LOG2SZ, RING_CFG.MARK, RING_CFG.VEC, RING_CFG.INST, RING_CFG.CRING].all
          (fun g => bits v g.lo g.w == s.fv c g) then (s.fs c RING_CFG.EN 0).done q cOK [] false
       else s.done q cREFUSED [] false)
    else if bad then s.done q cBAD_ARG [] false
    else
      let s := s.wrFlds c v [RING_CFG.EN, RING_CFG.TYPE, RING_CFG.LOG2SZ, RING_CFG.MARK, RING_CFG.VEC, RING_CFG.INST, RING_CFG.CRING]
      let s := if bit v 0 then
          let s := (s.wr (RING_DIDX f k) 0).wr (RING_HIDX f k) 0
          rgGo (8 * f + k) (s.setRing (8 * f + k) { s.ring (8 * f + k) with unsig := 0, wait := none })
        else s
      s.done q cOK [] false) s
/-- RING_ENABLE (R338): a write of CFG with EN = 1. -/
def execRingEnable (q : Req) (f : Fin 17) (k : Fin 8) (v : Word) (s : State) : Res :=
  ok (writeRingCfg q f.val k.val (setBits v.toNat 0 1 1) s)

/-- A doorbell that is ignored: counted, and DBERR when its value is at fault (R339). -/
def dbBad (f : Nat) (err : Bool) (s : State) : State :=
  let s := s.fs (HOST_DB_ERR f) HOST_DB_ERR.DB (satU 16 (s.fv (HOST_DB_ERR f) HOST_DB_ERR.DB + 1))
  if err then s.fs (HOST_FN_STAT f) HOST_FN_STAT.DBERR 1 else s
/-- HOST_DOORBELL (R339): a write of `size` bytes of `v` at BAR4 offset 0x8000 + 8k of function `f`. -/
def execHostDoorbell (f : Fin 17) (k : Fin 8) (size : Nat) (v : Word) (s : State) : Res :=
  let r := 8 * f.val + k.val
  if s.tdiErr f.val then ok s else
  if size ≠ 4 then ok (dbBad f.val false s) else
  let n := rgSize r s
  let h := s.rd (rgH r)
  let d := s.rd (rgD r)
  let v := v.toNat
  let t := s.fv (rgCfg r) RING_CFG.TYPE
  let gap := if t = tyEV ∨ t = tyBK then (v + 2 ^ 32 - d) % 2 ^ 32 else (d + 2 ^ 32 - v) % 2 ^ 32
  if (v + 2 ^ 32 - h) % 2 ^ 32 > n ∨ gap > n then ok (dbBad f.val true s)
  else ok (rgGo r (s.wr (rgH r) v))

/-! BAR2 (R334) -/

/-- Log2 of the BAR2 size of function `f` (R333). -/
def bar2Log (f : Nat) (s : State) : Nat := sget (fun n => if n = 0 then 39 else 34) f s.host.bar2
/-- A failed BAR2 access: recorded and counted. -/
def barFail (f code : Nat) (s : State) : State :=
  let s := s.fs (HOST_FN_STAT f) HOST_FN_STAT.LAST_MCODE code
  s.fs (HOST_DB_ERR f) HOST_DB_ERR.BAR (satU 16 (s.fv (HOST_DB_ERR f) HOST_DB_ERR.BAR + 1))
/-- Pieces of at most `m` bytes, each within one aligned block of `m` bytes: offset and length (R334, R361). -/
def pieces (m a n : Nat) : List (Nat × Nat) :=
  (List.range ((a + n + m - 1) / m - a / m)).map fun i =>
    let lo := if i = 0 then a else (a / m + i) * m
    let hi := if (a / m + i + 1) * m < a + n then (a / m + i + 1) * m else a + n
    (lo - a, hi - lo)
/-- The part of an access that one piece makes. -/
def winPart (o : WinOp) (p : Nat × Nat) : WinOp :=
  match o with
  | .rd _ => .rd p.2
  | .wr d => .wr ((d.drop p.1).take p.2)
/-- Perform pieces in ascending order: the first failing code, the bytes read, the state. -/
def winPieces (q : Req) (a : Nat) (o : WinOp) (s : State) : WinRes :=
  (pieces 64 a (winLen o)).foldl (fun (t : WinRes) p =>
    let r := winAccess q (a + p.1) (winPart o p) t.2.2
    (if t.1 = cOK then r.1 else t.1, t.2.1 ++ r.2.1, r.2.2)) (cOK, [], s)
/-- The transfers of module memory with a link error: counted, and CHECK_FAIL when the repeat failed too (R357). -/
def linkEcc (a link code : Nat) (s : State) : Nat × State :=
  if code ≠ cOK ∨ a ≥ 0x2000000000 then (code, s)
  else if link = 1 then (code, s.inc MEMC_LINK_CE 1)
  else if link = 2 then (cCHECK_FAIL, s.inc MEMC_LINK_UE 1)
  else (code, s)
/-! Ingress events (R341) -/

/-- The port tags an event with the instance's open step and injects it (R194, R228, R230). -/
def ingress (ep i ev : Nat) (hpar : Bool) (s : State) : State :=
  edgeInject ep ⟨BitVec.ofNat 64 ev, hpar, BitVec.ofNat 5 (s.fv (STEP_CUR i) STEP_CUR.STEP), 0, true,
    BitVec.ofNat 12 (s.fv (JLK_OWNRANK i) JLK_OWNRANK.RANK), BitVec.ofNat 4 i⟩ (if evCounts ev then countInjected ep i s else s)
/-- The instance an EV ring serves. -/
def rgInst (r : Nat) (s : State) : Nat := if r / 8 = 0 then s.fv (rgCfg r) RING_CFG.INST else r / 8 - 1
/-- The entry is taken: the device's index moves. -/
def rgTake (r : Nat) (s : State) : State := rgIndex r (s.wr (rgD r) ((s.rd (rgD r) + 1) % 2 ^ 32))
/-- An entry at the head of EV ring `r`: handled, or the ring waits at it. -/
def evEntry (r w0 w1 : Nat) (s : State) : State :=
  let i := rgInst r s
  let f := r / 8
  let d := (bits w1 16 16 + 65536 - s.fv (STEP_CUR i) STEP_CUR.STEP % 65536) % 65536
  let at_ := bit w1 2
  if s.fv (STEP_STATUS i) STEP_STATUS.STATE ≠ 1 ∨ (at_ ∧ 1 ≤ d ∧ d ≤ 32767) then
    s.setRing r { s.ring r with wait := some (w0, w1) }
  else
    let s := s.setRing r { s.ring r with wait := none }
    let s := if at_ && d != 0 then s.inc (HOST_EV_LATE f) 1 else s
    let t := bits w0 60 4
    rgTake r (
      if t = 2 ∨ t ≥ 5 ∨ (f = 0 ∧ bits w1 32 4 ≠ i) then s.inc (HOST_EV_BAD f) 1
      else if bit w1 1 then
        let c := evtChk w0
        ingress (epPort 12) i (setBits w0 22 6 c) (c.testBit 6) s
      else match secDec 36 (bits w0 28 36) (bits w0 22 6 + 64 * b2n (bit w1 0)) with
        | (none, _) => s.inc (HOST_EV_CHKERR f) 1
        | (some x, _) =>
          let e := setBits w0 28 36 x
          let c := evtChk e
          ingress (epPort 12) i (setBits e 22 6 c) (c.testBit 6) s)
/-- HOST_EV_ENTRY (R341): the next entry of an EV ring as host memory holds it. -/
def execHostEvEntry (f : Fin 17) (k : Fin 8) (w0 w1 : DWord) (s : State) : Res :=
  let r := 8 * f.val + k.val
  if rgOn r tyEV s && s.rd (rgD r) != s.rd (rgH r) && (s.ring r).wait.isNone && !resetting (rgInst r s) s then ok (evEntry r w0.toNat w1.toNat s)
  else ok s
/-- HOST_EV_RING_RESUME (R341). -/
def execHostEvRingResume (f : Fin 17) (k : Fin 8) (s : State) : Res :=
  let r := 8 * f.val + k.val
  match (s.ring r).wait with
  | some (w0, w1) => ok (if rgOn r tyEV s && !resetting (rgInst r s) s then evEntry r w0 w1 s else s)
  | none => ok s

/-! Event-port datagrams (R355, R356) -/

/-- `n` big-endian bytes of `v`. -/
def beBytes (n v : Nat) : List Byte := (leBytes n v).reverse
/-- Replace bytes of `l` from `o`. -/
def putBytes (l : List Byte) (o : Nat) (b : List Byte) : List Byte := (l.take o ++ b ++ l.drop (o + b.length)).take l.length
/-- Ones' complement sum of 16-bit words. -/
def sum16 : List Byte → Nat
  | a :: b :: t => a.toNat * 256 + b.toNat + sum16 t
  | [a] => a.toNat * 256
  | [] => 0
/-- Fold carries and complement. -/
def csum16 (n : Nat) : Nat :=
  let n := n % 65536 + n / 65536
  let n := n % 65536 + n / 65536
  65535 - (n % 65536 + n / 65536) % 65536
/-- The bytes of the template. -/
def template (p : Nat) (s : State) : List Byte :=
  (wordBytes ((List.range 32).map fun k => s.rd (ETH_TPL p k))).take (s.fv (ETH_EGR p) ETH_EGR.TPL_LEN)
/-- A datagram of records `l` as event port `p` sends it (Table 10-10). -/
def dgram (p : Nat) (l : List EthRec) (s : State) : List Byte :=
  let x := s.eth p
  let st := match l with
    | r :: _ => r.step
    | [] => 0
  let hdr := [0x4C4D4547, 1 + s.fv (ETH_OWN p) ETH_OWN.INST * 2 ^ 8 + p * 2 ^ 12 + l.length % 65536 * 2 ^ 16, x.seq, st % 2 ^ 32, st / 2 ^ 32,
    (match l with
      | r :: _ => r.p
      | [] => 0) % 2 ^ 32, (match l with
      | r :: _ => r.p
      | [] => 0) / 2 ^ 32, 0]
  let body := wordBytes hdr ++ l.flatMap fun r => leBytes 8 (r.word + (r.step - st) * 2 ^ 52)
  let t := template p s
  let l3 := s.fv (ETH_EGR_DST p) ETH_EGR_DST.L3OFS
  let l4 := s.fv (ETH_EGR_DST p) ETH_EGR_DST.L4OFS
  let v6 := s.fb (ETH_EGR p) ETH_EGR.L3
  let udp := t.length - l4 + body.length
  let t := putBytes t (l4 + 4) (beBytes 2 udp)
  let t := putBytes t (l4 + 6) [0, 0]
  let t := if v6 then putBytes t (l3 + 4) (beBytes 2 (t.length - l3 - 40 + body.length))
    else
      let t := putBytes t (l3 + 2) (beBytes 2 (t.length - l3 + body.length))
      let t := putBytes t (l3 + 4) (beBytes 2 x.ipid)
      let t := putBytes t (l3 + 10) [0, 0]
      putBytes t (l3 + 10) (beBytes 2 (csum16 (sum16 ((t.drop l3).take (4 * ((t.getD l3 0).toNat % 16))))))
  let addr := if v6 then (t.drop (l3 + 8)).take 32 else (t.drop (l3 + 12)).take 8
  let c := csum16 (sum16 addr + 17 + udp + sum16 (t.drop l4 ++ body))
  let t := if v6 || s.fb (ETH_EGR p) ETH_EGR.CSUM then putBytes t (l4 + 6) (beBytes 2 (if c = 0 then 65535 else c)) else t
  t ++ body
/-- The port can send datagrams now. -/
def ethCanSend (p : Nat) (s : State) : Bool :=
  s.fb (ETH_CTRL p) ETH_CTRL.EN && s.fb (ETH_STATUS p) ETH_STATUS.UP && !s.fb (ETH_STATUS p) ETH_STATUS.PAUSED
/-- Send closed datagrams. -/
def ethDrain (p : Nat) : Nat → State → State
  | 0, s => s
  | k + 1, s =>
    let x := s.eth p
    match x.dgrams with
    | [] => s
    | l :: t =>
      if ethCanSend p s then
        let s := s.emit (.frame p (dgram p l s))
        let x := { x with dgrams := t, ipid := (x.ipid + 1) % 65536, seq := (x.seq + 1) % 2 ^ 32, frameT := some (s.rd64 TIME64) }
        ethDrain p k ((s.setEth p x).inc64 (ETH_TX_DGRAM p) 1)
      else s
def ethGo (p : Nat) (s : State) : State := egrGo (1 + p) (ethDrain p (s.eth p).dgrams.length s)
/-- The open datagram closes. -/
def ethClose (p : Nat) (s : State) : State :=
  let x := s.eth p
  if x.recs = [] then s else ethGo p (s.setEth p { x with dgrams := x.dgrams ++ [x.recs], recs := [] })
/-- One released record joins the open datagram. -/
def ethRelease (p : Nat) (r : EthRec) (s : State) : State :=
  let s := match (s.eth p).recs with
    | h :: _ => if r.step - h.step > 255 then ethClose p s else s
    | [] => s
  let x := s.eth p
  let s := s.setEth p { x with recs := x.recs ++ [r] }
  if (s.eth p).recs.length ≥ s.fv (ETH_EGR p) ETH_EGR.MAXREC then ethClose p s else s
/-- DATAGRAM_FLUSH_TIMEOUT (R356). -/
def execDatagramFlushTimeout (p : EPort) (s : State) : Res :=
  ok (if s.fv (ETH_EGR p.val) ETH_EGR.FLUSH = 1 then ethClose p.val s else s)

/-! Egress (R342–R345) -/

/-- EGRESS_EVENT_ARRIVE (R343): at egress port `e`: 0 the host port, 1 and 2 the event ports. -/
def execEgressEventArrive (e : Fin 3) (v : EvtIn) (s : State) : Res :=
  if s.egrHeld e.val ≠ [] then ok (s.setEgrHeld e.val (s.egrHeld e.val ++ [v]))
  else match egrArrive e.val v s with
    | some s => ok s
    | none => ok (s.setEgrHeld e.val [v])

/-- Entries of step `t` of instance `i` at port `e` in release order, and the rest (R344). -/
def egrTake (e i t : Nat) (s : State) : List EgrEnt × List EgrEnt :=
  let mine := fun (x : EgrEnt) => x.inst == i && x.sstep5 == t % 32
  let l := (s.stage e).filter mine
  ((List.range 64).flatMap (fun c => l.filter fun x => x.scl == c), (s.stage e).filter fun x => !mine x)
/-- The 40 low bits and DCORE of a released record. -/
def egrWord (x : EgrEnt) : Nat := x.axon + x.payload * 2 ^ 16 + b2n x.g * 2 ^ 38 + x.dcore * 2 ^ 40
/-- The host port releases a step. -/
def hostRelease (i t : Nat) (s : State) : State :=
  let (l, rest) := egrTake 0 i t s
  if l = [] then s else
  let r := egrRing i s
  let mark := if s.fb (rgCfg r) RING_CFG.MARK then [(⟨s.now % 2 ^ 56 + 2 ^ 62, t + satU 16 l.length * 2 ^ 48, none⟩ : RingEnt)] else []
  let es := l.map fun x => (⟨egrWord x + i * 2 ^ 52 + x.scl * 2 ^ 56, t, some i⟩ : RingEnt)
  let s := s.setStage 0 rest
  rgGo r (s.setRing r { s.ring r with pend := (s.ring r).pend ++ es ++ mark })
/-- Event port `p` releases a step of its owner; `p2` is twice P(t). -/
def portRelease (p i t p2 : Nat) (s : State) : State :=
  let (l, rest) := egrTake (1 + p) i t s
  if l = [] then s else
  let s := s.setStage (1 + p) rest
  let s := l.foldl (fun s x => ethRelease p ⟨t, p2 / 2, egrWord x⟩ s) s
  if s.fv (ETH_EGR p) ETH_EGR.FLUSH = 0 then ethClose p s else s
/-- Event ports that instance `i` owns and has bound. -/
def boundPorts (i : Nat) (s : State) : List Nat :=
  [0, 1].filter fun p => s.fb (ETH_OWN p) ETH_OWN.VALID && s.fv (ETH_OWN p) ETH_OWN.INST == i && s.fb (ETH_EGR_DST p) ETH_EGR_DST.VALID
/-- EGRESS_RELEASE (R344): the oldest closed step of instance `i`, once P(t) has come and the instance has committed it. -/
def execEgressRelease (i : InstNo) (s : State) : Res :=
  let n := i.val
  match (s.inst n).closeT with
  | [] => ok s
  | (t, _) :: _ =>
    let p2 := presentT2 n t s
    let done := match (s.inst n).committed with
      | some c => decide (t ≤ c)
      | none => false
    if !done || decide (2 * s.now + 1 < p2) then ok s
    else
      let ports := boundPorts n s
      let s := if (s.inst n).late.contains t then
          let s := if s.fb (HOST_EGR n) HOST_EGR.VALID then s.inc (HOST_EGR_LATE (egrRing n s / 8)) 1 else s
          ports.foldl (fun s p => s.inc (ETH_EGR_LATE p) 1) s
        else s
      let s := [0, 1].foldl (fun s p => portRelease p n t p2 s) (hostRelease n t s)
      let s := s.setInst n { s.inst n with closeT := serase t (s.inst n).closeT, late := (s.inst n).late.filter (· != t) }
      ok ([0, 1, 2].foldl (fun s e => egrGo e s) s)

/-- Discard what an RBK with REM = 0 names at egress port `e` (R345). -/
def egressRbk (i scl t e : Nat) (s : State) : State :=
  let hit := fun (x : EgrEnt) => x.inst == i && x.scl == scl && x.sstep5 == t % 32
  let n := ((s.stage e).filter hit).length
  if n = 0 then s else egrGo e ((s.setStage e ((s.stage e).filter fun x => !hit x)).inc (egrRbk e i s) n)
/-- Discard all egress of instance `i` (Table 15-9 step 1). -/
def egressDrop (i : Nat) (s : State) : State :=
  let s := [0, 1, 2].foldl (fun s e => s.setStage e ((s.stage e).filter fun x => x.inst != i)) s
  let s := s.host.rings.foldl (fun s r => s.setRing r.1 { s.ring r.1 with pend := (s.ring r.1).pend.filter fun x => x.inst != some i }) s
  let s := (boundPorts i s).foldl (fun s p => s.setEth p { s.eth p with recs := [], dgrams := [] }) s
  [0, 1, 2].foldl (fun s e => egrGo e s) (s.setInst i { s.inst i with closeT := [], late := [] })

/-- A rollback notice: REM, RANK and SCL of its ARG (Table 7-11). -/
def argRem (a : Nat) : Bool := bit a 6
def argRank (a : Nat) : Nat := bits a 7 12
def argScl (a : Nat) : Nat := bits a 0 6
/-- Jarisk port `p` holds a route for instance `i`. -/
def holdsRoute (i p : Nat) (s : State) : Bool := s.dev.rankMap.any fun x => x.1 / 4096 == i && x.2 == p
/-- The units that the root sends a rollback notice of instance `i` to (R249 step 4, R345). -/
def rbkUnits (i : Nat) (s : State) : List SyncUnit :=
  ((List.finRange 64).filter fun c => (s.instClusters i).contains c.val && !s.clGone c.val).map SyncUnit.cluster
    ++ ((List.finRange 12).filter fun p => holdsRoute i p.val s).map SyncUnit.jlk
    ++ SyncUnit.host :: ((List.finRange 2).filter fun p => !s.dev.fusedEth.contains p.val).map SyncUnit.eth
/-- The notice at unit `u`, which answers it: a cluster agent and an egress port at once, a Jarisk port for a source on this device once the
ranks of its set have answered (R249 step 5, R319 step 3, R345). A notice with REM = 1 goes to no other rank (log entry 80). -/
def rbkAt (i t a : Nat) (s : State) : SyncUnit → State
  | .cluster c => syncOut (epCluster c.val) 8 i t a (clusterRbk c.val (argRem a) (argRank a) (argScl a) t s)
  | .node _ => s
  | .jlk p => if argRem a then syncOut (epJlk p.val) 8 i t a s else rbkPort i (argScl a) t s p.val
  | .host => syncOut 0x11 8 i t a (if argRem a then s else egressRbk i (argScl a) t 0 s)
  | .eth p => syncOut (0x12 + p.val) 8 i t a (if argRem a then s else egressRbk i (argScl a) t (1 + p.val) s)
/-- The run of a notice. -/
def rbkIs (i t a : Nat) (r : RbkRun) : Bool := r.inst == i && r.step == t && r.rem == argRem a && r.rank == argRank a && r.scl == argScl a
/-- SYNC_RBK (R249 steps 4 and 5, R319, R345): the root broadcasts a rollback notice and waits for the answers. -/
def execSyncRbk (w0 w1 : DWord) (s : State) : Res :=
  ok (onSync 7 w0 w1 (fun i t a s =>
    let l := rbkUnits i s
    let s := s.setNet { s.net with rbks := s.net.rbks.filter (fun r => !rbkIs i t a r) ++ [⟨i, argRem a, argRank a, argScl a, t, l⟩] }
    l.foldl (rbkAt i t a) s) s)
/-- SYNC_RBK_ACK (R248, R249 step 6): the answer of unit `u` is combined; the last goes to the rewinding cluster agent, or back over the link that
brought the notice. -/
def execSyncRbkAck (u : SyncUnit) (w0 w1 : DWord) (s : State) : Res :=
  ok (onSync 8 w0 w1 (fun i t a s =>
    match s.net.rbks.find? fun r => rbkIs i t a r && r.wait.contains u with
    | none => s
    | some r =>
      let left := r.wait.filter (· != u)
      let rest := s.net.rbks.filter (· != r)
      let s := s.setNet { s.net with rbks := if left = [] then rest else rest ++ [{ r with wait := left }] }
      let s := nodesUp u left 8 i t a s
      if left ≠ [] then s
      else if r.rem then (List.range 12).foldl (fun s p => rbkReturn i r.rank r.scl t s p) s
      else rbkRelease r.scl t (syncOut syRoot 8 i t a s)) s)

/-! Bindings (R342) -/

/-- Keys of the egress bindings in force but the one of host binding `h` or event port `p`. -/
def otherKeys (h p : Option Nat) (s : State) : List Nat :=
  let s := match h with
    | some i => s.fs (HOST_EGR i) HOST_EGR.VALID 0
    | none => s
  let s := match p with
    | some n => s.fs (ETH_EGR_DST n) ETH_EGR_DST.VALID 0
    | none => s
  (egressKeys s).map (·.1)
/-- A write of HOST_EGR_i (R342, R364). -/
def writeHostEgr (q : Req) (i v : Nat) (s : State) : State :=
  onInst q i true false (fun s =>
    if isVf q && bit v 15 then s.done q cREFUSED [] false
    else if bits v 16 8 = 0 ∨ (bit v 31 ∧ (otherKeys (some i) none s).contains (4096 * i + bits v 0 12)) then s.done q cBAD_ARG [] false
    else
      let s := s.wrFlds (HOST_EGR i) v [HOST_EGR.RANK, HOST_EGR.RING, HOST_EGR.FNPF, HOST_EGR.MAXK, HOST_EGR.HOLD, HOST_EGR.VALID]
      (egrGo 0 (refreshMap (if bit v 31 then activate i s else s))).done q cOK [] false) s
/-- Who reaches the window of event port `p`: its owner, beside the physical function and the management processor; a load holds the
ports of its instance (R364, Table 11-5 step 3). -/
def onEth (q : Req) (p : Nat) (write : Bool) (f : State → State) (s : State) (bad : Bool := false) : State := s.gate q 11 fun s =>
  let own := s.fb (ETH_OWN p) ETH_OWN.VALID
  let i := s.fv (ETH_OWN p) ETH_OWN.INST
  let mine := match q with
    | .vf v => own && i == v.val
    | _ => true
  if !mine || (isVf q && s.dev.fusedEth.contains p) then s.cross q
  else s.late q (s.dev.fusedEth.contains p) bad (write && own && loading i s) f
/-- A write of ETH_EGR_DST (R342, R356). -/
def writeEthEgrDst (q : Req) (p v : Nat) (s : State) : State :=
  onEth q p true (fun s =>
    let own := s.fb (ETH_OWN p) ETH_OWN.VALID
    let i := s.fv (ETH_OWN p) ETH_OWN.INST
    if own && s.conf i && !isVf q then s.cross q
    else if bit v 31 ∧ (s.fv (ETH_EGR p) ETH_EGR.TPL_LEN + 32 + 8 * s.fv (ETH_EGR p) ETH_EGR.MAXREC > 9212
        ∨ (own ∧ (otherKeys none (some p) s).contains (4096 * i + bits v 16 12))) then s.done q cBAD_ARG [] false
    else
      let s := s.wrFlds (ETH_EGR_DST p) v [ETH_EGR_DST.L3OFS, ETH_EGR_DST.L4OFS, ETH_EGR_DST.RANK, ETH_EGR_DST.VALID]
      (refreshMap (if own && bit v 31 then activate i s else s)).done q cOK [] false) s
/-- EGRESS_BIND (R342): HOST_EGR of an instance, or ETH_EGR_DST of an event port, written with VALID = 1. -/
def execEgressBind (q : Req) (b : EgrBind) (v : Word) (s : State) : Res :=
  match b with
  | .host i => ok (writeHostEgr q i.val (setBits v.toNat 31 1 1) s)
  | .eth p => ok (writeEthEgrDst q p.val (setBits v.toNat 31 1 1) s)

/-! Counters -/

/-- A write of HOST_CNT_CLR (R364). -/
def writeHostCntClr (q : Req) (v : Nat) (s : State) : State :=
  onDev q (fun s => (if bit v 0 then (List.range 17).foldl (fun s f => s.resetRegs (HOST_EV_BAD f) 0x20) s else s).done q cOK [] false) s
/-- HOST_CNT_CLR (R364). -/
def execHostCntClr (q : Req) (v : Word) (s : State) : Res := ok (writeHostCntClr q v.toNat s)
/-- A write of ETH_CNT_CLR (R364). -/
def writeEthCntClr (q : Req) (p v : Nat) (s : State) : State :=
  onEth q p true (fun s => (if bit v 0 then s.resetRegs (ETH_RX_FRAMES p) 0x44 else s).done q cOK [] false) s
/-- ETH_CNT_CLR (R364). -/
def execEthCntClr (q : Req) (p : EPort) (v : Word) (s : State) : Res := ok (writeEthCntClr q p.val v.toNat s)

end Sys2Proof.Machine
end

