-- ==== Sys2Proof/Machine/Eth.lean ====
section
/-! DEFINITION. The Ethernet event ports (R346–R354), module memory windows (R358–R360) and the bulk engines (R361–R363). -/
namespace Sys2Proof.Machine

/-! Receiving frames (R346, R347) -/

/-- Bytes in the receive buffer. -/
def rxLevel (p : Nat) (s : State) : Nat := (s.eth p).rx.foldl (fun n f => n + f.1.length) 0
/-- The port sends a PAUSE frame. -/
def sendPause (p quanta : Nat) (s : State) : State := (s.emit (.pause p quanta)).inc (ETH_PAUSE_TX p) 1
/-- PAUSE follows the level of the receive buffer (R347). -/
def ethLevel (p : Nat) (s : State) : State :=
  let x := s.eth p
  let n := rxLevel p s
  if s.fb (ETH_CTRL p) ETH_CTRL.PTX = false then s
  else if !x.xoff && decide (n > s.fv (ETH_PAUSE p) ETH_PAUSE.XOFF * 1024) then sendPause p 0xFFFF (s.setEth p { x with xoff := true })
  else if x.xoff && decide (n < s.fv (ETH_PAUSE p) ETH_PAUSE.XON * 1024) then sendPause p 0 (s.setEth p { x with xoff := false })
  else s
/-- Big-endian value of `n` bytes of a frame at `o`. -/
def frBE (b : List Byte) (o n : Nat) : Nat := beNat ((b.drop o).take n)
/-- The address filter (Table 10-7). -/
def ethPass (p : Nat) (b : List Byte) (s : State) : Bool :=
  let d := frBE b 0 6
  s.fb (ETH_CTRL p) ETH_CTRL.PROMISC || (d == 0xFFFFFFFFFFFF && s.fb (ETH_CTRL p) ETH_CTRL.BCAST) ||
    (List.range 8).any fun n => s.fb (ETH_MAC p n) ETH_MAC.VALID && s.fv (ETH_MAC p n) ETH_MAC.MAC == d && !(d / 2 ^ 40).testBit 0
/-- Offset of the EtherType, after up to two VLAN tags, and how many tags. -/
def frType (b : List Byte) : Nat × Nat :=
  let tag := fun o => frBE b o 2 == 0x8100 || frBE b o 2 == 0x88A8
  if tag 12 then (if tag 16 then (20, 2) else (16, 1)) else (12, 0)
/-- The protocol behind an IPv6 header: next header, its offset, none when the chain is not followed; whether a fragment. -/
def v6Chain (b : List Byte) : Nat → Nat → Nat → Option Nat × Nat × Bool
  | n, nh, o =>
    if nh = 44 then (none, o, true)
    else if nh = 0 ∨ nh = 43 ∨ nh = 60 then
      match n with
      | 0 => (none, o, false)
      | k + 1 => v6Chain b k (b.getD o 0).toNat (o + 8 * ((b.getD (o + 1) 0).toNat + 1))
    else if nh = 50 ∨ nh = 51 ∨ nh = 135 ∨ nh = 139 ∨ nh = 140 ∨ nh = 253 ∨ nh = 254 then (none, o, false)
    else (some nh, o, false)
/-- Frame metadata (Table 10-8): bases L2, L3, L4, PL and FLAGS without TRUNC. -/
structure FrMeta where
  l3 : Option Nat
  l4 : Option Nat
  pl : Option Nat
  flags : Nat
deriving DecidableEq, Repr
/-- The parser (R348). -/
def frParse (b : List Byte) : FrMeta :=
  let (t, vl) := frType b
  let ty := frBE b t 2
  let o := t + 2
  let v4 := ty == 0x0800
  let v6 := ty == 0x86DD
  let ihl := 4 * ((b.getD o 0).toNat % 16)
  let (proto, l4, frag) : Option Nat × Nat × Bool :=
    if v4 then
      let f := frBE b (o + 6) 2
      let fr := f % 0x2000 != 0 || f.testBit 13
      (if fr then none else some (b.getD (o + 9) 0).toNat, o + ihl, fr)
    else if v6 then v6Chain b 2 (b.getD (o + 6) 0).toNat (o + 40)
    else (none, o, false)
  let ok3 := v6 || (v4 && csum16 (sum16 ((b.drop o).take ihl)) == 0)
  let tcp := proto == some 6
  let udp := proto == some 17
  let icmp := (v4 && proto == some 1) || (v6 && proto == some 58)
  let d := frBE b 0 6
  let bc := d == 0xFFFFFFFFFFFF
  let mc := (d / 2 ^ 40).testBit 0 && !bc
  ⟨if v4 || v6 then some o else none, if proto.isSome then some l4 else none,
    if tcp then some (l4 + 4 * ((b.getD (l4 + 12) 0).toNat / 16)) else if udp then some (l4 + 8) else none,
    b2n (vl ≥ 1) + b2n (vl ≥ 2) * 2 + b2n v4 * 4 + b2n v6 * 8 + b2n tcp * 16 + b2n udp * 32 + b2n frag * 64 + b2n ok3 * 128 + b2n mc * 256
      + b2n bc * 512 + b2n icmp * 2048⟩
/-- A PTP frame: EtherType 0x88F7, or UDP port 319 or 320. -/
def isPtp (b : List Byte) : Bool :=
  frBE b (frType b).1 2 == 0x88F7 || (match (frParse b).l4 with
    | some o => (frParse b).flags.testBit 5 && (frBE b (o + 2) 2 == 319 || frBE b (o + 2) 2 == 320)
    | none => false)
/-- ETH_FRAME_RECEIVE (R346, R347): a frame without its FCS, whether the FCS is good, and TIME64 at its start. -/
def execEthFrameReceive (p : EPort) (frame : List Byte) (fcs : Bool) (ts : DWord) (s : State) : Res :=
  let n := p.val
  if s.fb (ETH_CTRL n) ETH_CTRL.EN = false ∨ s.fb (ETH_STATUS n) ETH_STATUS.UP = false then ok s
  else if frame.length + 4 < 64 ∨ fcs = false then ok (s.inc (ETH_RX_FCS n) 1)
  else if frame.length + 4 > 9216 then ok (s.inc (ETH_RX_LONG n) 1)
  else
    let s := (s.inc64 (ETH_RX_FRAMES n) 1).setEth n { s.eth n with frameT := some s.now }
    let s := if isPtp frame && s.fv TIME_CTRL TIME_CTRL.SRC == 1 + n then s.emit (.mgmt 0x88F7 (ts.toNat :: frame.map (·.toNat))) else s
    if ethPass n frame s = false then ok (s.inc (ETH_RX_FILT n) 1)
    else if rxLevel n s + frame.length > 524288 then ok (s.inc (ETH_RX_OVF n) 1)
    else ok (ethLevel n (s.setEth n { s.eth n with rx := (s.eth n).rx ++ [(frame, ts.toNat)] }))
/-- ETH_PAUSE_RECEIVE (R346). -/
def execEthPauseReceive (p : EPort) (quanta : BitVec 16) (s : State) : Res :=
  let n := p.val
  if s.fb (ETH_CTRL n) ETH_CTRL.EN && s.fb (ETH_CTRL n) ETH_CTRL.PRX then
    ok (ethGo n (s.fs (ETH_STATUS n) ETH_STATUS.PAUSED (b2n (quanta.toNat != 0))))
  else ok s
/-- PAUSE_QUANTA_EXPIRE (R346). -/
def execPauseQuantaExpire (p : EPort) (s : State) : Res := ok (ethGo p.val (s.fs (ETH_STATUS p.val) ETH_STATUS.PAUSED 0))
/-- PAUSE_REFRESH (R347). -/
def execPauseRefresh (p : EPort) (s : State) : Res :=
  let n := p.val
  ok (if (s.eth n).xoff && decide (rxLevel n s ≥ s.fv (ETH_PAUSE n) ETH_PAUSE.XON * 1024) && s.fb (ETH_CTRL n) ETH_CTRL.PTX then sendPause n 0xFFFF s else s)
/-- The link of event port `p` is down. -/
def ethDown (p : Nat) (s : State) : State := (s.fs (ETH_STATUS p) ETH_STATUS.PCSLOCK 0).fs (ETH_STATUS p) ETH_STATUS.UP 0
/-- ETH_LINK_UP (R343): a port with an unsupported transceiver stays down (R504). -/
def execEthLinkUp (p : EPort) (s : State) : Res :=
  let k := ETH_STATUS p.val
  if s.fb (ETH_CTRL p.val) ETH_CTRL.EN ∧ sget (fun _ => 0) p.val s.mgmt.cage ≠ 2 then ok (ethGo p.val ((s.fs k ETH_STATUS.PCSLOCK 1).fs k ETH_STATUS.UP 1)) else ok s
/-- ETH_LINK_DOWN (R343). -/
def execEthLinkDown (p : EPort) (s : State) : Res := ok (ethDown p.val s)

/-! The encoder (R349–R353) -/

/-- Extractor `n`: its value, and whether it sets TRUNC (R349). -/
def extract (p n : Nat) (b : List Byte) (m : FrMeta) (s : State) : Nat × Bool :=
  let k := ETH_FX p n
  if s.fb k ETH_FX.EN = false then (0, false) else
  let base := match s.fv k ETH_FX.BASE with
    | 0 => some 0
    | 1 => m.l3
    | 2 => m.l4
    | _ => m.pl
  let w := s.fv k ETH_FX.WIDTH + 1
  match base with
  | none => (0, true)
  | some o => if o + s.fv k ETH_FX.OFS + w > b.length then (0, true) else (frBE b (o + s.fv k ETH_FX.OFS) w &&& s.rd (ETH_FXM p n), false)

/-- The encoder's registers while a program runs: F0–F15, G0–G7, the flag, what LEN, FLAGS, TSL, TSH and PORT read, the events. -/
structure EncSt where
  fx : List Nat
  g : List Nat
  f : Bool
  env : List Nat
  out : List Nat
  excess : Bool
deriving DecidableEq, Repr
/-- Read a register code. -/
def encRd (x : EncSt) (c : Nat) : Nat :=
  if c < 16 then x.fx.getD c 0 else if c < 24 then x.g.getD (c - 16) 0 else if c = 0x1C then 0 else if c = 0x1D then x.env.getD 4 0 else x.env.getD (c - 24) 0
/-- Write G0–G7. -/
def encWr (x : EncSt) (c v : Nat) : EncSt := { x with g := x.g.set (c - 16) (v % 2 ^ 32) }
/-- The EVT64 of an EMIT, with HCHK and HPAR (Table 10-9, R352): HPAR in bit 64. -/
def encEvt (d a b dly : Nat) (g : Bool) : Nat :=
  let e := (if g then 2 ^ 60 + b % 2 ^ 16 else b % 2 ^ 22) + d % 4096 * 2 ^ 48 + a % 65536 * 2 ^ 32 + dly * 2 ^ 28
  let c := evtChk e
  setBits e 22 6 c + b2n (c.testBit 6) * 2 ^ 64
/-- One instruction (Table 10-9). -/
def encStep (w : Nat) (x : EncSt) : EncSt :=
  let op := bits w 27 5
  let pr := bits w 25 2
  if (pr = 1 ∧ x.f = false) ∨ (pr = 2 ∧ x.f = true) then x else
  let d := bits w 20 5
  let a := encRd x (bits w 15 5)
  let b := encRd x (bits w 10 5)
  let m := bits w 0 15
  match op with
  | 0x01 => encWr x d (a + b)
  | 0x02 => encWr x d (a + 2 ^ 32 - b)
  | 0x03 => encWr x d (a &&& b)
  | 0x04 => encWr x d (a ||| b)
  | 0x05 => encWr x d (a ^^^ b)
  | 0x06 => encWr x d (a + m)
  | 0x07 => encWr x d (a &&& m)
  | 0x08 => encWr x d (a / 2 ^ (m % 32))
  | 0x09 => encWr x d (a * 2 ^ (m % 32))
  | 0x0A => encWr x d m
  | 0x0B => encWr x d (a ||| (m * 2 ^ 15 % 2 ^ 32))
  | 0x0C => encWr x d (if a < b then a else b)
  | 0x0D => encWr x d (if a < b then b else a)
  | 0x0E => encWr x d (crc32 (leBytes 4 a ++ leBytes 4 b))
  | 0x0F => encWr x d (if a = 0 then 0 else Nat.log2 a + 1)
  | 0x10 => encWr x d (if m = 0 then 0 else a % m)
  | 0x11 => { x with f := decide (a = b) }
  | 0x12 => { x with f := decide (a < b) }
  | 0x13 => { x with f := decide (a = m) }
  | 0x14 => { x with f := decide (a &&& m ≠ 0) }
  | 0x15 => encWr x d (if x.f then a else b)
  | 0x18 => if x.out.length ≥ 8 then { x with excess := true } else { x with out := x.out ++ [encEvt (encRd x d) a b (bits m 0 4) (bit m 4)] }
  | _ => x
/-- A run of at most 64 instructions from program word `i`. -/
def encRun (prog : Nat → Nat) : Nat → Nat → EncSt → EncSt
  | 0, _, x => x
  | n + 1, i, x =>
    let w := prog i
    if bits w 27 5 = 0x1F ∧ ¬(bits w 25 2 = 1 ∧ x.f = false) ∧ ¬(bits w 25 2 = 2 ∧ x.f = true) then x else encRun prog n (i + 1) (encStep w x)
/-- ENCODER_RUN (R347–R352): the oldest buffered frame. -/
def execEncoderRun (p : EPort) (s : State) : Res :=
  let n := p.val
  match (s.eth n).rx with
  | [] => ok s
  | (b, ts) :: t =>
    let own := ETH_OWN n
    let i := s.fv own ETH_OWN.INST
    let pop := fun (s : State) => ethLevel n (s.setEth n { s.eth n with rx := t })
    if s.fb own ETH_OWN.VALID = false ∨ s.fv (STEP_STATUS i) STEP_STATUS.STATE ≠ 1 then ok (pop (s.inc (ETH_RX_STOPPED n) 1))
    else if s.fb (ETH_ENC_CTRL n) ETH_ENC_CTRL.EN = false then ok s
    else
      let m := frParse b
      let xs := (List.range 16).map fun k => extract n k b m s
      let flags := m.flags + b2n (xs.any (·.2)) * 2 ^ 10
      let hit := (List.range 4).find? fun k => s.fb (ETH_MATCH n k) ETH_MATCH.EN
        && flags &&& s.fv (ETH_MATCH n k) ETH_MATCH.MASK == s.fv (ETH_MATCH n k) ETH_MATCH.VALUE
      match hit with
      | none => ok (pop (s.inc (ETH_ENC_NOMATCH n) 1))
      | some k =>
        let x := encRun (fun j => s.rd (ETH_PROG n j)) 64 (s.fv (ETH_MATCH n k) ETH_MATCH.START)
          ⟨xs.map (·.1), List.replicate 8 0, false, [b.length, flags, ts % 2 ^ 32, ts / 2 ^ 32 % 2 ^ 32, n], [], false⟩
        let s := if x.excess then s.inc (ETH_ENC_EMITMAX n) 1 else s
        ok (pop (x.out.foldl (fun s e => ingress (epPort (13 + n)) i (e % 2 ^ 64) (e.testBit 64) (s.inc64 (ETH_EV_OUT n) 1)) s))

/-- The cause for which one program word fails (R353); 0 none. -/
def encWordBad (w : Nat) : Nat :=
  let op := bits w 27 5
  let d := bits w 20 5
  let a := bits w 15 5
  let b := bits w 10 5
  let m := bits w 0 15
  let bad := fun c => c == 0x1E || c == 0x1F
  let known := op ≤ 0x15 || op == 0x18 || op == 0x1F
  let dst := (1 ≤ op && op ≤ 0x10) || op == 0x15
  let useA := dst && op != 0x0A || (0x11 ≤ op && op ≤ 0x14) || op == 0x18
  let useB := (1 ≤ op && op ≤ 5) || op == 0x0C || op == 0x0D || op == 0x0E || op == 0x11 || op == 0x12 || op == 0x15 || op == 0x18
  if !known || bits w 25 2 == 3 then 3
  else if (dst && !(16 ≤ d && d < 24)) || (op == 0x18 && bad d) || (useA && bad a) || (useB && bad b) then 4
  else if ((op == 8 || op == 9) && bits m 5 10 != 0) || (op == 0x18 && bits m 5 5 != 0) || (op == 0x1F && m != 0) then 5
  else if op == 0x10 && m == 0 then 6
  else 0
/-- The first failure of a program from word `i` with `n` words left: words that precede END are checked in order. -/
def encScan (prog : Nat → Nat) : Nat → Nat → Nat
  | 0, _ => 1
  | n + 1, i =>
    if i ≥ 256 then 2
    else if encWordBad (prog i) ≠ 0 then encWordBad (prog i)
    else if bits (prog i) 27 5 = 0x1F then 0
    else encScan prog n (i + 1)
/-- The first enabled match entry whose program fails: entry and cause. -/
def encCheck (p : Nat) (s : State) : Option (Nat × Nat) :=
  ((List.range 4).filter fun k => s.fb (ETH_MATCH p k) ETH_MATCH.EN).findSome? fun k =>
    let c := encScan (fun j => s.rd (ETH_PROG p j)) 64 (s.fv (ETH_MATCH p k) ETH_MATCH.START)
    if c = 0 then none else some (k, c)
/-- A write of ETH_ENC_CTRL (R353). -/
def writeEncCtrl (q : Req) (p v : Nat) (s : State) : State :=
  onEth q p true (fun s =>
    let k := ETH_ENC_CTRL p
    if bit v 0 = false then (s.fs k ETH_ENC_CTRL.EN 0).done q cOK [] false
    else match encCheck p s with
      | some (m, c) => (((s.fs k ETH_ENC_CTRL.EN 0).fs k ETH_ENC_CTRL.CAUSE c).fs k ETH_ENC_CTRL.MIDX m).done q cBAD_ARG [] false
      | none => (((s.fs k ETH_ENC_CTRL.EN 1).fs k ETH_ENC_CTRL.CAUSE 0).fs k ETH_ENC_CTRL.MIDX 0).done q cOK [] false) s
/-- ENC_ENABLE (R353). -/
def execEncEnable (q : Req) (p : EPort) (v : Word) (s : State) : Res := ok (writeEncCtrl q p.val (setBits v.toNat 0 1 1) s)

/-! Module memory windows (R358–R360) -/

/-- A write of MEMC_WIN_i. -/
def writeMemcWin (q : Req) (i v : Nat) (s : State) : State := s.gate q 10 fun s =>
  let k := MEMC_WIN i
  let was := s.fb k MEMC_WIN.EN
  let b := bits v 0 10
  let n := bits v 16 10
  let en := bit v 31
  let hits := fun (b' n' : Nat) => decide (b < b' + n') && decide (b' < b + n)
  let clash := (List.range 16).any fun j => j != i && s.fb (MEMC_WIN j) MEMC_WIN.EN && hits (s.fv (MEMC_WIN j) MEMC_WIN.BASE) (s.fv (MEMC_WIN j) MEMC_WIN.LEN)
  let stage := match s.dev.srcLock with
    | some (_, _, none) => hits 0x1FC 4
    | _ => false
  if isVf q then (match q with
    | .vf j => if j.val = i then s.done q cREFUSED [] false else s.cross q
    | _ => s)
  else if s.conf i then s.cross q
  else if was && (b != s.fv k MEMC_WIN.BASE || n != s.fv k MEMC_WIN.LEN) then s.done q cREFUSED [] false
  else if en && !was && stage then s.done q cREFUSED [] false
  else if en && (decide (n = 0 ∨ n > 512 ∨ b + n > 512) || clash) then s.done q cBAD_ARG [] false
  else if resetting i s || loading i s then s.done q cRETRY [] false
  else
    let m := s.memc
    let s := s.wrFlds k v [MEMC_WIN.BASE, MEMC_WIN.LEN, MEMC_WIN.EN]
    let s := if en && !was then { s with memc := { m with keys := sset (fun _ => 0) i m.nextKey m.keys, nextKey := m.nextKey + 1 } }
      else if was && !en then { s with memc := { m with keys := serase i m.keys } } else s
    (if en then activate i s else s).done q cOK [] false
/-- MEMC_WIN_WRITE (R358). -/
def execMemcWinWrite (q : Req) (i : InstNo) (v : Word) (s : State) : Res := ok (writeMemcWin q i.val v.toNat s)
/-- A write of MEMC_SCRUB_i (R360). -/
def writeMemcScrub (q : Req) (i v : Nat) (s : State) : State := s.gate q 10 fun s =>
  let k := MEMC_SCRUB i
  if isVf q then s.cross q
  else if bit v 0 = false then s.done q cOK [] false
  else if s.conf i then s.cross q
  else if s.fb (MEMC_WIN i) MEMC_WIN.EN = false then s.done q cBAD_ARG [] false
  else if s.fb k MEMC_SCRUB.BUSY then s.done q cRETRY [] false
  else (s.fs k MEMC_SCRUB.BUSY 1).done q cOK [] false
/-- MEMC_SCRUB_GO (R360). -/
def execMemcScrubGo (q : Req) (i : InstNo) (v : Word) (s : State) : Res := ok (writeMemcScrub q i.val (setBits v.toNat 0 1 1) s)
/-- Window `i` holds zeros under its present key. -/
def modZero (i : Nat) (s : State) : State :=
  let m := s.memc
  { s with memc := { m with cells := sclear (s.fv (MEMC_WIN i) MEMC_WIN.BASE * 2 ^ 28) (s.fv (MEMC_WIN i) MEMC_WIN.LEN * 2 ^ 28) m.cells,
                            scrubbed := sget (fun _ => 0) i m.keys :: m.scrubbed } }
/-- MEMC_SCRUB_DONE (R360): the window holds zeros under its key. -/
def execMemcScrubDone (i : InstNo) (s : State) : Res :=
  let k := MEMC_SCRUB i.val
  if s.fb k MEMC_SCRUB.BUSY then
    ok (((modZero i.val s).fs k MEMC_SCRUB.BUSY 0).fs k MEMC_SCRUB.CODE cOK)
  else ok s

/-! Bulk engines (R361–R363) -/

def bkOp (w : List Nat) : Nat := bits (w.getD 0 0) 0 4
def bkSrc (w : List Nat) : Nat := w.getD 2 0 + w.getD 3 0 * 2 ^ 32
def bkDst (w : List Nat) : Nat := w.getD 4 0 + w.getD 5 0 * 2 ^ 32
def bkLen (w : List Nat) : Nat := w.getD 6 0
/-- The source lies in host memory; the source lies in the device; the destination lies in the device. -/
def bkDevSrc (w : List Nat) : Bool := bkOp w == 1 && !bit (w.getD 0 0) 4
def bkDevDst (w : List Nat) : Bool := !bit (w.getD 0 0) 5
/-- The regions of Table 1-9: base and end. -/
def memRegions : List (Nat × Nat) :=
  [(0, 0x2000000000), (0x2000000000, 0x4000000000), (0x4000000000, 0x4100000000), (0x4100000000, 0x4120000000), (0x4120000000, 0x4200000000),
   (0x4200000000, 0x4202000000), (0x4202000000, 0x4300000000), (0x4300000000, 0x4400000000), (0x4400000000, 0x1000000000000)]
/-- The first code other than OK that reading the range for instance `i` would meet on the present state. -/
def rangeCode (i : InstNo) (a n : Nat) (s : State) : Nat :=
  ((pieces 256 a n).findSome? fun p =>
    let c := (winAccess (.vf i) (a + p.1) (.rd p.2) s).1
    if c = cREFUSED ∨ c = cDRAINING then some c else none).getD cOK
/-- Admission of a descriptor of generation `g` (R361 steps 1 and 2). -/
def bkAdmit (i : InstNo) (g : Nat) (w : List Nat) (s : State) : Nat :=
  let sides := (if bkDevSrc w then [bkSrc w] else []) ++ (if bkDevDst w then [bkDst w] else [])
  let rsv := bits (w.getD 0 0) 8 8 != 0 || bits (w.getD 1 0) 12 20 != 0 || (List.range 7).any (fun k => w.getD (8 + k) 0 != 0) || bits (w.getD 15 0) 0 16 != 0
  let codes := sides.map fun a => rangeCode i a (bkLen w) s
  if crc16 ((wordBytes w).take 62) ≠ bits (w.getD 15 0) 16 16 then cCHECK_FAIL
  else if rsv || bkOp w == 0 || bkOp w > 2 || bkLen w == 0 || sides.any (fun a => !memRegions.any fun r => r.1 ≤ a && a + bkLen w ≤ r.2) then cBAD_ARG
  else if codes.contains cREFUSED then cREFUSED
  else if g ≠ s.gen i.val then cSTALE_GEN
  else if resetting i.val s || (decide (s.devState = dsDraining) && decide (s.fv MGT_ATTN_STAT MGT_ATTN_STAT.PHASE ≥ 5)) || codes.contains cDRAINING then cDRAINING
  else cOK
/-- A completion goes to the BC ring of the BK ring, when asked for or on a failure (R361 step 5). -/
def bkDone (j : BulkJob) (code moved : Nat) (s : State) : State :=
  let w := j.words.getD 0 0
  if code = cOK ∧ bit w 6 = false then s else
  let r := 8 * j.fn + s.fv (rgCfg (8 * j.fn + j.ring)) RING_CFG.CRING
  let e : RingEnt := ⟨code + j.inst * 2 ^ 8 + j.gen * 2 ^ 12 + j.ring * 2 ^ 20 + bits w 16 16 * 2 ^ 32, moved % 2 ^ 32, none⟩
  rgGo r (s.setRing r { s.ring r with pend := (s.ring r).pend ++ [e] })
/-- The instance of a descriptor. -/
def BulkJob.who (j : BulkJob) : InstNo := ⟨j.inst % 16, Nat.mod_lt _ (by decide)⟩
/-- Descriptors that may start now: the first of each BK ring, unless its FENCE waits for earlier ones of the ring that run (R361). -/
def bkReady (s : State) : List BulkJob :=
  let same := fun (a b : BulkJob) => a.fn == b.fn && a.ring == b.ring
  s.host.bkq.filter fun j => s.host.bkq.find? (same j) == some j && !(bit (j.words.getD 0 0) 7 && s.host.jobs.any (same j))
/-- The descriptor that a free engine takes next: deficit round robin across the instances (R362). -/
def bkPick (s : State) : Option (BulkJob × SMap Nat) :=
  let l := bkReady s
  let heads : List NUnit := (List.range 16).filterMap fun i =>
    if l.any fun j => j.inst == i then some { hdr := 0, body := [], vc := 2, flow := i, n := 1, inl := 0 } else none
  let w := fun f => flowWeight f s
  let cost := heads.foldl (fun a u => if w u.flow > a then w u.flow else a) 1
  match drrGo w cost 2 heads 340 (s.host.bkLast + 1) (s.host.bkDfc.filter fun e => heads.any fun u => 64 + u.flow == e.1) with
  | none => none
  | some (u, d) => (l.find? fun j => j.inst == u.flow).map fun j => (j, d)
/-- An engine takes descriptor `j`: refused ones complete at once (R361 steps 1 and 2). -/
def bkBegin (j : BulkJob) (s : State) : State :=
  let code := bkAdmit j.who j.gen j.words s
  if code ≠ cOK then bkDone j code 0 s else { s with host := { s.host with jobs := s.host.jobs ++ [j] } }
/-- The dispatcher hands descriptors to free engines (R362). -/
def bkGo : Nat → State → State
  | 0, s => s
  | n + 1, s =>
    if s.host.jobs.length ≥ 16 then s else
    match bkPick s with
    | none => s
    | some (j, d) => bkGo n (bkBegin j { s with host := { s.host with bkq := s.host.bkq.erase j, bkDfc := d, bkLast := j.inst } })
/-- BULK_DESC_START (R361, R362): the next descriptor of a BK ring as host memory holds it is fetched with the generation of its instance,
and free engines take what is ready. -/
def execBulkDescStart (f : Fin 17) (k : Fin 8) (words : List Word) (s : State) : Res :=
  let r := 8 * f.val + k.val
  let w := words.map (·.toNat)
  if rgOn r tyBK s = false ∨ s.rd (rgD r) = s.rd (rgH r) then ok s
  else
    let i : InstNo := match fnReq f with
      | .vf i => i
      | _ => ⟨bits (w.getD 1 0) 0 4 % 16, Nat.mod_lt _ (by decide)⟩
    let s := rgTake r s
    let s : State := { s with host := { s.host with bkq := s.host.bkq ++ [⟨f.val, k.val, i.val, s.gen i.val, w⟩] } }
    ok (bkGo s.host.bkq.length s)

/-- Pieces that lie within one aligned 256-byte block at both ends. -/
def movePieces (a b n : Nat) : List (Nat × Nat) :=
  (pieces 256 a n).flatMap fun p => (pieces 256 (b + p.1) p.2).map fun y => (p.1 + y.1, y.2)
/-- What a move reads and writes: `host` holds the bytes read from the host, `bad` the number of bytes after which the host side fails, or with
`ue` the repeated read of module memory (R357); the code, the bytes moved, the state. -/
def bkMove (fn : Nat) (i : InstNo) (w : List Nat) (host : List Byte) (bad : Option Nat) (ue : Bool) (s : State) : Nat × Nat × State :=
  let fill := bkOp w == 2
  let hostSide := (!fill && !bkDevSrc w) || !bkDevDst w
  (movePieces (if fill then bkDst w else bkSrc w) (bkDst w) (bkLen w)).foldl (fun (t : Nat × Nat × State) p =>
    if t.1 ≠ cOK then t else
    let s := t.2.2
    let broken := hostSide && !(ue && bkDevSrc w) && (match bad with
      | some k => decide (k < p.1 + p.2)
      | none => false)
    if broken then (cABORTED, t.2.1, s.emit (.mgmt 0xAE [fn])) else
    if ue && bkDevSrc w && decide (bkSrc w + p.1 < 0x2000000000 ∧ bad.getD 0 < p.1 + p.2) then (cCHECK_FAIL, t.2.1, s.inc MEMC_LINK_UE 1) else
    let (c, l, s) : WinRes :=
      if fill then (cOK, (List.range p.2).map fun x => BitVec.ofNat 8 (w.getD 7 0 / 2 ^ (8 * ((p.1 + x) % 4))), s)
      else if bkDevSrc w then winAccess (.vf i) (bkSrc w + p.1) (.rd p.2) s
      else (cOK, (List.range p.2).map fun x => host.getD (p.1 + x) 0, s)
    if c ≠ cOK then (c, t.2.1, s) else
    if bkDevDst w then
      let (c, _, s) := winAccess (.vf i) (bkDst w + p.1) (.wr l) s
      (c, if c = cOK then t.2.1 + p.2 else t.2.1, s)
    else (cOK, t.2.1 + p.2, s.emit (.hostWrite fn (bkDst w + p.1) l))) (cOK, 0, s)
/-- BULK_DESC_COMPLETE (R361, R363): the `n`-th running descriptor moves its bytes and completes; one of an old generation moves
nothing and its completion is discarded. -/
def execBulkDescComplete (n : Fin 16) (host : List Byte) (bad : Option Nat) (link : Fin 3) (s : State) : Res :=
  match s.host.jobs[n.val]? with
  | none => ok s
  | some j =>
    let s := { s with host := { s.host with jobs := s.host.jobs.eraseIdx n.val } }
    if j.gen ≠ s.gen j.inst then
      let s := s.inc (HOST_BK_STALE j.fn) 1
      ok (bkGo s.host.bkq.length s)
    else
      let (code, moved, s) := bkMove j.fn j.who j.words host bad (link.val == 2) s
      let mod := (bkDevSrc j.words && decide (bkSrc j.words < 0x2000000000)) || (bkDevDst j.words && decide (bkDst j.words < 0x2000000000))
      let s := if link.val = 1 ∧ mod then s.inc MEMC_LINK_CE 1 else s
      let s := bkDone j code moved s
      ok (bkGo s.host.bkq.length s)

end Sys2Proof.Machine
end

