-- ==== Sys2Proof/Machine/Resets.lean ====
section
/-! DEFINITION. Resets of a core, a cluster, a partition and the management processors (R397–R405) and runtime repair (R409–R411). -/
namespace Sys2Proof.Machine

/-- Scopes of a RESET record, in the order of Table 12-3. -/
def rsCore : Nat := 0
def rsCluster : Nat := 1
def rsPart : Nat := 2
def rsInst : Nat := 3
def rsMgt : Nat := 4
def rsDev : Nat := 5

/-! Core reset -/

/-- Step 3: Table 4-9 for a core or cluster reset. -/
def resetLearn (p : Nat) (s : State) : State :=
  if lrnEn p s = false ∨ (s.segOf p).isNone ∨ ehdrState p s ≠ 0 then s
  else if s.faulted p then setEhdrState p 2 s
  else if s.fb (LRN_CTRL p) LRN_CTRL.CLOSE_ON_RESET then earlyClose p s
  else setEhdrState p 2 s

/-- The step a restore of slot `p` replays: its open step, or the one after its last. -/
def restoreStep (p : Nat) (s : State) : Nat := if (s.core p).phase = .idle then cur p s + 1 else cur p s

/-- A core reset (Table 12-4 steps 1–5). A slot that holds no LCID is only cleared (R399). The step that was open is offered to the core
again when it is released (R85). -/
def coreReset (p : Nat) (restore : Bool) (s : State) : State :=
  let s := clusterWake (p / 32) s
  let x := s.core p
  let off := coreState p s == stOff
  let spare := (s.lcid p).isNone
  let t := restoreStep p s
  let open' := if x.phase = .idle then [] else [cur p s]
  let s := s.inc (CLA_RST_DROP (p / 32)) (x.stgN + x.stgWait.length + pendOcc p s)
  let s := queueReset p s
  let s := s.setCore p { s.core p with holdN := 0, holdHead := 0 }
  let s := if spare then s else resetLearn p s
  let s := (if spare then clearPort p s else clearStatus p (loadShadow s p p (clearPort p s))).clrSram p 0 0x28000
  let s := s.setCore p { heldOpens := open' ++ x.heldOpens, closeFor := x.closeFor, q := { inBuf := (s.core p).q.inBuf, held := (s.core p).q.held } }
  let s := if off then s.fs (CORE_STATE p) CORE_STATE.STATE stOff
    else (s.fs (CORE_STATE p) CORE_STATE.STATE stIdle).fs (CORE_STATE p) CORE_STATE.HALTED 1
  if restore && !spare then (mirRestore p t true s).2 else s

/-- The LCID positions of the slots `l` of cluster `c`. -/
def positions (c : Nat) (l : List Nat) (s : State) : List Nat := l.filterMap fun k => (s.lcid (32 * c + k)).map (· % 16)
/-- A reset of the slots `l` begins: BUSY, HOLD on their positions, and with `whole` no injection. It lasts 3.2 µs, and 3.88 µs more with RESTORE
(Table 12-4; log entry 85). -/
def rstBegin (c : Nat) (l : List Nat) (whole : Bool) (s : State) : State :=
  let s := s.fs (CLA_RST c) CLA_RST.BUSY 1
  let s := (positions c l s).foldl (fun s k => s.fs (CLA_SLOTTAB c k) CLA_SLOTTAB.HOLD 1) s
  let x := s.cluster c
  s.setCluster c { x with noInject := x.noInject || whole,
                          rst := some (1600 + 1940 * b2n (s.fb (CLA_RST c) CLA_RST.RESTORE), l, whole) }
/-- A reset ends (step 6): HOLD is cleared, the events held meanwhile are filed, and CODE holds the result; its RESET record. -/
def rstEnd (c : Nat) (s : State) : State :=
  match (s.cluster c).rst with
  | none => s
  | some (_, l, whole) =>
    let x := s.cluster c
    let live := match x.rewind with
      | some r => r.live
      | none => false
    let s := s.setCluster c { x with rst := none, noInject := if whole then live || s.dev.drainCl.contains c else x.noInject }
    let ks := positions c l s
    let s := if live then s else ks.foldl (fun s k => s.fs (CLA_SLOTTAB c k) CLA_SLOTTAB.HOLD 0) s
    let s := (s.fs (CLA_RST c) CLA_RST.BUSY 0).fs (CLA_RST c) CLA_RST.CODE cOK
    let s := s.log 0x02 (s.clInst c) [if whole then rsCluster else rsCore, s.rd (CLA_RST c)]
    ks.foldl (fun s k => takeFrom c k s) s
/-- One TCLK cycle of the resets that run. -/
def rstTick (s : State) : State :=
  s.clusters.foldl (fun s y =>
    match (s.cluster y.1).rst with
    | none => s
    | some (n, l, w) =>
      if n ≤ 1 then rstEnd y.1 s else s.setCluster y.1 { s.cluster y.1 with rst := some (n - 1, l, w) }) s

/-! Cluster reset -/

/-- What the router of cluster `c` has accepted and not sent is lost: each event is counted at `k`, and counted as delivered. -/
def dropInj (c k : Nat) (s : State) : State :=
  let l := (s.cluster c).inj
  (l.filter fun x => x.1 != injFence).foldl (fun s x => countGone (epCluster c) x.2.2 (bits x.2.1 18 4) false 0 (s.inc k 1))
    (s.setCluster c { s.cluster c with inj := [] })
/-- The cluster has failed: CLSTATE 0x2; the events that wait in it are unroutable (R220, R417). -/
def clusterDead (c : Nat) (s : State) : State :=
  if (s.cluster c).dead then s else
  let s := dropInj c DNET_UNROUTE (dropQueues c (fun _ s => s.inc DNET_UNROUTE 1) s)
  let s := (clSlots c).foldl (fun s p => (queueGone p s).setCore p {}) s
  let s := s.setCluster c { s.cluster c with dead := true, rewind := none, migrate := none, journal := [], rst := none }
  (fpmRewrite [c] [] s).log 0x0E none [c]
/-- The same under R394 or R408: counted in CLFAIL. -/
def clusterFail (c : Nat) (s : State) : State :=
  if (s.cluster c).dead then s else
  (clusterDead c s).fs MGT_BOOT_STAT MGT_BOOT_STAT.CLFAIL (satU 8 (s.fv MGT_BOOT_STAT MGT_BOOT_STAT.CLFAIL + 1))

/-- A rewind that was running ends as a failure (R400 step 3); the map shows what it had changed (R36). -/
def rewindFails (c : Nat) (s : State) : State :=
  match (s.cluster c).rewind with
  | none => s
  | some r =>
    let i := s.clInst c
    (fpmRewrite [c] [] (s.setCluster c { s.cluster c with rewind := none })).fault
      (frec 1 2 c r.slot r.lcid (i.getD 0) r.flags r.step r.cause r.tdet (satU 32 (s.now - r.tdet)) r.refiled r.lostq) i

/-- Runtime spares of an array (Table 12-7). -/
def arrSpares : RepArr → Nat
  | .slice _ _ => 1
  | _ => 2
def arrCl : RepArr → Option Nat
  | .sram c _ _ => some c.val
  | .seg c _ _ => some c.val
  | .jrn c _ => some c.val
  | .slice _ _ => none
  | .mgmt _ => none
def sparesUsed (a : RepArr) (s : State) : Nat := ((s.pers.spares.find? fun x => x.1 == a).map (·.2)).getD 0
/-- CLA_REP_STAT counts the spares the log records for cluster `c` and its arrays that had none left (R407). -/
def showRep (c : Nat) (s : State) : State :=
  let n := ((s.pers.spares.filter fun x => arrCl x.1 == some c).map (·.2)).sum
  (s.fs (CLA_REP_STAT c) CLA_REP_STAT.USED (satU 8 n)).fs (CLA_REP_STAT c) CLA_REP_STAT.EXH
    (satU 8 (s.mgmt.exh.filter fun x => arrCl x == some c).length)

/-- The cluster agent's own registers return to reset (Table 12-3); a repair it was copying ends, and it applies the recorded
spares again (R407). -/
def agentReset (c : Nat) (s : State) : State :=
  let b := base_cla c
  let s := { s with mgmt := { s.mgmt with
    repair := s.mgmt.repair.filter (fun x => arrCl x != some c)
    exh := s.mgmt.exh.filter (fun x => arrCl x != some c) } }
  let s := ((s.resetRegs (b + 0x600) 4).resetRegs (b + 0x680) 4).resetRegs (b + 0x700) 4
  showRep c (s.resetRegs (b + 0x800) 4)

/-- A cluster reset begins (R400 steps 1–4): `bad` when the agent never takes its image again. -/
def clusterReset (c : Nat) (bad : Bool) (s : State) : State :=
  let restore := s.fb (CLA_RST c) CLA_RST.RESTORE
  let s := match s.fb (CLA_PWR_CTRL c) CLA_PWR_CTRL.SPARE_OFF, spareSlot c s with
    | true, some k => fpmRewrite [c] [] (s.fs (CORE_STATE (32 * c + k)) CORE_STATE.STATE stIdle)
    | _, _ => s
  let s := agentReset c (clearClaCounters c s)
  let s := (List.range 16).foldl (fun s k => s.fs (CLA_SLOTTAB c k) CLA_SLOTTAB.HOLD 0) (rewindFails c s)
  let x := s.cluster c
  let s := s.setCluster c { x with journal := [], migrate := none, mask := [], noInject := s.dev.drainCl.contains c, expStep := 0 }
  let s := rstBegin c (List.range 17) true s
  let s := s.wr (CLA_JRN_OCC c) 0
  let s := if foState c s = foDegraded then s else setFo c foProtected s
  let s := (clSlots c).foldl (fun s p => if s.slotGone p then s else coreReset p restore s) s
  if bad then clusterFail c s else s

/-- A write of CLA_RST (R398–R400, Table 12-3). -/
def writeClaRst (q : Req) (c v : Nat) (bad : Bool) (s : State) : State :=
  onCluster q c true true false (fun s =>
    let l := (List.range 17).filter (bit v ·)
    if bit v 17 && isVf q then s.done q cREFUSED [] false
    else if !bit v 17 && l.any (fun k => s.slotGone (32 * c + k)) then
      (if isVf q then s.cross q else s.done q cUNSUPPORTED [] false)
      else if (bit v 17 || l != []) && (s.cluster c).rst.isSome then s.done q cRETRY [] false
      else
      let s := s.fs (CLA_RST c) CLA_RST.RESTORE (bits v 19 1)
      let s := if bit v 17 then clusterReset c bad s
        else if l = [] then s
        else l.foldl (fun s k => coreReset (32 * c + k) (bit v 19) s) (rstBegin c l false s)
      s.done q cOK [] false) s
/-- CORE_RESET (R398). -/
def execCoreReset (q : Req) (c : Cl) (v : Word) (s : State) : Res := ok (writeClaRst q c.val (setBits v.toNat 17 1 0) false s)
/-- CLUSTER_RESET (R400). -/
def execClusterReset (q : Req) (c : Cl) (v : Word) (bad : Bool) (s : State) : Res :=
  ok (writeClaRst q c.val (setBits v.toNat 17 1 1) bad s)

/-! Seam of a cluster -/

/-- Clusters of partition `p` (Table 1-2), and of its half-row in its row `r`. -/
def partRow (p r : Nat) : List Nat := (List.range 4).map fun k => (p / 2 * 4 + r) * 8 + p % 2 * 4 + k
def partCls (p : Nat) : List Nat := (List.range 4).flatMap (partRow p)
/-- Present clusters. -/
def present (l : List Nat) (s : State) : List Nat := l.filter fun c => !(s.cluster c).fused
/-- The seam around the clusters of `l` closes (Table 12-5 step 2) or opens. -/
def seam (l : List Nat) (shut : Bool) (s : State) : State :=
  let d := s.dev.drainCl.filter fun c => !l.contains c
  let s := { s with dev := { s.dev with drainCl := if shut then d ++ l else d } }
  l.foldl (fun s c => s.setCluster c { s.cluster c with noInject := shut }) s
/-- An instance that holds a cluster of `l` is not stopped. -/
def anyStepping (l : List Nat) (s : State) : Bool :=
  l.any fun c => match s.clInst c with
    | some i => stepState i s != stStopped
    | none => false

/-- A bulk job moves bytes of the `n` bytes from `a`. -/
def jobTouches (a n : Nat) (j : BulkJob) : Bool :=
  (bkDevSrc j.words && decide (bkSrc j.words < a + n ∧ a < bkSrc j.words + bkLen j.words))
    || (bkDevDst j.words && decide (bkDst j.words < a + n ∧ a < bkDst j.words + bkLen j.words))
/-- Accepted transfers to or from cluster `c` still run (Table 13-7 step 2): entries taken by the engines, requests at the slices,
bulk pieces. -/
def inFlight (c : Nat) (s : State) : Bool :=
  (clSlots c).any (fun p => !(s.core p).q.taken.isEmpty)
    || (List.range 64).any (fun x => (s.slice x).queue.any fun r => r.1.sep.toNat == epCluster c)
    || s.host.jobs.any (fun j => jobTouches (segBase c 0) 0x4000000 j || jobTouches (sramBase (32 * c)) 0x800000 j)

/-- The same, or a write that still waits in an outbound buffer (Table 13-7 step 4). -/
def inFlightOut (c : Nat) (s : State) : Bool := inFlight c s || (clSlots c).any fun p => !(s.core p).q.out.isEmpty

/-- Events that wait at the cores of cluster `c` are discarded, counted, and counted as delivered (Table 12-5 step 2). -/
def dropWaiting (c : Nat) (s : State) : State := dropQueues c (fun _ s => s.inc (CLA_RST_EVT_DROP c) 1) s

/-! Partition reset -/

def rstBusy (p : Nat) (s : State) : Bool := bit (s.fv MGT_RST_STAT MGT_RST_STAT.BUSY) p
/-- A power request for the partition, or for a cluster of it, runs (R427). -/
def pwrBusy (p : Nat) (s : State) : Bool :=
  s.power.reqs.any fun r => r.domain == 0x40 + p || (r.domain < 64 && partOf r.domain == p)

/-- Steps 1 and 2 of Table 12-5. -/
def partStart (p : Nat) (s : State) : State :=
  let st := MGT_RST_STAT
  let s := s.fs st MGT_RST_STAT.BUSY (setBits (s.fv st MGT_RST_STAT.BUSY) p 1 1)
  let s := s.fs st MGT_RST_STAT.ABSORB (setBits (s.fv st MGT_RST_STAT.ABSORB) p 1 0)
  let m := s.mgmt
  seam (present (partCls p) s) true { s with mgmt := { m with rstRep := m.rstRep.filter (·.1 != p), rstAbs := m.rstAbs.filter (· != p) } }

/-! The pattern request being served ends (R378) -/

/-- GLB_DEV_STATE.TRANSIT is 1 while no instance is Loaded (Table 11-7). -/
def transit (s : State) : State :=
  let any := (List.range 16).any fun i => s.fv (PAT_INST i) PAT_INST.STATE == 2
  s.fs GLB_DEV_STATE GLB_DEV_STATE.TRANSIT (b2n !any)
def setPatState (i v : Nat) (s : State) : State := transit (s.fs (PAT_INST i) PAT_INST.STATE v)
/-- The record PATTERN of instance `i` for requester copy `n` (Table 16-5). -/
def patLog (n i : Nat) (s : State) : State :=
  s.log 0x07 (some i) [s.rd (PAT_STAT n), s.rd (PAT_FAIL n), s.rd (PAT_INST_PID i), s.rd (PAT_INST_PID i + 4)]
/-- The loader is free again; PAT_STAT of the requester holds the result. -/
def patEnd (code idx : Nat) (s : State) : State :=
  let who := match s.pat.cur with
    | some r => r.who
    | none => none
  let s := { s with pat := { s.pat with cur := none, image := [], sigOk := false, todo := none }, dev := { s.dev with srcLock := none, loader := false } }
  match who with
  | none => s
  | some n => s.wr (PAT_STAT n) (code * 2 ^ 8 + idx % 65536 * 2 ^ 16)
/-- The request being served fails (only LOAD counts and logs, R378): `loaded` when step 3 was reached, `cause` and `lcid` of PAT_FAIL, section index `idx`. -/
def patFail (loaded : Bool) (code cause lcid idx : Nat) (s : State) : State :=
  match s.pat.cur with
  | none => s
  | some r =>
    let s := if loaded then setPatState r.inst 3 s else s
    let s := if r.op = 0 then s.inc PAT_FAILS 1 else s
    let s := match r.who with
      | some n => s.wr (PAT_FAIL n) (cause % 256 + lcid % 4096 * 2 ^ 8)
      | none => { s with pat := { s.pat with autoFail := true } }
    let s := patEnd code idx s
    if r.op = 0 then patLog (r.who.getD 0) r.inst s else s

/-! Management reset -/

/-- The management processors, the control hub and the loader restart (R403); a load that was not waited for fails (R484). -/
def mgtRestart (s : State) : State :=
  let loaded := match s.pat.cur with
    | some r => s.fv (PAT_INST r.inst) PAT_INST.STATE == 1
    | none => false
  let s := patFail loaded cABORTED 0x0D 0xFFF 0xFFFF s
  let s := { s with mgmt := { s.mgmt with mgtrPend := false }, dev := { s.dev with hubDown := true } }
  (s.fs CLK_STATUS CLK_STATUS.MP_PLL 0).log 0x02 none [rsMgt, s.rd MGT_RST_STAT]

/-- A management register: the physical function, the fabric manager and the management processor reach it. -/
def onMgt (q : Req) (f : State → State) (s : State) : State := s.hub q 0 fun s => if isVf q then s.cross q else f s

/-- A write of MGT_RST_CTRL (R401, R403, R414). -/
def writeRstCtrl (q : Req) (v : Nat) (s : State) : State :=
  onMgt q (fun s =>
    let l := (List.range 4).filter fun p => bit v (4 + p)
    if l.any (fun p => anyStepping (partCls p) s) then s.done q cREFUSED [] false
    else if l.any (fun p => rstBusy p s || pwrBusy p s) then s.done q cRETRY [] false
    else
      let s := (l.foldl (fun s p => partStart p s) s).done q cOK [] false
      let s := if bit v 0 then { s with mgmt := { s.mgmt with devReq := true } } else s
      if bit v 1 then
        (if s.pat.cur.isSome then { s with mgmt := { s.mgmt with mgtrPend := true } } else mgtRestart s)
      else s) s
/-- PARTITION_RESET (R401): a write of MGT_RST_CTRL.PART. -/
def execPartitionReset (q : Req) (v : Word) (s : State) : Res := ok (writeRstCtrl q (bits v.toNat 4 4 * 16) s)
/-- MGT_RESET (R403): a write of MGT_RST_CTRL with MGTR = 1. -/
def execMgtReset (q : Req) (v : Word) (s : State) : Res := ok (writeRstCtrl q (setBits v.toNat 1 1 1) s)
/-- DEVICE_RESET_REQUEST (R414): a write of MGT_RST_CTRL with DEV = 1. -/
def execDeviceResetRequest (q : Req) (v : Word) (s : State) : Res := ok (writeRstCtrl q (setBits v.toNat 0 1 1) s)

/-- PARTITION_DRAIN_TIMEOUT (Table 12-5 step 3): the accepted writes that remain are absorbed. -/
def execPartitionDrainTimeout (p : Fin 4) (s : State) : Res :=
  if rstBusy p.val s = false ∨ s.mgmt.rstAbs.contains p.val then ok s else
  let l := present (partCls p.val) s
  if l.all (fun c => !inFlight c s) then ok s else
  let s := s.fs MGT_RST_STAT MGT_RST_STAT.ABSORB (setBits (s.fv MGT_RST_STAT MGT_RST_STAT.ABSORB) p.val 1 1)
  let s := { s with mgmt := { s.mgmt with rstAbs := p.val :: s.mgmt.rstAbs } }
  ok ((List.range 64).foldl (fun s x => outReset.outAbsorb (fun k => l.contains (k / 32)) x s) s)

/-- PARTITION_RESET_REPORT (Table 12-5 steps 4–6, R27): the half-row of partition `p` in its row `row` has drained, resets its
clusters, opens its seam and reports; the fourth report ends the reset. -/
def execPartitionResetReport (p row : Fin 4) (s : State) : Res :=
  let l := present (partRow p.val row.val) s
  if rstBusy p.val s = false ∨ s.mgmt.rstRep.contains (p.val, row.val) then ok s
  else if l.any (fun c => inFlight c s || (s.cluster c).inj != []) ∧ s.mgmt.rstAbs.contains p.val = false then ok s else
  let s := l.foldl (fun s c => rstEnd c (clusterReset c false (dropWaiting c s))) s
  let s := seam l false s
  let s := { s with mgmt := { s.mgmt with rstRep := (p.val, row.val) :: s.mgmt.rstRep } }
  if (List.range 4).all (fun r => s.mgmt.rstRep.contains (p.val, r)) then
    let s := s.fs MGT_RST_STAT MGT_RST_STAT.BUSY (setBits (s.fv MGT_RST_STAT MGT_RST_STAT.BUSY) p.val 1 0)
    let s := s.fs MGT_RST_STAT MGT_RST_STAT.CODE cOK
    ok (s.log 0x02 none [rsPart, s.rd MGT_RST_STAT])
  else ok s

/-- MGT_RESET_DONE (R403, R425): the processors run on MPCLK and have taken their roles; the hub admits accesses. -/
def execMgtResetDone (s : State) : Res :=
  if s.dev.hubDown = false ∨ s.mgmt.takeover then ok s else
  ok ({ s with dev := { s.dev with hubDown := false } }.fs CLK_STATUS CLK_STATUS.MP_PLL 1)

/-- MP_EXCEPTION (R404): the store buffer drains; a store of a management processor is a command of its own once it has left the
buffer, so no store remains behind. -/
def execMpException (s : State) : Res := ok s

/-! Runtime repair (R409–R411) -/

/-- An array takes one more runtime spare; the log records it (R408). -/
def useSpare (a : RepArr) (s : State) : State :=
  let n := sparesUsed a s + 1
  let s := { s with pers := { s.pers with spares := (a, n) :: s.pers.spares.filter (fun x => x.1 != a) } }
  match arrCl a with
  | some c => s.fs (CLA_REP_STAT c) CLA_REP_STAT.USED (satU 8 (s.fv (CLA_REP_STAT c) CLA_REP_STAT.USED + 1))
  | none => s
/-- A number for an array in a REPAIR record. -/
def arrCode : RepArr → Nat
  | .sram c k a => c.val + k.val * 2 ^ 8 + a.val * 2 ^ 16
  | .seg c g a => c.val + g.val * 2 ^ 8 + a.val * 2 ^ 16 + 2 ^ 24
  | .jrn c a => c.val + a.val * 2 ^ 16 + 2 * 2 ^ 24
  | .mgmt a => a.val * 2 ^ 16 + 3 * 2 ^ 24
  | .slice x b => x.val + b.val * 2 ^ 16 + 4 * 2 ^ 24

/-- An array needs a runtime spare and has none left (R410). -/
def sparesGone (a : RepArr) (s : State) : State :=
  if s.mgmt.exh.contains a then s else
  let s := { s with mgmt := { s.mgmt with exh := a :: s.mgmt.exh } }
  let s := match arrCl a with
    | some c => s.fs (CLA_REP_STAT c) CLA_REP_STAT.EXH (satU 8 (s.fv (CLA_REP_STAT c) CLA_REP_STAT.EXH + 1))
    | none => s
  let s := match a with
    | .sram c k _ => s.emit (.report (pcid c k) 8)
    | .seg c g _ => s.fs (CLA_SEG_FAILING c.val) CLA_SEG_FAILING.FAIL (s.fv (CLA_SEG_FAILING c.val) CLA_SEG_FAILING.FAIL ||| 2 ^ g.val)
    | _ => s
  s.log 0x0E none [arrCode a, 1]

/-- The repair of array `a` starts to copy (R409). -/
def repairStart (a : RepArr) (s : State) : State :=
  if sparesUsed a s ≥ arrSpares a then sparesGone a s else
  let s := useSpare a s
  let s := { s with mgmt := { s.mgmt with repair := a :: s.mgmt.repair } }
  match arrCl a with
  | some c => s.fs (CLA_REP_STAT c) CLA_REP_STAT.BUSY 1
  | none => s
/-- RUNTIME_REPAIR_START (R409–R411): a column of array `a` has had THR corrected errors; `inFetch` when a management array holds
the fetch window, so the repair is held; a bank of a shared slice is repaired under R282 instead. -/
def execRuntimeRepairStart (a : RepArr) (inFetch : Bool) (s : State) : Res :=
  if s.mgmt.repair.contains a then ok s else
  match arrCl a with
  | some c => ok (if s.fb (CLA_REP_CTRL c) CLA_REP_CTRL.EN && !s.clGone c then repairStart a s else s)
  | none =>
    if let .slice _ _ := a then ok s else
    let h := s.mgmt.repHeld.filter (· != a)
    if inFetch then ok { s with mgmt := { s.mgmt with repHeld := a :: h } }
    else ok (repairStart a { s with mgmt := { s.mgmt with repHeld := h } })

/-- The copy of a core SRAM array corrects each word that a check covers (R409 step 2). -/
def scrubSram (p a : Nat) (s : State) : State :=
  let lo := sramBase p + 0x4000 * a
  (s.sramSyn.filter fun x => lo ≤ x.1 && x.1 < lo + 0x4000).foldl (fun s x =>
    let o := x.1 - sramBase p
    let w := s.sramW p o
    match sramCause (s.ncomp p) o, secDec 32 w (secEnc 32 w ^^^ x.2) with
    | some _, (some d, _) => s.wrSram p o d
    | _, _ => s) s
/-- The copy of a segment array corrects the entries of the axon table and of the fan-out directory in it. -/
def scrubSeg (c g a : Nat) (s : State) : State :=
  let mine := fun (w : Nat) => w / 0x2000 == a
  match slotOf c g s with
  | none => s
  | some k =>
    let p := 32 * c + k
    let s := (List.range (axtLen p s)).foldl (fun s i => if mine (axnAddr p i s) then (rdAxn p i s).2 else s) s
    (List.range (s.ncomp p)).foldl (fun s i =>
      let w := s.fv (CORE_FOD_BASE p) CORE_FOD_BASE.BASE + 2 * i
      if mine w then (s.segChk p w 32 32 true).2 else s) s

/-- RUNTIME_REPAIR_DONE (R409 step 3). -/
def execRuntimeRepairDone (a : RepArr) (s : State) : Res :=
  if s.mgmt.repair.contains a = false then ok s else
  let s := { s with mgmt := { s.mgmt with repair := s.mgmt.repair.filter (· != a) } }
  let s := match a with
    | .sram c k n => scrubSram (pcid c k) n.val s
    | .seg c g n => scrubSeg c.val g.val n.val s
    | _ => s
  let s := match arrCl a with
    | some c =>
      let more := s.mgmt.repair.any fun x => arrCl x == some c
      (s.inc (CLA_REP_CNT c) 1).fs (CLA_REP_STAT c) CLA_REP_STAT.BUSY (b2n more)
    | none => s
  let s := s.log 0x0E none [arrCode a, 0]
  let p : Option Nat := match a with
    | .sram c k _ => some (pcid c k)
    | .seg c g _ => (slotOf c.val g.val s).map (32 * c.val + ·)
    | _ => none
  let slot := match a with
    | .sram _ k _ => k.val
    | .seg _ g _ => g.val
    | _ => 0
  ok (s.faultAt 3 0 (arrCl a) slot ((p.bind s.lcid).getD 0xFFF) 0 (2 ^ 32 - 1))

end Sys2Proof.Machine
end

