-- ==== Sys2Proof/Machine/Boot.lean ====
section
/-! DEFINITION. Bring-up (R389–R396): what a device reset returns to reset, measured boot, the march test, the assignment of LCIDs,
and the Ready gate's ports. -/
namespace Sys2Proof.Machine

/-! Measurements (R461, R462) -/

def zero48 : List Byte := List.replicate 48 0#8
def measurement (m : Nat) (s : State) : List Byte := sget (fun _ => zero48) m s.sec.meas
def setMeas (m : Nat) (v : List Byte) (s : State) : State := { s with sec := { s.sec with meas := sset (fun _ => zero48) m v s.sec.meas } }
/-- M ← SHA-384(M ‖ D) (R462). -/
def measExtend (m : Nat) (d : List Byte) (s : State) : State := setMeas m (sha384 (measurement m s ++ d)) s
/-- The device configuration measured at index 5 (Table 15-1). -/
def cfgDigest (s : State) : List Byte :=
  let keys := (List.range 8).flatMap fun k => (List.range 25).flatMap fun w => leBytes 4 (s.rd (base_secKey k + 4 * w))
  sha384 (leBytes 4 (s.rd GLB_VARIANT) ++ Config.fuseDigest ++ leBytes 4 (s.rd SEC_CFG) ++ sha384 keys
    ++ leBytes 1 (s.fv SEC_STATUS SEC_STATUS.DBG))
def measCfg (s : State) : State := measExtend 5 (cfgDigest s) s
/-- The image of component `c` that passes its checks: the current one, else the last-known-good one; and whether it is the latter. -/
def fwPick (c : Nat) (b : Boot) (s : State) : Option (FwImg × Bool) :=
  let good := fun (x : Option FwImg) (bad : List (Fin 4)) => match x with
    | some f => if f.svn ≥ minSvn c s && !(bad.any fun n => n.val + 1 == c) then some f else none
    | none => none
  match good (fwCur c s) b.curBad, good (fwLkg c s) b.lkgBad with
  | some f, _ => some (f, false)
  | none, some f => some (f, true)
  | none, none => none
/-- Step 3: the thimble measures each component it accepts (R461). -/
def measuredBoot (b : Boot) (s : State) : State :=
  let picks := [1, 2, 3, 4].map fun c => fwPick c b s
  let s := (picks.zip [1, 2, 3, 4]).foldl (fun s (x : Option (FwImg × Bool) × Nat) => match x.1 with
    | some f => measExtend x.2 f.1.digest s
    | none => s) s
  let svns := picks.flatMap fun x => leBytes 1 ((x.map (·.1.svn)).getD 0)
  let s := measExtend 6 svns (measCfg s)
  let lkg := picks.any fun x => match x with
    | some f => f.2
    | none => false
  (s.fs SEC_STATUS SEC_STATUS.BOOT_OK (b2n (!lkg && picks.all (·.isSome)))).fs SEC_STATUS SEC_STATUS.LKG (b2n lkg)

/-! March test and floor plan -/

/-- A unit failed or went out of service during bring-up (R393). -/
def degraded (b : Bool) (s : State) : State := if b then s.fs MGT_BOOT_STAT MGT_BOOT_STAT.DEGRADED 1 else s
def marchSlot (c k : Nat) (s : State) : State :=
  let x := s.cluster c
  if x.failed.contains k then s else (s.setCluster c { x with failed := x.failed ++ [k] }).log 0x0E none [32 * c + k, 2]
def marchSeg (c g : Nat) (s : State) : State :=
  let x := s.cluster c
  if x.failedSegs.contains g then s else (s.setCluster c { x with failedSegs := x.failedSegs ++ [g] }).log 0x0E none [32 * c + g, 3]
/-- Bank `b` of slice `x` is out of service; the log records it. -/
def bankFails (x b : Nat) (s : State) : State :=
  let s := if s.pers.banks.contains (x, b) then s else { s with pers := { s.pers with banks := (x, b) :: s.pers.banks } }.log 0x0E none [x, b]
  if b < 16 then s.fs (SHM_SL_STAT x) SHM_SL_STAT.BANKOK (setBits (s.fv (SHM_SL_STAT x) SHM_SL_STAT.BANKOK) b 1 0) else s
/-- The unit that holds array `a` fails: the array needs more spares than it has (R408). -/
def unitFails (a : RepArr) (s : State) : State :=
  let s := degraded (s.devState == dsBringup) s
  match a with
  | .sram c k _ => marchSlot c.val k.val s
  | .seg c g _ => marchSeg c.val g.val s
  | .jrn c _ => clusterFail c.val s
  | .slice x b => bankFails x.val b.val s
  | .mgmt _ => s
/-- A column of array `a` fails the march test (R408). -/
def marchArr (s : State) (a : RepArr) : State :=
  if sparesUsed a s ≥ arrSpares a then unitFails a s else
  let s := useSpare a s
  (match arrCl a with
    | some c => s.inc (CLA_REP_CNT c) 1
    | none => s).log 0x0E none [arrCode a, 0]
/-- The march test of R408 in the clusters of `l`; segments are skipped when `segs` is false (R430). -/
def march (m : March) (l : List Nat) (segs : Bool) (s : State) : State :=
  let s := (m.spares.filter fun a => (arrCl a).any l.contains && (segs || !(a matches .seg _ _ _))).foldl marchArr s
  let s := m.slots.foldl (fun s x => if l.contains x.1.val then marchSlot x.1.val x.2.val s else s) s
  let s := if segs then m.segs.foldl (fun s x => if l.contains x.1.val then marchSeg x.1.val x.2.val s else s) s else s
  m.jrns.foldl (fun s c => if l.contains c.val then clusterFail c.val s else s) s

/-- Good slots and good segments of a cluster, in ascending order (R32 steps 2 and 5). -/
def goodSlots (c : Nat) (s : State) : List Nat :=
  (List.range 17).filter fun k => !(s.cluster c).failed.contains k && !(s.cluster c).fusedSlots.contains k
def goodSegs (c : Nat) (s : State) : List Nat :=
  (List.range 17).filter fun k => !(s.cluster c).failedSegs.contains k && !(s.cluster c).fusedSegs.contains k
/-- The pairs of cluster `c`, at most 16, with their positions: slot, segment, position (R32 steps 2 and 3). -/
def pairsOf (c : Nat) (s : State) : List (Nat × Nat × Nat) :=
  if (s.cluster c).dead then [] else (((goodSlots c s).zip (goodSegs c s)).zip (List.range 16)).map fun x => (x.1.1, x.1.2, x.2)
/-- Cluster `c` takes ordinal `n` (R32). -/
def assignCluster (c n : Nat) (s : State) : State :=
  let ps := pairsOf c s
  let s := (List.range 17).foldl (fun s k =>
    let p := 32 * c + k
    let s := match ps.find? fun x => x.1 == k with
      | some x => (s.wr (CLA_SEGMAP c k) (2 ^ 31 + x.2.1)).wr (CORE_ID p) (2 ^ 31 + (16 * n + x.2.2) * 2 ^ 16 + p)
      | none => (s.wr (CLA_SEGMAP c k) 0).wr (CORE_ID p) (0xFFF * 2 ^ 16 + p)
    if (goodSlots c s).contains k then s else s.fs (CORE_STATE p) CORE_STATE.STATE stOff) s
  let s := (List.range 16).foldl (fun s j => s.wr (CLA_SLOTTAB c j) (match ps.find? fun x => x.2.2 == j with
    | some x => 2 ^ 31 + x.1
    | none => 0)) s
  let s := s.fs (CLA_SEGOK c) CLA_SEGOK.OK ((goodSegs c s).foldl (fun v g => v + 2 ^ g) 0)
  let s := s.wr (DNET_BLK n) (if (s.cluster c).dead then 0 else 2 ^ 31 + c)
  refreshSpares c s
/-- LCID_ASSIGNMENT (R32): the present clusters in ascending order; the block entries beyond them are invalid. -/
def assignLcids (s : State) : State :=
  let l := present (List.range 64) s
  let s := (l.zip (List.range 64)).foldl (fun s x => assignCluster x.1 x.2 s) s
  let s := (List.range 64).foldl (fun s n => if n < l.length then s else s.wr (DNET_BLK n) 0) s
  (List.range 64).foldl (fun s c => if (s.cluster c).fused then
    ((List.range 17).foldl (fun s k => ((s.wr (CLA_SEGMAP c k) 0).wr (CORE_ID (32 * c + k)) (0xFFF * 2 ^ 16 + 32 * c + k)).fs (CORE_STATE (32 * c + k)) CORE_STATE.STATE stOff)
      (((s.setClPwr c 3).fs (CLA_SEGOK c) CLA_SEGOK.OK 0).fs (CLA_FO_STAT c) ⟨3, 2, .ro, 0⟩ 0)) else s) s

/-! Bring-up (Table 12-2) -/

/-- The stage reached, and the domains that are on. -/
def bootStage (n on : Nat) (s : State) : State := (s.fs MGT_BOOT_STAT MGT_BOOT_STAT.STAGE n).fs PWR_STATUS PWR_STATUS.ON on
/-- Lanes that failed R391: their spine, or the lane itself, is out of service. -/
def bootLane (s : State) (l : Lane) : State :=
  match l with
  | .spine _ sp =>
    let mask := setBits (s.fv DNET_STATUS DNET_STATUS.SPINE_OK) sp.val 1 0
    s.fs DNET_STATUS DNET_STATUS.SPINE_OK mask
  | _ => s.setNet { s.net with lanesOut := l :: s.net.lanesOut }
/-- The spine map names only spines in service (R240). -/
def bootSpines (s : State) : State :=
  let mask := s.fv DNET_STATUS DNET_STATUS.SPINE_OK
  let m := s.rd64 DNET_SPMAP
  s.wr64 DNET_SPMAP ((List.range 16).foldl (fun v h =>
    let k := bits m (4 * h) 4
    if mask.testBit k then v else setBits v (4 * h) 4 (nextSpine mask k)) m)

/-- Steps 9 to 11: LCIDs, the floor-plan map, module memory, the links' and event ports' domains. -/
def bootEnd (b : Boot) (s : State) : State :=
  let s := fpmRewrite (List.range 64) (List.range 64) ((assignLcids s).wr GLB_FPM_GEN 0)
  let s := bootStage 9 0xF s
  if b.mem then faultHold 5 s else
  let s := bootStage 10 0xF (s.fs MEMC_STATUS MEMC_STATUS.READY 1)
  let s := (List.range 12).foldl (fun s p => if s.dev.fusedJlk.contains p then s else s.fs (JLK_STATUS p) JLK_STATUS.STATE jsDark) s
  alertPin (transit (rasStat (bootStage 11 0x3F s)))
/-- Step 8: agents, repairs, tests and clearing; every memory is 0 already. -/
def bootClusters (b : Boot) (s : State) : State :=
  let l := present (List.range 64) s
  let none4 := (fwPick 4 b s).isNone
  let s := l.foldl (fun s c => if none4 || b.agents.any (fun n => n.val == c) then clusterFail c s else s) s
  let s := march b.march l true (l.foldl (fun s c => showRep c s) s)
  let s := (b.march.spares.filter (· matches .slice _ _)).foldl marchArr s
  let s := (b.banks.map (fun x => (x.1.val, x.2.val)) ++ s.pers.banks).foldl (fun s x => bankFails x.1 x.2 s) s
  let s := degraded (!b.agents.isEmpty || none4 || !b.march.slots.isEmpty || !b.march.segs.isEmpty || !b.march.jrns.isEmpty || !b.banks.isEmpty) s
  if l.all (fun c => (s.cluster c).dead) then faultHold 6 s else bootEnd b (bootStage 8 0xF s)
/-- Steps 3 to 14 as far as they need no peer (R390, R393): the first cause that holds ends in Fault-Hold. -/
def bringUp (b : Boot) (s : State) : State :=
  let s := measuredBoot b (bootStage 2 0 s)
  let s := degraded ([1, 3].any fun c => (fwPick c b s).isNone) s
  if (fwPick 2 b s).isNone then faultHold 1 s else
  let s := bootStage 3 0x9 (s.setDevState dsBringup)
  let s := ((s.fs MGT_MP_STAT MGT_MP_STAT.ACTIVE (b2n b.mpA)).fs MGT_MP_STAT MGT_MP_STAT.A_FAIL (b2n b.mpA)).fs MGT_MP_STAT MGT_MP_STAT.B_FAIL (b2n b.mpB)
  let s := degraded (b.mpA || b.mpB) s
  let mg := b.march.spares.filter (· matches .mgmt _)
  let worn := mg.any fun a => decide (sparesUsed a s + mg.count a > arrSpares a)
  let s := mg.foldl marchArr s
  if worn || b.mpA && b.mpB then faultHold 2 s else
  let s := bootStage 5 0xD (s.wr CLK_STATUS 0xF)
  if b.hub then faultHold 3 s else
  let s := bootSpines (b.lanes.foldl bootLane s)
  let s := degraded (!b.lanes.isEmpty) s
  if popcount (s.fv DNET_STATUS DNET_STATUS.SPINE_OK) 16 < 12 then faultHold 4 (bootStage 5 0xF s) else
  let down := if (fwPick 3 b s).isNone then List.range 8 else b.bands.map (·.val)
  let s := degraded (!down.isEmpty) (s.setNet { s.net with bandsDown := down })
  bootClusters b (bootStage 7 0xF s)

/-- What holds the device in Standby (R432). -/
def standbyHold (s : State) : Bool :=
  !s.pin pinPWR_EN || s.fb PWR_DEV_CTRL PWR_DEV_CTRL.HOLD || !s.power.tempHold.isEmpty
    || (s.fb PWR_FEED_STAT PWR_FEED_STAT.A_OK == false && s.fb PWR_FEED_STAT PWR_FEED_STAT.B_OK == false)

/-- Only AON is on: the thimble has started and the device waits in Standby (R432). -/
def standbyOn (s : State) : State :=
  bootStage 2 0 ({ s with dev := { s.dev with hubDown := true } }.setDevState dsStandby)
/-- A device reset with cause `n` of MGT_RST_CAUSE (R397); in a held Standby the device stays there (R432). -/
def deviceReset (n : Nat) (b : Boot) (s : State) : State :=
  let held := s.devState == dsStandby && standbyHold s
  let s := (wiped false s).fs MGT_RST_CAUSE MGT_RST_CAUSE.CAUSE n
  if held then standbyOn s else
  (bringUp b s).log 0x02 none [rsDev, s.rd MGT_RST_STAT]
/-- The power controller samples SB_ADDR[2:0], which have the levels `a`, as the AON rails become good (R518). -/
def sampleAddr (a : Nat) (s : State) : State :=
  let s := (List.range 3).foldl (fun s n => s.setPin (pinSB_ADDR n) (bit a n)) s
  { s with power := { s.power with sbAddr := 0x58 + a } }
/-- POWER_ON (R390, R518): FEED_A, or FEED_B when `onB`, reaches 40 V, with SB_ADDR at `addr`; a hold stops the sequence in Standby (R432). -/
def execPowerOn (onB : Bool) (addr : Fin 8) (b : Boot) (s : State) : Res :=
  let s := sampleAddr addr.val ((wiped false { s with power := {} }).wr PWR_DEV_CTRL 0)
  let s := s.wr PWR_FEED_STAT (if onB then 6 else 1)
  ok (if standbyHold s then standbyOn s else bringUp b s)
/-- DEVICE_RESET (R397): `cause` as MGT_RST_CAUSE; a reset through MGT_RST_CTRL.DEV begins only when it was requested. -/
def execDeviceReset (cause : Fin 6) (b : Boot) (s : State) : Res :=
  if cause.val = 1 ∧ s.mgmt.devReq = false then ok s else ok (deviceReset cause.val b s)

/-- BOOT_PORT_DARK_TIMEOUT (R395). -/
def execBootPortDarkTimeout (p : JPort) (s : State) : Res :=
  ok (if jState p.val s = jsDark then s.setJp p.val { s.jp p.val with darkDone := true } else s)

/-- The Ready gate holds (R395). -/
def readyGate (s : State) : Bool :=
  s.devState == dsBringup && decide (s.fv MGT_BOOT_STAT MGT_BOOT_STAT.STAGE ≥ 11) &&
  (List.range 12).all fun p => s.dev.fusedJlk.contains p || (jIn p jsUp s || jIn p jsSleep s)
    || (jState p s != jsTrain && jState p s != jsQualify
        && (decide ((s.jp p).fails ≥ s.fv MGT_BOOT_LNK MGT_BOOT_LNK.QFAIL) || (jState p s == jsDark && (s.jp p).darkDone)))

end Sys2Proof.Machine
end

