-- ==== Sys2Proof/Machine/Log.lean ====
section
/-! DEFINITION. The event log (R487–R493): filing, destinations, the volatile ring and the persistent log, captures. -/
namespace Sys2Proof.Machine

/-- Destinations of a record (Table 16-5) as DEST bits: physical function 1, virtual function 2, fabric manager 4, sideband 8,
persistent store 16. -/
def logDest (r : LogRec) : Nat :=
  let vf := if r.inst.isSome then 2 else 0
  match r.typ with
  | 0x01 => 29
  | 0x02 => 9
  | 0x03 => 5
  | 0x04 => 29 + vf
  | 0x05 => 5
  | 0x06 => 25
  | 0x07 => 1 + vf
  | 0x08 => 25
  | 0x09 => 1
  | 0x0A => 5 + (if r.args.headD 9 ≤ 1 ∨ r.args.headD 9 = 6 then vf else 0)
  | 0x0B => 1
  | 0x0C => 29
  | 0x0D => 25
  | 0x0E => 17
  | 0x0F => 9
  | 0xFE => 1
  | 0xFF => 21
  | _ => 1
/-- LOG64 (Table 16-4). -/
def log64 (seq vseq sev dest : Nat) (r : LogRec) : List Nat :=
  let b := (r.args.take 10).map (· % 2 ^ 32)
  let w := [seq, vseq, r.time % 2 ^ 32, r.time / 2 ^ 32 % 2 ^ 32,
    r.typ % 256 + sev % 8 * 2 ^ 8 + dest % 32 * 2 ^ 11 + (r.inst.getD 0) % 16 * 2 ^ 16 + b2n r.inst.isSome * 2 ^ 20 + 4 * b.length * 2 ^ 21]
    ++ b ++ List.replicate (10 - b.length) 0
  w ++ [crc32 (wordBytes w)]

/-- The volatile ring's newest and oldest numbers (R493). -/
def logEnds (s : State) : State :=
  (s.wr LOG_HEAD ((s.mgmt.ring.head?.getD []).headD 0)).wr LOG_TAIL ((s.mgmt.ring.getLast?.getD []).headD 0)
/-- The persistent log takes a record; when its 512 blocks of 1,024 are full, the oldest block is erased first (R491). -/
def persLog (w : List Nat) (s : State) : State :=
  let l := s.pers.log
  let l := if l.length ≥ 524288 then l.take 523264 else l
  { s with pers := { s.pers with log := w :: l } }
/-- New records are signalled to the physical function at most once in 100 µs (R492). -/
def logSignal (s : State) : State :=
  match s.mgmt.msiT with
  | some t => if s.now < t + 100000 then s else ({ s with mgmt := { s.mgmt with msiT := some s.now } }).emit (.msix 0 56)
  | none => ({ s with mgmt := { s.mgmt with msiT := some s.now } }).emit (.msix 0 56)
/-- A numbered record goes to the ring and to its destinations (R489, R492). -/
def logSend (dest : Nat) (inst : Option Nat) (w : List Nat) (s : State) : State :=
  let s := logEnds { s with mgmt := { s.mgmt with ring := (w :: s.mgmt.ring).take 4096 } }
  let s := if bit dest 0 then logSignal s else s
  let s := match inst with
    | some i => if bit dest 1 then s.emit (.msix (i + 1) 7) else s
    | none => s
  let s := if bit dest 3 then s.emit (.mgmt 1 w) else s
  let s := if bit dest 4 then persLog w s else s
  if s.fb LOG_CTRL LOG_CTRL.SYSLOG then s.emit (.mgmt 2 w) else s
/-- Number a record and send it. The severity is a value the spec does not give; it bears on the persistent store only. -/
def logNumber (r : LogRec) (s : State) : State :=
  let (v, s) := s.free
  let sev := v % 5
  let dest := if sev ≥ s.fv LOG_CTRL LOG_CTRL.PMIN then logDest r ||| 16 else logDest r
  let seq := s.mgmt.seq
  let (vs, s) := match r.inst with
    | some i =>
      let n := sget (fun _ => 0) i s.mgmt.vseq
      (n, { s with mgmt := { s.mgmt with vseq := sset (fun _ => 0) i ((n + 1) % 2 ^ 32) s.mgmt.vseq } })
    | none => (0, s)
  logSend dest r.inst (log64 seq vs sev dest r) { s with mgmt := { s.mgmt with seq := (seq + 1) % 2 ^ 32 } }
/-- File one record; the number 0xFFFFFFFF goes to a WRAP record before it (R490). -/
def logFile (r : LogRec) (s : State) : State :=
  let s := if s.mgmt.seq = 0xFFFFFFFF then
      let n := s.pers.wraps + 1
      logNumber ⟨0xFF, none, [n], s.now⟩ { s with pers := { s.pers with wraps := n } }
    else s
  logNumber r s

/-- LOG_POST (R487). -/
def execLogPost (typ : Byte) (inst : Option InstNo) (body : List Word) (s : State) : Res :=
  ok (s.log typ.toNat (inst.map (·.val)) ((body.take 10).map (·.toNat)))
/-- LOG_FILE (R489): the management processor files the oldest record of the input queue; with room again, the hub posts one
OVERFLOW record (R487). -/
def execLogFile (s : State) : Res :=
  match s.logIn with
  | [] => ok s
  | r :: t =>
    if s.dev.hubDown then ok s else
    let s := logFile r { s with logIn := t }
    if s.dev.logLost = 0 then ok s
    else ok ({ s with dev := { s.dev with logLost := 0 } }.log 0xFE none [s.dev.logLost])

/-- The record a requester's selection finds (R493). -/
def logFind (q : Req) (n : Nat) (s : State) : Option (List Nat) :=
  let l := if s.fb (LOG_STAT (reqIx q)) LOG_STAT.SRC then s.pers.log else s.mgmt.ring
  match q with
  | .vf i => (l.find? fun w => w.getD 1 0 == n && bit (w.getD 4 0) 20 && bits (w.getD 4 0) 16 4 == i.val && bit (w.getD 4 0) 12).map
      fun w => 0 :: w.drop 1
  | _ => l.find? fun w => w.headD 0 == n
/-- A write of LOG_SEL. -/
def writeLogSel (q : Req) (v : Nat) (s : State) : State := s.gate q 0 fun s =>
  let n := reqIx q
  let r := logFind q v s
  let s := (List.range 16).foldl (fun s i => s.wr (LOG_DATA n i) ((r.getD []).getD i 0)) s
  (s.fs (LOG_STAT n) LOG_STAT.GONE (b2n r.isNone)).done q cOK [] false
/-- LOG_SELECT (R493). -/
def execLogSelect (q : Req) (v : Word) (s : State) : Res := ok (writeLogSel q v.toNat s)

end Sys2Proof.Machine
end

