-- ==== Sys2Proof/Machine/Power.lean ====
section
/-! DEFINITION. Power, clocks and supplies (chapter 13): Doze, clocks, power requests, Standby, feeds and rails. -/
namespace Sys2Proof.Machine

/-! Doze and wake (R420–R424) -/

/-- A gathering round of slot `p` has contributions (R420). -/
def gathering (p : Nat) (s : State) : Bool := (List.range 4).any fun g => s.fb (Q_GRND p g) Q_GRND.CNT
/-- What has held for DOZE_DLY µs when the cluster agent enters Doze (R420). -/
def dozeReady (c : Nat) (s : State) : Bool :=
  let x := s.cluster c
  s.fb (CLA_PWR_CTRL c) CLA_PWR_CTRL.DOZE_EN && s.clPwr c == 0 && !s.clGone c && x.rewind.isNone && x.rst.isNone
    && x.inj.isEmpty && x.dlv.all (fun y => y.2.isEmpty) && x.spill.isEmpty &&
  (clSlots c).all fun p => (coreState p s == stIdle || coreState p s == stOff) && (s.core p).mac.job.isNone && (s.core p).q.taken.isEmpty
    && (s.core p).q.out.isEmpty && (s.core p).stgN == 0 && (s.core p).phase != .closing && !gathering p s
/-- Table 4-9 for Doze and power-off with CLOSE_ON_DOZE = 1: a close at the last committed step. -/
def dozeClose (p : Nat) (s : State) : State :=
  if lrnEn p s && (s.segOf p).isSome && !s.faulted p && ehdrState p s == 0 && s.fb (LRN_CTRL p) LRN_CTRL.CLOSE_ON_DOZE then earlyClose p s else s
/-- Table 4-9 for power-off with CLOSE_ON_DOZE = 0. -/
def powerVoid (p : Nat) (s : State) : State :=
  if lrnEn p s && (s.segOf p).isSome && ehdrState p s == 0 && !s.fb (LRN_CTRL p) LRN_CTRL.CLOSE_ON_DOZE then setEhdrState p 2 s else s
/-- The PLL of cluster `c` stops. -/
def pllStop (c : Nat) (s : State) : State :=
  { s with power := { s.power with pll := s.power.pll.filter (· != c), swReq := s.power.swReq.filter (· != c) } }
/-- DOZE_ENTRY (R420): `abort` is 1 when a wake source arrives before the PLL has stopped, 2 when it arrives after. -/
def execDozeEntry (c : Cl) (abort : Fin 3) (s : State) : Res :=
  let n := c.val
  if dozeReady n s = false then ok s else
  let s := (clSlots n).foldl (fun s p => dozeClose p s) s
  if abort.val = 1 then ok (s.inc (CLA_PWR_ABORT n) 1) else
  let s := (clSlots n).foldl (fun s p => if coreState p s = stIdle then s.fs (CORE_STATE p) CORE_STATE.STATE stDoze else s) s
  let s := pllStop n ((s.setClPwr n 1).setOsc n false)
  if abort.val = 2 then ok ((clusterWake n s).inc (CLA_PWR_ABORT n) 1) else ok (s.inc (CLA_PWR_DOZES n) 1)
/-- CLUSTER_WAKE (R423): the leaf grants credit again, so the events it holds are taken. -/
def execClusterWake (c : Cl) (s : State) : Res :=
  ok ((List.range 16).foldl (fun s k => takeFrom c.val k s) (clusterWake c.val s))
/-- CLUSTER_PLL_LOCK (R423 steps 4 and 5). -/
def execClusterPllLock (c : Cl) (s : State) : Res :=
  let n := c.val
  if s.clPwr n ≠ 0 ∨ s.fb (CLA_PWR_STAT n) CLA_PWR_STAT.ON_OSC = false then ok s else
  let l := s.power.pll.filter (· != n) ++ [n]
  let r := if s.fb CLK_CTRL CLK_CTRL.AUTOSW then s.power.swReq.filter (· != n) ++ [n] else s.power.swReq
  ok { s with power := { s.power with pll := l, swReq := r } }

/-- A register of the PWR and CLK block (R438). -/
def onPwr (q : Req) (f : State → State) (s : State) : State := s.hub q 2 fun s => if isVf q then s.cross q else f s
/-- A register that only the management processor writes. -/
def onMp (q : Req) (f : State → State) (s : State) : State := onPwr q (fun s => if q == .mp then f s else s.done q cREFUSED [] false) s
/-- A write of CLK_CL_SW (R424). -/
def writeClSw (q : Req) (v : Nat) (s : State) : State :=
  onMp q (fun s =>
    let c := bits v 0 6
    if s.clGone c then s.done q cUNSUPPORTED [] false
    else if s.fb (CLA_PWR_STAT c) CLA_PWR_STAT.ON_OSC = false then s.done q cOK [] false
    else if s.power.pll.contains c = false then s.done q cRETRY [] false
    else { s with power := { s.power with swReq := s.power.swReq.filter (· != c) ++ [c] } }.done q cOK [] false) s
/-- CLK_CL_SW (R424). -/
def execClkClSw (q : Req) (v : Word) (s : State) : Res := ok (writeClSw q v.toNat s)
/-- CLOCK_SWITCH_POINT (R424, R526): the cluster moves to its PLL, and to or from half the clock, where asked. -/
def execClockSwitchPoint (c : Cl) (s : State) : Res :=
  let n := c.val
  let p := s.power
  let s := if p.swReq.contains n && p.pll.contains n then
      ({ s with power := { p with swReq := p.swReq.filter (· != n) } }).setOsc n false else s
  let want := (p.halfReq.find? fun x => x.1 == n).map (·.2)
  let p := s.power
  ok (match want with
    | none => s
    | some v => { s with power := { p with
        half := if v then p.half.filter (· != n) ++ [n] else p.half.filter (· != n)
        halfReq := p.halfReq.filter fun x => x.1 != n } })

/-! Reference clocks (R426, R458) -/

def refFld (r156 : Bool) : Fld := if r156 then CLK_STATUS.REF156_OK else CLK_STATUS.REF100_OK
/-- CLOCK_REF_LOSS (R426): the 156.25 MHz reference when `r156`, else the 100 MHz one. -/
def execClockRefLoss (r156 : Bool) (s : State) : Res :=
  if s.fb CLK_STATUS (refFld r156) = false then ok s else
  let s := s.fs CLK_STATUS (refFld r156) 0
  let both := !s.fb CLK_STATUS (refFld !r156)
  let sel := s.fb CLK_SRC CLK_SRC.SRC == r156
  let s := if sel then s.inc CLK_REF_LOSS 1 else s
  let s := if both then
      (((s.fs CLK_STATUS CLK_STATUS.HOLDOVER 1).fs (ETH_STATUS 0) ETH_STATUS.UP 0).fs (ETH_STATUS 1) ETH_STATUS.UP 0).fs HOST_LINK HOST_LINK.UP 0
    else s
  ok (if sel || both then s.faultAt 0xD (b2n both) none 0 0xFFF (b2n r156) (if both then 2 ^ 32 - 1 else 2000) else s)
/-- CLOCK_REF_RETURN (R426). -/
def execClockRefReturn (r156 : Bool) (s : State) : Res :=
  ok ((s.fs CLK_STATUS (refFld r156) 1).fs CLK_STATUS CLK_STATUS.HOLDOVER 0)

/-! Power requests (R427–R430) -/

/-- Clusters a domain code names. -/
def domCls (d : Nat) : List Nat := if d < 0x40 then [d] else if d < 0x44 then partCls (d - 0x40) else []
def dETH : Nat := 0x48
/-- PWR_REQ_STAT follows the requests that run. -/
def pwrShow (d phase : Nat) (code : Option Nat) (s : State) : State :=
  let s := ((s.fs PWR_REQ_STAT PWR_REQ_STAT.BUSY (b2n !s.power.reqs.isEmpty)).fs PWR_REQ_STAT PWR_REQ_STAT.DOMAIN d).fs PWR_REQ_STAT PWR_REQ_STAT.PHASE phase
  match code with
  | some v => s.fs PWR_REQ_STAT PWR_REQ_STAT.CODE v
  | none => s
def pwrLog (mark : Nat) (s : State) : State := s.log 0x06 none [s.rd PWR_FEED_STAT, s.rd PWR_REQ_STAT, mark]
def pwrOverlap (a b : Nat) : Bool := a == b || (domCls a).any fun c => (domCls b).contains c
/-- The domain is on (R427). -/
def domOn (d : Nat) (s : State) : Bool :=
  if d = dETH then bit (s.fv PWR_STATUS PWR_STATUS.ON) 5 else (present (domCls d) s).all fun c => s.clPwr c < 2
/-- Why a request is not admitted (R427, in the order of R19). -/
def pwrAdmit (d a : Nat) (s : State) : Nat :=
  if (d ≥ 0x44 ∧ d ≠ dETH) ∨ a = 0 ∨ (a = 2 ∧ d = dETH) then cBAD_ARG
  else if anyStepping (domCls d) s ∨ (domCls d).any (fun c => ((s.clInst c).map fun i => resetting i s).getD false)
    ∨ (d = dETH ∧ (s.fb (ETH_CTRL 0) ETH_CTRL.EN ∨ s.fb (ETH_CTRL 1) ETH_CTRL.EN)) then cREFUSED
  else if a = 1 ∧ domOn d s then cBAD_ARG
  else if (d < 0x44 ∧ (present (domCls d) s) = []) ∨ (d = dETH ∧ s.dev.fusedEth.contains 0 ∧ s.dev.fusedEth.contains 1) then cUNSUPPORTED
  else if s.power.reqs.any (fun r => pwrOverlap r.domain d) ∨ (domCls d).any (fun c => rstBusy (partOf c) s) then cRETRY
  else cOK
/-- A write of PWR_REQ. -/
def writePwrReq (q : Req) (v : Nat) (s : State) : State :=
  onPwr q (fun s =>
    let d := bits v 0 7
    let a := bits v 8 2
    let keep := s.wrFlds PWR_REQ v [PWR_REQ.DOMAIN, PWR_REQ.ACTION]
    if bit v 31 = false then keep.done q cOK [] false
    else if pwrAdmit d a s ≠ cOK then s.done q (pwrAdmit d a s) [] false
    else
      let s := keep.done q cOK [] false
      let l := (present (domCls d) s).filter fun c => if a = 1 then s.clPwr c ≥ 2 else s.clPwr c < 2
      let s := { s with power := { s.power with reqs := s.power.reqs ++ [⟨d, a, [], l.filter (fun c => s.clPwr c == 2)⟩] } }
      if a = 1 then pwrShow d 3 none s
      else
        let s := seam l true s
        pwrShow d 1 none (l.foldl (fun s c => (clSlots c).foldl (fun s p => dozeClose p s) s) s)) s
def pwrWord (v a : Nat) : Nat := setBits (setBits v 31 1 1) 8 2 a
/-- PWR_REQ_ON, PWR_REQ_OFF_LOGIC, PWR_REQ_OFF (R427–R430): a write of PWR_REQ with GO = 1. -/
def execPwrReqOn (q : Req) (v : Word) (s : State) : Res := ok (writePwrReq q (pwrWord v.toNat 1) s)
def execPwrReqOffLogic (q : Req) (v : Word) (s : State) : Res := ok (writePwrReq q (pwrWord v.toNat 2) s)
def execPwrReqOff (q : Req) (v : Word) (s : State) : Res := ok (writePwrReq q (pwrWord v.toNat 3) s)

/-- Cluster `c` loses power: state 2 keeps its segments, state 3 loses them (Table 13-3). A cluster leaves these states only
through ON (R419). -/
def clusterOff (c a : Nat) (s : State) : State :=
  if s.clPwr c ≥ 2 then s else
  let s := if a = 2 then (clSlots c).foldl (fun s p => powerVoid p s) s else s
  let s := dropInj c DNET_UNROUTE (dropQueues c (fun _ s => s.inc DNET_UNROUTE 1) s)
  let s := (clSlots c).foldl (fun s p =>
    (((clearPort p s).fs (CORE_STATE p) CORE_STATE.STATE stOff).clrSram p 0 0x28000).setCore p {}) s
  let x := s.cluster c
  let x := { x with journal := [], migrate := none, rewind := none, mask := [], swaps := [], closes := [], opens := [], expStep := 0, rst := none }
  let s := s.setCluster c (if a = 3 then { x with synOff := List.range 17 } else x)
  let s := (agentReset c s).wr (CLA_JRN_OCC c) 0
  let s := if a = 3 then s.clrN (segBase c 0) 0x2200000 else s
  pllStop c ((s.setClPwr c a).setOsc c false)
/-- Table 13-7 steps 5 and 6. -/
def domainOff (r : PwrReq) (s : State) : State :=
  let l := present (domCls r.domain) s
  let s := if r.domain = dETH then
      let s := s.resetRegs 0x500000 0x20000
      ({ s with host := { s.host with eth := [] } }).fs PWR_STATUS PWR_STATUS.ON (setBits (s.fv PWR_STATUS PWR_STATUS.ON) 5 1 0)
    else fpmRewrite l [] (seam l false (l.foldl (fun s c => clusterOff c r.action s) s))
  let s := { s with power := { s.power with reqs := s.power.reqs.filter (· != r) } }
  pwrLog 0 (pwrShow r.domain 0 (some cOK) s)
/-- A half-row of a partition, or the whole domain, in row `row`. -/
def domRow (d row : Nat) (s : State) : List Nat :=
  present (if 0x40 ≤ d ∧ d < 0x44 then partRow (d - 0x40) row else domCls d) s
/-- Record a half-row's report; whether all have reported (R27). -/
def halfDone (r : PwrReq) (row : Nat) (s : State) : Option PwrReq × State :=
  if 0x40 ≤ r.domain ∧ r.domain < 0x44 then
    let r' := { r with halves := if r.halves.contains row then r.halves else row :: r.halves }
    let s := { s with power := { s.power with reqs := s.power.reqs.map fun x => if x == r then r' else x } }
    (if (List.range 4).all r'.halves.contains then some r' else none, s)
  else (some r, s)
/-- Every accepted transfer of cluster `c` has ended, its buffers are empty and no epoch close runs (Table 13-7 steps 3 and 4). -/
def drained (c : Nat) (s : State) : Bool :=
  let x := s.cluster c
  !inFlightOut c s && x.inj.isEmpty && x.dlv.all (fun y => y.2.isEmpty) && x.spill.isEmpty
    && (clSlots c).all fun p => (s.core p).phase != .closing && (s.core p).mac.job.isNone
/-- PWR_DRAIN_END (Table 13-7 steps 4–6, R27): domain `d`, or the half-row of a partition in its row `row`, has drained. -/
def execPwrDrainEnd (d : BitVec 7) (row : Fin 4) (s : State) : Res :=
  match s.power.reqs.find? fun r => r.domain == d.toNat && r.action ≥ 2 with
  | none => ok s
  | some r =>
    if (domRow r.domain row.val s).any (fun c => !drained c s) then ok s else
    match halfDone r row.val s with
    | (some r, s) => ok (domainOff r s)
    | (none, s) => ok s
/-- PWR_DRAIN_TIMEOUT (R429). -/
def execPwrDrainTimeout (d : BitVec 7) (s : State) : Res :=
  match s.power.reqs.find? fun r => r.domain == d.toNat && r.action ≥ 2 with
  | none => ok s
  | some r =>
    let s := seam (present (domCls r.domain) s) false s
    let s := { s with power := { s.power with reqs := s.power.reqs.filter (· != r) } }
    ok (pwrLog 0 ((pwrShow r.domain 0 (some cTIMEOUT) s).inc PWR_DRAIN_FAIL 1))

/-- A cluster joins the running device (R402): agents that never take their image, the march test, cleared memories, cores Idle and
halted. -/
def joinCluster (m : March) (agents : List Cl) (kept : List Nat) (s : State) (c : Nat) : State :=
  if s.clPwr c < 2 then s else
  let s := (s.setClPwr c 0).setCluster c { s.cluster c with synOff := [], dead := false }
  let s := (clSlots c).foldl (fun s p => if s.slotGone p then s else
    (s.fs (CORE_STATE p) CORE_STATE.STATE stIdle).fs (CORE_STATE p) CORE_STATE.HALTED 1) s
  let s := if agents.any (fun a => a.val == c) then clusterFail c s else s
  let s := march m [c] (!kept.contains c) (showRep c s)
  let s := (clSlots c).foldl (fun s p => if s.slotGone p then s.fs (CORE_STATE p) CORE_STATE.STATE stOff else s) s
  refreshSpares c (s.fs (CLA_SEGOK c) CLA_SEGOK.OK ((goodSegs c s).foldl (fun v g => setBits v g 1 (bits (s.fv (CLA_SEGOK c) CLA_SEGOK.OK) g 1)) 0))
/-- PWR_JOIN_END (R430, R402, R27): the join of domain `d`, or of the half-row in its row `row`, has ended. -/
def execPwrJoinEnd (d : BitVec 7) (row : Fin 4) (m : March) (agents : List Cl) (s : State) : Res :=
  match s.power.reqs.find? fun r => r.domain == d.toNat && r.action == 1 with
  | none => ok s
  | some r =>
    let s := (domRow r.domain row.val s).foldl (joinCluster m agents r.kept) s
    match halfDone r row.val s with
    | (none, s) => ok s
    | (some r, s) =>
      let s := if r.domain = dETH then s.fs PWR_STATUS PWR_STATUS.ON (setBits (s.fv PWR_STATUS PWR_STATUS.ON) 5 1 1) else fpmRewrite (domCls r.domain) [] s
      let s := { s with power := { s.power with reqs := s.power.reqs.filter (· != r) } }
      ok (pwrLog 0 (pwrShow r.domain 0 (some cOK) s))

/-! Standby and wake (R431–R433) -/

/-- A write of PWR_DEV_CTRL (R431). -/
def writeDevCtrl (q : Req) (v : Nat) (s : State) : State :=
  onPwr q (fun s =>
    if bit v 0 && !(s.devState == dsReady || s.devState == dsFaultHold) then s.done q cREFUSED [] false
    else
      let s := (s.fs PWR_DEV_CTRL PWR_DEV_CTRL.HOLD (bits v 1 1)).done q cOK [] false
      if bit v 0 then enterStandby s else s) s
/-- PWR_STANDBY (R431). -/
def execPwrStandby (q : Req) (v : Word) (s : State) : Res := ok (writeDevCtrl q (setBits v.toNat 0 1 1) s)

/-- Steps 3 to 14 after a wake: what AON holds stays (R433). -/
def wakeUp (b : Boot) (s : State) : State :=
  let s := (present (List.range 64) s).foldl (fun s c => s.setClPwr c 0) (wiped true s)
  bringUp b s
/-- Wake source `n` of Table 13-4 is seen in Standby: recorded when enabled; with no hold the device comes up (R432). -/
def wakeSource (n : Nat) (b : Boot) (s : State) : State :=
  if s.devState ≠ dsStandby then s else
  let s := if n = 2 then s.fs PWR_DEV_CTRL PWR_DEV_CTRL.HOLD 0 else s
  if bit (s.fv PWR_WAKE_EN PWR_WAKE_EN.SRC) n = false then s else
  let s := s.fs PWR_WAKE_CAUSE PWR_WAKE_CAUSE.SRC (setBits (s.fv PWR_WAKE_CAUSE PWR_WAKE_CAUSE.SRC) n 1 1)
  if standbyHold s then s else wakeUp b s
/-- STANDBY_WAKE (R433). -/
def execStandbyWake (src : Fin 6) (b : Boot) (s : State) : Res := ok (wakeSource src.val b s)

/-- READY_GATE (R395, R396, R386): auto-load takes the valid entries of PAT_AUTO; a Standby request that waited is made (R517). -/
def execReadyGate (s : State) : Res :=
  if readyGate s = false then ok s else
  let s := (s.setDevState dsReady).fs MGT_BOOT_STAT MGT_BOOT_STAT.STAGE 14
  let s := transit (s.wr64 MGT_BOOT_T s.now)
  let s := s.log 0x01 none [s.rd GLB_DEV_STATE, s.rd MGT_BOOT_STAT]
  let a := s.rd PAT_AUTO
  let l := if bit a 0 then (List.range 4).filter fun e => bit a (8 + 4 * e + 2) else []
  let s := { s with pat := { s.pat with auto := l, autoFail := true } }
  let s := [1, 2, 3, 4].foldl (fun s c => match fwPend c s with
    | some f => showFw c ({ s with pers := { s.pers with fwPend := serase c s.pers.fwPend } }.log 0x08 none [c, 0, f.version, cABORTED])
    | none => s) s
  ok (if s.power.standbyPend then enterStandby s else s)

/-! Feeds (R434, R435) -/

/-- The load moves to FEED_B or back. -/
def feedMove (toB : Bool) (s : State) : State :=
  (s.fs PWR_FEED_STAT PWR_FEED_STAT.ON_B (b2n toB)).inc PWR_FEED_SW 1
/-- FEED_BAD (R434): FEED_B when `isB`. -/
def execFeedBad (isB : Bool) (s : State) : Res :=
  let k := PWR_FEED_STAT
  let s := if isB then (s.fs k PWR_FEED_STAT.B_OK 0).fs k PWR_FEED_STAT.B_SEEN_BAD 1 else (s.fs k PWR_FEED_STAT.A_OK 0).fs k PWR_FEED_STAT.A_SEEN_BAD 1
  let other := if isB then s.fb k PWR_FEED_STAT.A_OK else s.fb k PWR_FEED_STAT.B_OK
  if other = false then ok (s.fs k PWR_FEED_STAT.HOLDUP 1)
  else if s.fb k PWR_FEED_STAT.ON_B = isB then
    ok (pwrLog 0 ((feedMove (!isB) s).faultAt 0xC 0 none 0 0xFFF (b2n isB) 50000))
  else ok s
/-- FEED_GOOD (R434, R435): a feed that returns during hold-up takes the load. -/
def execFeedGood (isB : Bool) (s : State) : Res :=
  let k := PWR_FEED_STAT
  let s := s.fs k (if isB then PWR_FEED_STAT.B_OK else PWR_FEED_STAT.A_OK) 1
  if s.fb k PWR_FEED_STAT.HOLDUP = false then ok s else
  let s := (s.fs k PWR_FEED_STAT.HOLDUP 0).fs k PWR_FEED_STAT.LOSS 1
  let s := if s.fb k PWR_FEED_STAT.ON_B = isB then s else feedMove isB s
  ok (pwrLog 0 { s with power := { s.power with lossRec := false } })
/-- FEED_SWITCH_BACK (R434). -/
def execFeedSwitchBack (s : State) : Res :=
  let k := PWR_FEED_STAT
  if s.fb k PWR_FEED_STAT.A_OK && s.fb k PWR_FEED_STAT.ON_B && !s.fb PWR_FEED_CTRL PWR_FEED_CTRL.STICKY then
    ok (pwrLog 0 (feedMove false s))
  else ok s
/-- POWER_LOSS (R435 steps 1 and 2): the power-loss record goes straight into the block kept erased. -/
def execPowerLoss (s : State) : Res :=
  if s.fb PWR_FEED_STAT PWR_FEED_STAT.HOLDUP = false ∨ s.power.lossRec then ok s else
  let r : LogRec := ⟨0x06, none, [s.rd PWR_FEED_STAT, s.rd PWR_REQ_STAT, 1], s.now⟩
  ok (logFile r { s with power := { s.power with lossRec := true } })
/-- HOLDUP_EXHAUSTED (R435 step 4): every rail is removed; a store under way leaves its slot empty. -/
def execHoldupExhausted (s : State) : Res :=
  if s.fb PWR_FEED_STAT PWR_FEED_STAT.HOLDUP = false then ok s else
  let s := match s.pat.cur with
    | some r => if r.op = 2 ∧ s.pat.sigOk then { s with pers := { s.pers with slots := serase r.slot s.pers.slots } } else s
    | none => s
  let s := (wiped false { s with power := {} }).wr PWR_DEV_CTRL 0
  ok (({ s with dev := { s.dev with hubDown := true } }.wr PWR_FEED_STAT 0).setDevState dsStandby)

/-! Rails (R436) -/

/-- The host port's functions return to their reset values (R336, R515). -/
def fnReset (f : Nat) (s : State) : State :=
  let s := (List.range 8).foldl (fun s k => (s.fs (RING_CFG f k) RING_CFG.EN 0).setRing (8 * f + k) {}) s
  let s := (s.wr64 (HOST_APER f) (2 ^ 32 * (resetVal (HOST_APER f + 4)).toNat + (resetVal (HOST_APER f)).toNat)).wr (HOST_FN_STAT f) (resetVal (HOST_FN_STAT f)).toNat
  { s with host := { s.host with msix := s.host.msix.filter (fun x => x.1 / 0x10000 != f), bar2 := serase f s.host.bar2 } }
/-- A domain of PWR_STATUS goes off and its units fail. -/
def domBit (n : Nat) (s : State) : State := s.fs PWR_STATUS PWR_STATUS.ON (setBits (s.fv PWR_STATUS PWR_STATUS.ON) n 1 0)
def domFails (n : Nat) (s : State) : State :=
  if bit (s.fv PWR_STATUS PWR_STATUS.ON) n = false then s else
  let s := { s with power := { s.power with railBad := n :: s.power.railBad } }
  let s := if n = 2 then (List.range 17).foldl (fun s f => fnReset f s) s
    else if n = 3 then
      { s.fs MEMC_STATUS MEMC_STATUS.READY 0 with
        memc := { s.memc with keys := [], devKey := s.memc.nextKey, nextKey := s.memc.nextKey + 1, scrubbed := [] } }
    else if n = 4 then (List.range 12).foldl (fun s p => if s.dev.fusedJlk.contains p then s else setJState p jsOff (linkDown p true s)) s
    else
      let s := s.resetRegs 0x500000 0x20000
      { s with host := { s.host with eth := [] } }
  pwrLog 0 (domBit n s)
/-- RAIL_FAULT (R436, R457). -/
def execRailFault (r : Rail) (b : Boot) (s : State) : Res :=
  let cl := fun (c : Nat) (s : State) =>
    if s.clGone c then s else clusterDead c (s.faultAt 0xF 2 (some c) 0 0xFFF 0 (2 ^ 32 - 1))
  match r with
  | .aon => ok (deviceReset 5 b s)
  | .mgt => ok (deviceReset 5 b s)
  | .net => ok (deviceReset 5 b s)
  | .cluster c => ok (cl c.val s)
  | .syn c => ok (cl c.val s)
  | .host => ok (domFails 2 s)
  | .mem => ok (domFails 3 s)
  | .lnk => ok (domFails 4 s)
  | .eth => ok (domFails 5 s)

end Sys2Proof.Machine
end

