-- ==== Sys2Proof/Machine/Tenancy.lean ====
section
/-! DEFINITION. The thimble (chapter 15): instances, reset and generation fencing, clearing, claims, TDISP, SPDM, debug, stored
keys. -/
namespace Sys2Proof.Machine

def siState (i : Nat) (s : State) : Nat := s.fv (SEC_INST i) SEC_INST.STATE
def setSi (i v : Nat) (s : State) : State := s.fs (SEC_INST i) SEC_INST.STATE v
def tdi (i : Nat) (s : State) : Nat := s.fv (SEC_INST i) SEC_INST.TDI
def instCmd (i : Nat) (s : State) : Option InstCmd := sget (fun _ => none) i s.sec.cmds
def setInstCmd (i : Nat) (c : Option InstCmd) (s : State) : State := { s with sec := { s.sec with cmds := sset (fun _ => none) i c s.sec.cmds } }
/-- SEC_STATUS.ANYCONF follows the instances. -/
def anyConf (s : State) : State :=
  s.fs SEC_STATUS SEC_STATUS.ANYCONF (b2n ((List.range 16).any fun i => s.conf i))
/-- A TDI changes state: measurement 0x10 + i is extended (Table 15-1). -/
def setTdi (i v : Nat) (s : State) : State :=
  measExtend (0x10 + i) (sha384 (leBytes 1 v)) (s.fs (SEC_INST i) SEC_INST.TDI v)
/-- A locked TDI moves to ERROR (Table 15-5). -/
def tdiError (i : Nat) (s : State) : State := if tdi i s = 1 ∨ tdi i s = 2 then setTdi i 3 s else s
/-- A SECURITY record. -/
def secLog (i : Option Nat) (l : List Nat) (s : State) : State := s.log 0x0D i l

/-! Instance reset and generation fencing (R475, R476) -/

/-- A routing header of another kind than an event carries instance `i` and generation `g` (Table 7-3). -/
def hdrLive (i g h : Nat) : Bool := bits h 22 4 != 0 && !bit h 31 && bits h 18 4 == i && bits h 32 8 == g
/-- Whoever waits for the answer of a remote write or fence is of instance `i` and generation `g`. -/
def JAns.live (i g : Nat) (a : JAns) : Bool := a.inst == i && a.gen == g
/-- What a Jarisk port holds of instance `i` and generation `g`: packets not yet in the replay buffer, withheld requests, fences. -/
def jPortLive (i g : Nat) (p : JPortSt) : Bool :=
  let pk := fun (x : JPkt) => x.ans.any (·.live i g)
  let req := fun (r : SlReq) => r.who.map (·.val) == some i && r.gen.toNat == g
  p.txReq.any pk || p.cur.any (fun c => pk c.pkt) || p.fences.any (fun x => x.2.any (·.live i g))
    || p.held.any fun x => x.2.any fun y => match y with
      | .raw r _ => req r
      | .fence r => req r
      | .pk x => pk x
      | _ => false
/-- A live item of instance `i` carries generation `g` (R476): a bulk descriptor in an engine, a completion not yet written to its ring, a
packet in the data network, a request at a slice, and what a Jarisk port holds. -/
def liveItem (i g : Nat) (s : State) : Bool :=
  s.host.jobs.any (fun j => j.inst == i && j.gen == g)
    || s.host.rings.any (fun r => s.fv (rgCfg r.1) RING_CFG.TYPE == tyBC && r.2.pend.any fun e => bits e.w0 8 4 == i && bits e.w0 12 8 == g)
    || s.net.edge.any (fun e => e.2.any fun x => hdrLive i g x.1)
    || s.net.outs.any (fun o => o.2.wait.any fun u => hdrLive i g u.hdr)
    || (List.range 64).any (fun x => (s.slice x).queue.any fun r => r.1.who.map (·.val) == some i && r.1.gen.toNat == g)
    || s.jports.any fun p => jPortLive i g p.2
/-- The result of an instance command goes to its requester, or to the tenant that asked for it. -/
def instRes (i : Nat) (code : Nat) (s : State) : State :=
  match instCmd i s with
  | some c =>
    if c.timedOut then s else
    let s := match c.who with
      | some n => s.wr (SEC_INST_RES n) (i * 2 ^ 4 + code * 2 ^ 8)
      | none => s
    match c.resp with
    | some (k, l) => s.emit (.mgmt k (l ++ [code]))
    | none => s
  | none => s
/-- PAT_INST of an instance that lost its work (Table 15-9 step 5, R473). -/
def patLost (i : Nat) (s : State) : State :=
  let s := match s.pat.cur with
    | some r => if r.inst = i then patFail (s.fv (PAT_INST i) PAT_INST.STATE == 1) cABORTED 0x0E 0xFFF 0xFFFF s else s
    | none => s
  if s.fb (PAT_INST i) PAT_INST.STATE then setPatState i 3 s else s
/-- Step 5 of Table 15-9; a clear goes on instead. -/
def fenceEnd (i : Nat) (s : State) : State :=
  let s := tdiError i (patLost i s)
  match instCmd i s with
  | some c =>
    if c.op = 2 then
      let s := (setSi i 1 (instRes i cOK s)).log 0x02 (some i) [rsInst, s.rd MGT_RST_STAT]
      setInstCmd i none s
    else setSi i 4 s
  | none => setSi i 1 s
/-- The fence ends when no live item carries the new generation; a value never used before needs no wait (R476). -/
def fenceTry (i : Nat) (s : State) : State :=
  if siState i s ≠ 3 then s
  else if s.fb (SEC_INST i) SEC_INST.WRAPPED = false ∨ liveItem i (s.gen i) s = false then fenceEnd i s else s
/-- Steps 1 to 4 of Table 15-9. -/
def instReset (i : Nat) (s : State) : State :=
  let s := setSi i 2 s
  let s := seqStopped i (s.setInst i { s.inst i with tokens := [], doneCl := [], reported := none, reports := [], kids := [], ticks := [], parts := [] })
  let g := (s.gen i + 1) % 256
  let s := s.fs (SEC_INST i) SEC_INST.GEN g
  let s := if g = 0 then s.fs (SEC_INST i) SEC_INST.WRAPPED 1 else s
  let s := egressDrop i s
  let s : State := { s with host := { s.host with bkq := s.host.bkq.filter fun j => j.inst != i },
                            net := { s.net with rbks := s.net.rbks.filter fun r => r.inst != i } }
  let s := (s.instClusters i).foldl (fun s c =>
    if s.clGone c then s else
    let s := dropInj c (CLA_RST_EVT_DROP c) (dropWaiting c s)
    let s := (clSlots c).foldl (fun s p => if s.slotGone p then s else
      let s := coreReset p false s
      s.setCore p { s.core p with heldOpens := [] }) s
    let x := s.cluster c
    (s.setCluster c { x with journal := [], opens := [], closes := [], rewind := none, noInject := false, expStep := 0, mask := [] }).wr (CLA_JRN_OCC c) 0) s
  fenceTry i (setSi i 3 s)

/-! Instance commands (R469, R470) -/

/-- A register of the SEC block (R481). -/
def onSec (q : Req) (f : State → State) (s : State) : State := s.hub q 0 fun s => if isVf q then s.cross q else f s
/-- The command of instance `i` starts: RESET, CLEAR or DESTROY. -/
def instStart (i : Nat) (c : InstCmd) (s : State) : State :=
  let s := setInstCmd i (some c) s
  let s := match c.who with
    | some n => s.wr (SEC_INST_RES n) (1 + i * 2 ^ 4)
    | none => s
  instReset i s
/-- A write of SEC_INST_CMD. -/
def writeInstCmd (q : Req) (v : Nat) (s : State) : State :=
  onSec q (fun s =>
    let n := reqIx q
    let k := SEC_INST_CMD n
    let op := bits v 5 3
    let i := bits v 0 4
    let fin := fun (code i : Nat) (s : State) => (s.wr (SEC_INST_RES n) (i * 2 ^ 4 + code * 2 ^ 8)).done q code [] false
    let s' := s.wrFlds k v [SEC_INST_CMD.INST, SEC_INST_CMD.ANY, SEC_INST_CMD.OP, SEC_INST_CMD.SCRUB]
    if bit v 31 = false then s'.done q cOK [] false
    else if op = 0 ∨ op > 4 then s.done q cBAD_ARG [] false
    else if s.fb (SEC_INST_RES n) SEC_INST_RES.BUSY then s.done q cRETRY [] false
    else if op = 1 then
      if bit v 4 then
        match (List.range 16).find? fun j => siState j s == 0 with
        | some j => fin cOK j (setSi j 1 s')
        | none =>
          let soon := (List.range 16).any fun j => decide (siState j s ≥ 2) && (match instCmd j s with
            | some c => c.op == 4
            | none => false)
          fin (if soon then cRETRY else cFULL) 0 s'
      else if siState i s = 0 then fin cOK i (setSi i 1 s') else fin cBAD_ARG i s'
    else if siState i s = 0 then fin cBAD_ARG i s'
    else if siState i s ≠ 1 then fin cRETRY i s'
    else instStart i ⟨some n, op, bit v 8, op == 4, false, none⟩ (s'.done q cOK [] false)) s
def instWord (v op : Nat) : Nat := setBits (setBits v 31 1 1) 5 3 op
/-- INST_CREATE, INST_RESET, INST_CLEAR, INST_DESTROY: a write of SEC_INST_CMD with GO = 1. -/
def execInstCreate (q : Req) (v : Word) (s : State) : Res := ok (writeInstCmd q (instWord v.toNat 1) s)
def execInstReset (q : Req) (v : Word) (s : State) : Res := ok (writeInstCmd q (instWord v.toNat 2) s)
def execInstClear (q : Req) (v : Word) (s : State) : Res := ok (writeInstCmd q (instWord v.toNat 3) s)
def execInstDestroy (q : Req) (v : Word) (s : State) : Res := ok (writeInstCmd q (instWord v.toNat 4) s)
/-- INST_FENCE_END (R476). -/
def execInstFenceEnd (i : InstNo) (s : State) : Res := ok (fenceTry i.val s)
/-- INST_FENCE_TIMEOUT (R476): the command completes TIMEOUT and the instance stays Fencing. -/
def execInstFenceTimeout (i : InstNo) (s : State) : Res :=
  match instCmd i.val s with
  | some c =>
    if siState i.val s ≠ 3 ∨ c.timedOut then ok s else
    ok (setInstCmd i.val (some { c with timedOut := true }) ((instRes i.val cTIMEOUT s).log 0x02 (some i.val) [rsInst, s.rd MGT_RST_STAT]))
  | none => ok s

/-! Clearing (R473, R474) -/

/-- Every line of slice `x`, the spare bank included, is 0. -/
def clearSlice (x : Nat) (s : State) : State :=
  { s with mem := s.mem.filter fun c => !(decide (shmBase ≤ c.1 ∧ c.1 < shmBase + 0x2000000) && slSlice (c.1 - shmBase) == x) }
/-- All 17 segments and the journal of cluster `c` are 0. -/
def clearCluster (c : Nat) (s : State) : State :=
  let s := (s.clrN (segBase c 0) 0x2200000).setCluster c { s.cluster c with journal := [] }
  s.wr (CLA_JRN_OCC c) 0
/-- Slices an instance owns. -/
def ownedSlices (i : Nat) (s : State) : List Nat := (List.range 64).filter fun x => ownsSlice i x s
/-- Every rank entry of instance `i` to VALID = 0. -/
def dropRanks (i : Nat) (s : State) : State :=
  refreshMap { s with jdev := { s.jdev with ranks := s.jdev.ranks.map fun x => if x.1 / 4096 = i then (x.1, setBits x.2 20 1 0) else x } }
/-- The ownership fields of Table 15-7 that name instance `i` end (R473, R382). -/
def dropOwnership (i : Nat) (s : State) : State :=
  let s := (List.range 256).foldl (fun s n => if s.ownsBlk i n then s.fs (DNET_BLK n) DNET_BLK.IVAL 0 else s) s
  let s := (ownedSlices i s).foldl (fun s x => s.fs (SHM_OWN x) SHM_OWN.VALID 0) s
  let s := { s.fs (MEMC_WIN i) MEMC_WIN.EN 0 with memc := { s.memc with keys := serase i s.memc.keys } }
  let s := (List.range 8).foldl (fun s n =>
    if s.fb (TMR_OWN n) TMR_OWN.VALID && s.fv (TMR_OWN n) TMR_OWN.INST == i then s.fs (TMR_OWN n) TMR_OWN.VALID 0 else s) s
  let s := (List.range 2).foldl (fun s n =>
    if s.fb (ETH_OWN n) ETH_OWN.VALID && s.fv (ETH_OWN n) ETH_OWN.INST == i then
      (s.fs (ETH_OWN n) ETH_OWN.VALID 0).fs (ETH_EGR_DST n) ETH_EGR_DST.VALID 0 else s) s
  let s := s.fs (HOST_EGR i) HOST_EGR.VALID 0
  let s := s.fs (JLK_LAND_EN i) JLK_LAND_EN.EN 0
  dropRanks i (s.fs (JLK_OWNRANK i) JLK_OWNRANK.VALID 0)
/-- Keys and claim of instance `i` are destroyed and its measurement returns to zeros. -/
def dropKeys (i : Nat) (s : State) : State :=
  let had := s.fb (SEC_INST i) SEC_INST.CLAIMED
  let s := { s with sec := { s.sec with claims := serase i s.sec.claims, pkeys := serase i s.sec.pkeys, skeys := serase i s.sec.skeys } }
  let s := ((s.fs (SEC_INST i) SEC_INST.CLAIMED 0).fs (SEC_INST i) SEC_INST.PKEY 0).fs (SEC_INST i) SEC_INST.SKEY 0
  let s := setMeas (0x10 + i) zero48 s
  if had then secLog (some i) [2, i] s else s
/-- The clear of instance `i` completes (R473). -/
def clearInst (i : Nat) (c : InstCmd) (s : State) : State :=
  let s := (s.instClusters i).foldl (fun s k => if s.clPwr k = 3 then s else clearCluster k s) s
  let s := (ownedSlices i s).foldl (fun s x => clearSlice x s) s
  let s := if s.fb (MEMC_WIN i) MEMC_WIN.EN then
      let m := s.memc
      let s := { s with memc := { m with keys := sset (fun _ => 0) i m.nextKey m.keys, nextKey := m.nextKey + 1 } }
      if c.scrub then modZero i s else s
    else s
  let s := if c.unlock then anyConf ((s.fs (SEC_INST i) SEC_INST.TDI 0).fs (SEC_INST i) SEC_INST.CONF 0) else s
  let s := dropKeys i s
  let s := ((List.range 18).foldl (fun s k => s.wr (bankKey (statCopy i) (base_sync + 0x810 + 4 * k)) 0) s)
  let s := (s.wr (SEC_EXH i) 0).wr (SEC_EXH_SRC i) 0
  let s := { s with mgmt := { s.mgmt with vseq := serase i s.mgmt.vseq } }
  let s := if s.fb (PAT_INST i) PAT_INST.STATE then (setPatState i 3 s).fs (PAT_FAIL (c.who.getD 1)) PAT_FAIL.CAUSE 0x0E else s
  let s := if c.op = 4 then (setPatState i 0 (dropOwnership i s)).wr64 (PAT_INST_PID i) 0 else s
  let s := instRes i cOK (setSi i (if c.op = 4 then 0 else 1) s)
  (setInstCmd i none s).log 0x02 (some i) [rsInst, s.rd MGT_RST_STAT]
/-- INST_CLEAR_DONE (R473). -/
def execInstClearDone (i : InstNo) (s : State) : Res :=
  match instCmd i.val s with
  | some c => ok (if siState i.val s = 4 then clearInst i.val c s else s)
  | none => ok s

/-- FLR_VF (R336): the function's registers, and a reset of its instance. -/
def execFlrVf (i : InstNo) (s : State) : Res :=
  let s := tdiError i.val (fnReset (i.val + 1) s)
  ok (if siState i.val s = 1 then instStart i.val ⟨none, 2, false, false, false, none⟩ s else s)
/-- All functions return to their reset values, as by an FLR of the physical function (R336, R515). -/
def flrPf (s : State) : State :=
  let s := (List.range 17).foldl (fun s f => fnReset f s) s
  (List.range 16).foldl (fun s i => tdiError i s) s
/-- FLR_PF (R336). -/
def execFlrPf (s : State) : Res := ok (flrPf s)

/-! SPDM (R466) -/

/-- SPDM response codes of the Security Protocol and Data Model (PRESUMED, log entry 7). -/
def spVERSION : Nat := 0x04
def spCAPABILITIES : Nat := 0x61
def spALGORITHMS : Nat := 0x63
def spDIGESTS : Nat := 0x01
def spCERTIFICATE : Nat := 0x02
def spCHALLENGE_AUTH : Nat := 0x03
def spMEASUREMENTS : Nat := 0x60
def spKEY_EXCHANGE_RSP : Nat := 0x64
def spFINISH_RSP : Nat := 0x65
def spHEARTBEAT_ACK : Nat := 0x68
def spKEY_UPDATE_ACK : Nat := 0x69
def spEND_SESSION_ACK : Nat := 0x6C
def spVENDOR : Nat := 0x7E
def spERROR : Nat := 0x7F
/-- TDISP and IDE_KM responses. -/
def spTDISP : Nat := 0x100
def spIDE : Nat := 0x101
def erInvalid : Nat := 0x01
def erBusy : Nat := 0x03
def erUnsupported : Nat := 0x07
def erSession : Nat := 0x0A

def toWords (l : List Byte) : List Nat := l.map (·.toNat)
def spdmErr (e : Nat) (s : State) : State := s.emit (.mgmt spERROR [e])
def secured (n : Nat) (s : State) : Bool := s.sec.sessions.contains n
/-- The claim of instance `i`: session and token digest. -/
def claim (i : Nat) (s : State) : Option (Nat × List Byte) := sget (fun _ => none) i s.sec.claims
def holds (n i : Nat) (s : State) : Bool := match claim i s with
  | some c => c.1 == n
  | none => false
/-- The measurement indices of Table 15-1, and those a session bound to a TDI receives (R466). -/
def measIndices (sess : Option Nat) (s : State) : List Nat :=
  let bound := match sess with
    | some n => (List.range 16).filter fun i => holds n i s && tdi i s != 0
    | none => []
  [1, 2, 3, 4, 5, 6] ++ (if bound = [] then (List.range 16).map (0x10 + ·) else bound.map (0x10 + ·))
/-- The runtime of the thimble restarts (Table 16-10): requests are answered busy. -/
def thimbleBusy (s : State) : Bool := s.fv MGT_FWU_STAT MGT_FWU_STAT.STATE == 2 && s.fv MGT_FWU_STAT MGT_FWU_STAT.COMP == 1
/-- An enabled TEE-limited stream that holds the function is disabled: a locked TDI moves to ERROR. -/
def ideDrop (n : Nat) (s : State) : State :=
  let l := sget (fun _ => []) n s.sec.ide
  l.foldl (fun s i => tdiError i s) { s with sec := { s.sec with ide := serase n s.sec.ide } }

/-- SPDM_REQUEST (R466): the thimble's answer. -/
def spdm (r : SpdmReq) (s : State) : State :=
  let chain := Config.certChain ([1, 2, 3, 4].flatMap fun m => measurement m s)
  let sess := fun (n : Nat) (f : State → State) => if secured n s then f s else spdmErr erInvalid s
  if thimbleBusy s then spdmErr erBusy s else
  match r with
  | .version => s.emit (.mgmt spVERSION [0x12, 0x13])
  | .capabilities => s.emit (.mgmt spCAPABILITIES [])
  | .algorithms => s.emit (.mgmt spALGORITHMS [])
  | .other => spdmErr erUnsupported s
  | .digests => s.emit (.mgmt spDIGESTS (toWords (sha384 chain)))
  | .certificate slot off len =>
    if slot.val ≠ 0 then spdmErr erInvalid s
    else s.emit (.mgmt spCERTIFICATE (toWords ((chain.drop off.toNat).take len.toNat)))
  | .challenge slot nonce =>
    if slot.val ≠ 0 then spdmErr erInvalid s
    else s.emit (.mgmt spCHALLENGE_AUTH (toWords (Config.aliasSign (sha384 chain ++ nonce))))
  | .measurements n idx sign nonce =>
    let ok' := match n with
      | some n => secured n s
      | none => true
    let l := measIndices n s
    if !ok' then spdmErr erInvalid s
    else if idx.toNat = 0 then s.emit (.mgmt spMEASUREMENTS [l.length])
    else
      let l := if idx.toNat = 0xFF then l else l.filter (· == idx.toNat)
      if l = [] then spdmErr erInvalid s else
      let body := l.flatMap fun m => leBytes 1 m ++ measurement m s
      s.emit (.mgmt spMEASUREMENTS (toWords (if sign then body ++ Config.aliasSign (body ++ nonce) else body)))
  | .keyExchange slot =>
    if slot.val ≠ 0 then spdmErr erInvalid s
    else if s.sec.sessions.length + s.sec.handshake.length ≥ 8 then spdmErr erSession s
    else
      let n := s.sec.nextSess
      { s with sec := { s.sec with handshake := s.sec.handshake ++ [n], nextSess := n + 1 } }.emit (.mgmt spKEY_EXCHANGE_RSP [n])
  | .finish n =>
    if s.sec.handshake.contains n then
      { s with sec := { s.sec with handshake := s.sec.handshake.filter (· != n), sessions := s.sec.sessions ++ [n] } }.emit (.mgmt spFINISH_RSP [n])
    else spdmErr erInvalid s
  | .heartbeat n => sess n fun s => s.emit (.mgmt spHEARTBEAT_ACK [n])
  | .keyUpdate n => sess n fun s => s.emit (.mgmt spKEY_UPDATE_ACK [n])
  | .endSession n => sess n fun s =>
    { s with sec := { s.sec with sessions := s.sec.sessions.filter (· != n) } }.emit (.mgmt spEND_SESSION_ACK [n])
  | .ideProg n k set => sess n fun s => s.emit (.mgmt spIDE [k.val, b2n set])
  | .ideGo n k tee vfs => sess n fun s =>
    let s := if tee then { s with sec := { s.sec with ide := sset (fun _ => []) k.val (vfs.map (·.val)) s.sec.ide } } else s
    s.emit (.mgmt spIDE [k.val])
  | .ideStop n k => sess n fun s => (ideDrop k.val s).emit (.mgmt spIDE [k.val])
  | .tdiState n i => sess n fun s => s.emit (.mgmt spTDISP [tdi i.val s])
def execSpdmRequest (r : SpdmReq) (s : State) : Res := ok (spdm r s)
/-- SPDM_HEARTBEAT_LOSS (R464): the session ends and its keys are destroyed. -/
def execSpdmHeartbeatLoss (sess : Nat) (s : State) : Res :=
  ok { s with sec := { s.sec with sessions := s.sec.sessions.filter (· != sess) } }

/-! Vendor-defined requests (Table 15-4) -/

/-- A request in a secured session and its answer: opcode, completion code, body. -/
def vendor (sess op : Nat) (f : State → Nat × List Nat × State) (s : State) : State :=
  if thimbleBusy s then spdmErr erBusy s
  else if secured sess s = false then spdmErr erInvalid s
  else
    let (code, body, s) := f s
    s.emit (.mgmt spVENDOR ([op, code] ++ body))
/-- CLAIM (R467). -/
def execClaim (sess : Nat) (i : InstNo) (token : List Byte) (s : State) : Res :=
  ok (vendor sess 1 (fun s =>
    let n := i.val
    let d := sha384 token
    let bind := fun (s : State) =>
      secLog (some n) [1, n] ({ s with sec := { s.sec with claims := sset (fun _ => none) n (some (sess, d)) s.sec.claims } }.fs (SEC_INST n) SEC_INST.CLAIMED 1)
    if s.fb SEC_STATUS SEC_STATUS.DBG then (cREFUSED, [], s) else
    match claim n s with
    | some c => if c.2 = d then (cOK, [], bind s) else (cREFUSED, [], s)
    | none => if siState n s = 1 ∧ stepState n s = stStopped then (cOK, [], bind s) else (cREFUSED, [], s)) s)
/-- SET_PATTERN_KEY (R466, R387). -/
def execSetPatternKey (sess : Nat) (i : InstNo) (key : List Byte) (s : State) : Res :=
  ok (vendor sess 2 (fun s =>
    if holds sess i.val s = false then (cREFUSED, [], s)
    else (cOK, [], { s with sec := { s.sec with pkeys := sset (fun _ => []) i.val key s.sec.pkeys } }.fs (SEC_INST i.val) SEC_INST.PKEY 1)) s)
/-- SET_SIGN_KEY (R466). -/
def execSetSignKey (sess : Nat) (i : InstNo) (key : List Byte) (s : State) : Res :=
  ok (vendor sess 3 (fun s =>
    if holds sess i.val s = false then (cREFUSED, [], s)
    else (cOK, [], { s with sec := { s.sec with skeys := sset (fun _ => []) i.val key s.sec.skeys } }.fs (SEC_INST i.val) SEC_INST.SKEY 1)) s)
/-- GET_REPORT (R466): SEC_INST_i, PID, measurement 0x10 + i and a signature bound to the nonce. -/
def execGetReport (sess : Nat) (i : InstNo) (nonce : List Byte) (s : State) : Res :=
  ok (vendor sess 4 (fun s =>
    let n := i.val
    let b := leBytes 4 (s.rd (SEC_INST n)) ++ leBytes 8 (s.rd64 (PAT_INST_PID n)) ++ measurement (0x10 + n) s
    (cOK, toWords (b ++ Config.aliasSign (b ++ nonce)), s)) s)
/-- The clear that ends a tenancy: op 3 keeps the ownership, op 4 releases it. The message of code `k` and first words `l` answers when
the clear has ended, or at once when it is not admitted (Hemline's example, step 8). -/
def endTenancy (sess i op k : Nat) (l : List Nat) (refuse : Bool) (s : State) : State :=
  if thimbleBusy s then spdmErr erBusy s
  else if secured sess s = false then spdmErr erInvalid s
  else if refuse then s.emit (.mgmt k (l ++ [cREFUSED]))
  else if siState i s = 1 then instStart i ⟨none, op, false, true, false, some (k, l)⟩ s
  else s.emit (.mgmt k (l ++ [if siState i s = 0 then cBAD_ARG else cRETRY]))
/-- RELEASE (R473). -/
def execRelease (sess : Nat) (i : InstNo) (s : State) : Res := ok (endTenancy sess i.val 3 spVENDOR [5] (!holds sess i.val s) s)

/-! TDISP (R468, Table 15-5) -/

/-- A TDISP request in a secured session and its completion code. -/
def tdisp (sess : Nat) (f : State → Nat × State) (s : State) : State :=
  if thimbleBusy s then spdmErr erBusy s
  else if secured sess s = false then spdmErr erInvalid s
  else
    let (code, s) := f s
    s.emit (.mgmt spTDISP [code])
/-- LOCK_INTERFACE. -/
def execLockInterface (sess : Nat) (i : InstNo) (s : State) : Res :=
  ok (tdisp sess (fun s =>
    let n := i.val
    if tdi n s = 0 ∧ holds sess n s ∧ siState n s = 1 ∧ stepState n s = stStopped ∧ s.fv SEC_STATUS SEC_STATUS.DBG = 0 then
      (cOK, anyConf (setTdi n 1 (s.fs (SEC_INST n) SEC_INST.CONF 1)))
    else (cREFUSED, s)) s)
/-- START_INTERFACE. -/
def execStartInterface (sess : Nat) (i : InstNo) (s : State) : Res :=
  ok (tdisp sess (fun s =>
    let n := i.val
    if tdi n s = 1 ∧ s.sec.ide.any (fun x => x.2.contains n) then (cOK, setTdi n 2 s) else (cREFUSED, s)) s)
/-- STOP_INTERFACE: the instance is cleared. -/
def execStopInterface (sess : Nat) (i : InstNo) (s : State) : Res :=
  ok (endTenancy sess i.val 3 spTDISP [] (tdi i.val s == 0) s)
/-- TDI_DESTROY: the instance is cleared and its resources released. -/
def execTdiDestroy (sess : Nat) (i : InstNo) (s : State) : Res := ok (endTenancy sess i.val 4 spTDISP [] false s)

/-! Debug (R480), stored keys (R481), measurements (R462), exhaustion (R479) -/

/-- 48 nonce bytes that nothing fixes. -/
def newNonce (s : State) : State :=
  let s := (List.range 12).foldl (fun s k =>
    let (v, s) := s.free
    s.wr (SEC_DBG_NONCE k) (v % 2 ^ 32)) s
  { s with sec := { s.sec with nonce := true } }
def regBytes (k n : Nat) (s : State) : List Byte := (List.range n).flatMap fun i => leBytes 4 (s.rd (k + 4 * i))
/-- The debug level is set, or why not. -/
def debugGo (l : Nat) (s : State) : Nat × State :=
  let set := fun (s : State) => secLog none [0, l] (measCfg (s.fs SEC_STATUS SEC_STATUS.DBG l))
  let used := { s with sec := { s.sec with nonce := false } }
  if l = 0 then (cOK, set s)
  else if (List.range 16).any (fun i => s.fb (SEC_INST i) SEC_INST.CLAIMED || s.conf i) then (cREFUSED, s)
  else if s.sec.nonce = false then (cREFUSED, s)
  else if ecdsaOk Config.debugKey (sha384 (regBytes (SEC_DBG_NONCE 0) 12 s ++ regBytes GLB_SERIAL 2 s ++ leBytes 1 l))
      (regBytes (SEC_DBG_RESP 0) 24 s) then (cOK, set used)
  else (cREFUSED, secLog none [3, l] used)
/-- A write of SEC_DBG_CTRL. -/
def writeDbgCtrl (q : Req) (v : Nat) (s : State) : State :=
  onSec q (fun s =>
    let l := bits v 0 2
    if l = 3 then s.done q cBAD_ARG [] false else
    let s := s.fs SEC_DBG_CTRL SEC_DBG_CTRL.REQ l
    if bit v 31 then
      let (code, s) := debugGo l s
      (s.fs SEC_DBG_CTRL SEC_DBG_CTRL.CODE code).done q code [] false
    else (newNonce s).done q cOK [] false) s
/-- DEBUG_REQ, DEBUG_GO (R480). -/
def execDebugReq (q : Req) (v : Word) (s : State) : Res := ok (writeDbgCtrl q (setBits v.toNat 31 1 0) s)
def execDebugGo (q : Req) (v : Word) (s : State) : Res := ok (writeDbgCtrl q (setBits v.toNat 31 1 1) s)

/-- Put a register into the persistent store. -/
def persReg (k : Nat) (s : State) : State := { s with pers := { s.pers with regs := sset (fun n => (resetVal n).toNat) k (s.rd k) s.pers.regs } }
/-- A write of SEC_CFG or of a word of SEC_KEY_k at offset `o` of the block: a locked field ignores it (Table 0-3). -/
def writeSecPersist (q : Req) (o v : Nat) (s : State) : State :=
  onSec q (fun s =>
    let lock := s.fb SEC_CFG SEC_CFG.LOCK
    let k := base_sec + o
    if o = 4 then
      let s := if lock then s else
        let s := s.fs SEC_CFG SEC_CFG.REQSIG (bits v 0 1)
        { s with pers := { s.pers with regs := sset (fun n => (resetVal n).toNat) k (bits v 0 1) s.pers.regs } }
      (measCfg (if bit v 1 then s.fs SEC_CFG SEC_CFG.LOCK 1 else s)).done q cOK [] false
    else if 0x400 ≤ o ∧ o < 0x800 ∧ o % 4 = 0 ∧ o % 0x80 ≤ 0x60 then
      (if lock then s else measCfg (persReg k (s.wr k (if o % 0x80 = 0x60 then v % 2 else v)))).done q cOK [] false
    else s.done q cOK [] false) s
/-- SEC_PERSIST_WRITE (R481). -/
def execSecPersistWrite (q : Req) (o : BitVec 11) (v : Word) (s : State) : Res := ok (writeSecPersist q o.toNat v.toNat s)
/-- SEC_CFG_LOCK (R481): a write of SEC_CFG with LOCK = 1. -/
def execSecCfgLock (q : Req) (v : Word) (s : State) : Res := ok (writeSecPersist q 4 (setBits v.toNat 1 1 1) s)

/-- A write of SEC_MEAS_SEL (R462). -/
def writeMeasSel (q : Req) (v : Nat) (s : State) : State :=
  s.gate q 0 fun s =>
    let n := reqIx q
    let m := bits v 0 8
    let good : Bool := decide (1 ≤ m ∧ m ≤ 6) || (match q with
      | .vf i => m == 0x10 + i.val
      | _ => decide (0x10 ≤ m ∧ m < 0x20))
    if !good then (if isVf q then s.cross q else s.done q cBAD_ARG [] false) else
    let b := measurement m s
    let s := s.fs (SEC_MEAS_SEL n) SEC_MEAS_SEL.IDX m
    ((List.range 12).foldl (fun s k => s.wr (SEC_MEAS_DATA n k) (imgW b (4 * k))) s).done q cOK [] false
/-- MEAS_SELECT (R462). -/
def execMeasSelect (q : Req) (v : Word) (s : State) : Res := ok (writeMeasSel q v.toNat s)

/-- A write of SEC_EXH_SRC_i (R479). -/
def writeExhSrc (q : Req) (i v : Nat) (s : State) : State :=
  onSec q (fun s =>
    let k := SEC_EXH_SRC i
    let s := s.wr k (bits (s.rd k) 0 3 - (bits (s.rd k) 0 3 &&& bits v 0 3))
    (if bit v 31 then (s.wr k 0).wr (SEC_EXH i) 0 else s).done q cOK [] false) s
/-- EXH_CLEAR (R479). -/
def execExhClear (q : Req) (i : InstNo) (v : Word) (s : State) : Res := ok (writeExhSrc q i.val (setBits v.toNat 31 1 1) s)

end Sys2Proof.Machine
end

