-- ==== Sys2Proof/Machine/Mgmt.lean ====
section
/-! DEFINITION. The management processors and their services (chapter 16): takeover, sensors, congestion export, the front panel,
orderly removal and firmware update. -/
namespace Sys2Proof.Machine

/-! The processor pair (R482–R485) -/

def mpFailed (b : Bool) (s : State) : Bool := s.fb MGT_MP_STAT (if b then MGT_MP_STAT.B_FAIL else MGT_MP_STAT.A_FAIL)
/-- MP-B is active. -/
def mpActive (s : State) : Bool := s.fb MGT_MP_STAT MGT_MP_STAT.ACTIVE
/-- A processor stands by: it runs and is not marked failed. -/
def hasStandby (s : State) : Bool := !mpFailed (!mpActive s) s && !s.mgmt.noStandby
/-- Step 2 of Table 16-1: the roles change and the control hub completes every access RETRY; a load in Loading fails (R484). -/
def mpTakeover (s : State) : State :=
  let loading := match s.pat.cur with
    | some r => s.fv (PAT_INST r.inst) PAT_INST.STATE == 1
    | none => false
  let s := if loading then patFail true cABORTED 0x0D 0xFFF 0xFFFF s else s
  let s := { s with mgmt := { s.mgmt with takeover := true, noStandby := true }, dev := { s.dev with hubDown := true } }
  s.fs MGT_MP_STAT MGT_MP_STAT.ACTIVE (b2n !mpActive s)
/-- A takeover that a fault of the active processor causes; its record is that of class 0x0B (Table 14-1). -/
def mpFault (s : State) : State :=
  let a := mpActive s
  (mpTakeover s).faultAt 0xB 0 none 0 0xFFF (b2n a) 500000000
/-- MP_HEARTBEAT_TIMEOUT (R483, R485): `expired` of the device resets counted under R485 lie more than an hour back. -/
def execMpHeartbeatTimeout (expired : Nat) (b : Boot) (s : State) : Res :=
  if s.dev.hubDown then ok s
  else if hasStandby s then ok (mpFault s)
  else if mpFailed (!mpActive s) s = false then ok s
  else
    let n := s.mgmt.wdResets - expired
    if n < s.fv MGT_MP_CTRL MGT_MP_CTRL.RSTMAX then ok (deviceReset 4 b { s with mgmt := { s.mgmt with wdResets := n + 1 } })
    else
      let s := s.fs MGT_MP_STAT (if mpActive s then MGT_MP_STAT.B_FAIL else MGT_MP_STAT.A_FAIL) 1
      let s := faultHold 7 (s.faultAt 0xB 3 none 0 0xFFF 0 (2 ^ 32 - 1))
      ok { s with mgmt := { s.mgmt with wdResets := n }, dev := { s.dev with hubDown := true } }
/-- A write of MGT_MP_CTRL (R483, R512). -/
def writeMpCtrl (q : Req) (v : Nat) (s : State) : State :=
  onMgt q (fun s =>
    if q == .fm then s.done q cREFUSED [] false
    else if bits v 0 8 < 5 then s.done q cBAD_ARG [] false
    else if bit v 8 ∧ hasStandby s = false then s.done q cREFUSED [] false
    else
      let s := (s.wrFlds MGT_MP_CTRL v [MGT_MP_CTRL.HB_MS, MGT_MP_CTRL.RSTMAX]).done q cOK [] false
      if bit v 8 then mpTakeover s else s) s
/-- MP_SWAP (R483). -/
def execMpSwap (q : Req) (v : Word) (s : State) : Res := ok (writeMpCtrl q (setBits v.toNat 8 1 1) s)
/-- MP_SELF_ERROR (R483); with no standby the failed heartbeat is dealt with under R485. -/
def execMpSelfError (s : State) : Res := ok (if s.dev.hubDown = false ∧ hasStandby s then mpFault s else s)
/-- MP_TAKEOVER_RESUME (step 4 of Table 16-1): the new active processor serves again. -/
def execMpTakeoverResume (s : State) : Res :=
  if s.mgmt.takeover = false then ok s else
  ok { s with mgmt := { s.mgmt with takeover := false }, dev := { s.dev with hubDown := false } }
/-- MP_RESTART_OLD (step 5 of Table 16-1): the old processor passes its self-test and stands by, or is marked failed. -/
def execMpRestartOld (pass : Bool) (s : State) : Res :=
  if s.mgmt.noStandby = false then ok s else
  let s := { s with mgmt := { s.mgmt with noStandby := false } }
  let s := if pass then s else s.fs MGT_MP_STAT (if mpActive s then MGT_MP_STAT.A_FAIL else MGT_MP_STAT.B_FAIL) 1
  ok (s.log 0x02 none [rsMgt, s.rd MGT_RST_STAT])

/-! Sensors (R486, R525) -/

/-- Value of sensor `n` in its unit. -/
def sensor (n : Nat) (s : State) : Int := sx 16 (s.fv (MGT_SENS n) MGT_SENS.VALUE)
/-- Warning and critical points of the temperature and power sensors in their units (Table 17-8). -/
def sensPoints (n : Nat) : Int × Int :=
  if n ≤ 4 then (95 * 8, 105 * 8)
  else if n = 5 then (75 * 8, 85 * 8)
  else if n ≤ 7 then (60 * 8, 70 * 8)
  else if n = 8 then (105 * 8, 115 * 8)
  else if n = 9 then (85 * 8, 95 * 8)
  else if n = 12 then (18000, 19000)
  else (4600, 5000)
/-- Whether a sensor is beyond its warning and its critical point; a cage's module tells (0 neither, 1 warning, 2 alarm). -/
def sensLevel (n cmis : Nat) (v : Int) : Bool × Bool :=
  if n = 10 ∨ n = 11 then (decide (v < 4200 ∨ v > 5800), decide (v < 4000 ∨ v > 6000))
  else if n ≥ 14 then (decide (cmis ≥ 1), decide (cmis = 2))
  else (decide (v > (sensPoints n).1), decide (v > (sensPoints n).2))
/-- Shutdown points of the die and the power stage (Table 17-8). -/
def shutPoint (n : Nat) : Int := if n = 0 then 115 * 8 else 125 * 8
/-- A THERMAL record, or a POWER one for the feed and input sensors: sensor, value, point (1 warning, 2 critical, 3 throttle,
4 shutdown). -/
def sensLog (n point : Nat) (s : State) : State :=
  if 10 ≤ n ∧ n ≤ 13 then s.log 0x06 none [s.rd PWR_FEED_STAT, s.rd PWR_REQ_STAT, 0]
  else s.log 0x0F none [n, s.fv (MGT_SENS n) MGT_SENS.VALUE, point]
/-- A bit of MGT_SENS follows the sensor; setting it is logged. -/
def sensBit (n : Nat) (f : Fld) (v : Bool) (point : Nat) (s : State) : State :=
  let was := s.fb (MGT_SENS n) f
  let s := s.fs (MGT_SENS n) f (b2n v)
  if v && !was then sensLog n point s else s
/-- SENSOR_SAMPLE (R486, R525): the reading, none when the sensor has given none for 10 ms; `held` when the sensor has been on this
side of its points for 10 ms; `cmis` as a cage's module tells. A reading below the shutdown point ends the hold of R432, which the
power controller keeps in Standby too. -/
def execSensorSample (n : Fin 16) (r : Option (BitVec 16)) (held : Bool) (cmis : Fin 3) (s : State) : Res :=
  let k := MGT_SENS n.val
  match r with
  | none => ok (if s.dev.hubDown then s else s.fs k MGT_SENS.VALID 0)
  | some v =>
    let x := sx 16 v.toNat
    let s := if (n.val = 0 ∨ n.val = 8) ∧ x ≤ shutPoint n.val then
        { s with power := { s.power with tempHold := s.power.tempHold.filter (· != n.val) } } else s
    if s.dev.hubDown then ok s else
    let s := (s.fs k MGT_SENS.VALUE v.toNat).fs k MGT_SENS.VALID 1
    if held = false then ok s else
    let l := sensLevel n.val cmis.val x
    ok (alertPin (sensBit n.val MGT_SENS.CRIT l.2 2 (sensBit n.val MGT_SENS.WARN l.1 1 s)))

/-! Congestion export (R499) -/

/-- The export datagram, 216 words. -/
def cmxWords (s : State) : List Nat :=
  [0x584D434C, myFaddr s + s.rd GLB_DEV_STATE % 2 ^ 16 * 2 ^ 16, s.rd LOG_HEAD, 0, 0, 0, 0, 0]
    ++ (List.range 196).map (fun w => s.rd (DNET_CMAP w))
    ++ (List.range 12).map fun p => if s.dev.fusedJlk.contains p then 0 else s.rd (JLK_CMAP p)
/-- CMX_EXPORT (R499): after DIV periods; counted in MGT_CMX_SKIP while the management port is down or the processors restart. -/
def execCmxExport (portUp : Bool) (s : State) : Res :=
  if s.mgmt.cmx < s.fv MGT_CMX_CTRL MGT_CMX_CTRL.DIV ∨ s.fb MGT_CMX_CTRL MGT_CMX_CTRL.EN = false
      ∨ s.fb DNET_CMAP_CTRL DNET_CMAP_CTRL.EN = false then ok s else
  let s := { s with mgmt := { s.mgmt with cmx := 0 } }
  ok (if s.dev.hubDown || !portUp then s.inc MGT_CMX_SKIP 1 else s.emit (.mgmt 4 (cmxWords s)))

/-! Orderly removal (R500–R503) -/

def phase (s : State) : Nat := s.fv MGT_ATTN_STAT MGT_ATTN_STAT.PHASE
def setPhase (n : Nat) (s : State) : State := s.fs MGT_ATTN_STAT MGT_ATTN_STAT.PHASE n
def attnLog (l : List Nat) (s : State) : State := s.log 0x0C none (phase s :: l)
/-- Steps 1 to 3 of Table 16-7. -/
def removalStart (s : State) : State := setPhase 3 (attnLog [] (setPhase 2 (s.setDevState dsDraining)))
/-- A QUENCH of SCOPE `scope` with TGT = own address goes to the peer of each port in Up. -/
def quenchPeers (scope : Nat) (s : State) : State :=
  (List.range 12).foldl (fun s p =>
    if jState p s = jsUp ∧ s.fb (JLK_PEER p) JLK_PEER.VALID then
      stageMgt p (mkPk (s.fv (JLK_PEER p) JLK_PEER.FADDR) jkQUENCH 0 0 0 (leBytes 4 (myFaddr s + scope * 2 ^ 16) ++ leBytes 2 0) s) flowTR s
    else s) s
/-- The device is Ready, or Serving while an instance runs; a Standby request that waited is made (R517). -/
def backToReady (s : State) : State :=
  let s := servState (s.setDevState dsReady)
  if s.devState = dsReady ∧ s.power.standbyPend then enterStandby s else s
/-- A cancel (R503). -/
def removalCancel (s : State) : State :=
  if s.devState ≠ dsDraining ∨ phase s ≥ 7 then s else
  let s := if phase s ≥ 5 then
      (s.mgmt.attnEth.zip [0, 1]).foldl (fun s (x : Bool × Nat) => s.fs (ETH_CTRL x.2) ETH_CTRL.EN (b2n x.1)) (quenchPeers 3 s)
    else s
  backToReady (attnLog [] (setPhase 0 { s with mgmt := { s.mgmt with attnEth := [] } }))
/-- A short press (R500). -/
def shortPress (b : Boot) (s : State) : State :=
  if s.devState = dsStandby then wakeSource 3 b s
  else if s.devState = dsReady ∨ s.devState = dsServing then
    if s.fb MGT_ATTN MGT_ATTN.NOSHORT then s else removalStart s
  else if s.devState = dsDraining then
    if s.fb MGT_ATTN_STAT MGT_ATTN_STAT.SAFE then deviceReset 1 b s
    else if phase s < 7 then removalCancel s else attnLog [] s
  else s
/-- ATTN_SHORT_PRESS (R500). -/
def execAttnShortPress (b : Boot) (s : State) : Res := ok (shortPress b s)
/-- ATTN_MID_RELEASE (R500): ignored and logged. -/
def execAttnMidRelease (s : State) : Res := ok (attnLog [] s)
/-- ATTN_LONG_HOLD (R500, R403): a management reset that does not wait for the loader. -/
def execAttnLongHold (s : State) : Res := ok (if s.devState = dsStandby then s else mgtRestart s)
/-- Step 9 of Table 16-7. -/
def removalEnd (s : State) : State :=
  let s := (List.range 12).foldl (fun s p => jlkCtrl p (setBits (s.rd (JLK_CTRL p)) 0 1 0) s) s
  (setPhase 9 s).fs MGT_ATTN_STAT MGT_ATTN_STAT.SAFE 1
/-- A write of MGT_ATTN (R500, R502, R503). -/
def writeAttn (q : Req) (v : Nat) (b : Boot) (s : State) : State :=
  onMgt q (fun s =>
    let s := (s.wrFlds MGT_ATTN v [MGT_ATTN.NOSHORT, MGT_ATTN.GRACE, MGT_ATTN.QUIET]).done q cOK [] false
    let s := if bit v 2 && s.devState == dsDraining && phase s == 8 then removalEnd s else s
    let s := if bit v 1 then removalCancel s else s
    if bit v 0 then shortPress b s else s) s
/-- ATTN_REQ, ATTN_CANCEL, ATTN_FM_ACK: writes of MGT_ATTN. -/
def execAttnReq (q : Req) (v : Word) (b : Boot) (s : State) : Res := ok (writeAttn q (setBits v.toNat 0 1 1) b s)
/-- What units find in a bring-up with no fault. -/
def cleanBoot : Boot := ⟨[], [], false, false, false, [], [], [], ⟨[], [], [], []⟩, [], false⟩
def execAttnCancel (q : Req) (v : Word) (s : State) : Res := ok (writeAttn q (setBits (setBits v.toNat 0 1 0) 1 1 1) cleanBoot s)
def execAttnFmAck (q : Req) (v : Word) (s : State) : Res := ok (writeAttn q (setBits (setBits v.toNat 0 1 0) 2 1 1) cleanBoot s)

/-- No instance runs. -/
def allStopped (s : State) : Bool := (List.range 16).all fun i => stepState i s == stStopped
/-- Step 5 of Table 16-7. -/
def removalQuench (s : State) : State :=
  let s := quenchPeers 1 s
  let s := { s with mgmt := { s.mgmt with attnEth := [0, 1].map fun p => s.fb (ETH_CTRL p) ETH_CTRL.EN } }
  setPhase 6 ([0, 1].foldl (fun s p => ethDown p (s.fs (ETH_CTRL p) ETH_CTRL.EN 0)) s)
/-- REMOVAL_GRACE_END (steps 3 to 5 of Table 16-7): GRACE has passed when `grace`; the removal goes on once every instance has
committed. -/
def execRemovalGraceEnd (grace : Bool) (s : State) : Res :=
  if s.devState ≠ dsDraining ∨ (phase s ≠ 3 ∧ phase s ≠ 4) then ok s else
  let s := if phase s = 3 ∧ grace ∧ allStopped s = false then setPhase 4 ((List.range 16).foldl (fun s i => seqStop i s) s) else s
  ok (if allStopped s then removalQuench s else s)
/-- What step 6 waits for: staged egress, flits in replay, bulk descriptors. -/
def removalLeft (s : State) : Nat :=
  s.host.stage.foldl (fun n x => n + x.2.length) 0 + s.jports.foldl (fun n x => n + x.2.replay.length) 0 + s.host.jobs.length + s.host.bkq.length
/-- REMOVAL_DRAIN_END (steps 6 and 7 of Table 16-7): `late` when 1 s has passed since step 5. -/
def execRemovalDrainEnd (late : Bool) (s : State) : Res :=
  if s.devState ≠ dsDraining ∨ phase s ≠ 6 then ok s
  else if removalLeft s ≠ 0 ∧ late = false then ok s
  else
    let s := if removalLeft s ≠ 0 then attnLog [removalLeft s] s else s
    let s := setPhase 7 s
    let rank := fun i => if s.fb (JLK_OWNRANK i) JLK_OWNRANK.VALID then 2 ^ 15 + s.fv (JLK_OWNRANK i) JLK_OWNRANK.RANK else 0
    let s := attnLog ((List.range 8).map fun k => rank (2 * k) + rank (2 * k + 1) * 2 ^ 16) s
    ok (setPhase 8 (refreshMap ((List.range 16).foldl (fun s i => s.fs (JLK_OWNRANK i) JLK_OWNRANK.VALID 0) s)))
/-- REMOVAL_QUIET_END (steps 8 and 9 of Table 16-7): QUIET ms have passed with no transit flit. -/
def execRemovalQuietEnd (s : State) : Res := ok (if s.devState = dsDraining ∧ phase s = 8 then removalEnd s else s)

/-! Transceivers (R504, R519) -/

/-- TRANSCEIVER_INSERT: `good` when its CMIS memory shows a module of Table 10-7 of at most 12 W. -/
def execTransceiverInsert (p : EPort) (good : Bool) (s : State) : Res :=
  let s := { s with mgmt := { s.mgmt with cage := sset (fun _ => 0) p.val (if good then 1 else 2) s.mgmt.cage } }
  ok (if good then s else ethDown p.val s)
/-- TRANSCEIVER_REMOVE. -/
def execTransceiverRemove (p : EPort) (s : State) : Res :=
  ok (ethDown p.val { s with mgmt := { s.mgmt with cage := serase p.val s.mgmt.cage } })

/-! LEDs (R501) -/

/-- An LED's pattern. -/
inductive Led where
  | off | amber | green | blue
  /-- Blinking: green, amber, both in turn, or blue, with its rate in tenths of 1 Hz. -/
  | greenHz (r : Nat) | amberHz (r : Nat) | bothHz (r : Nat) | blueHz (r : Nat)
deriving DecidableEq, Repr
/-- STATUS (Table 16-6). -/
def ledStatus (s : State) : Led :=
  let d := s.devState
  if s.fb PWR_FEED_STAT PWR_FEED_STAT.A_OK = false ∧ s.fb PWR_FEED_STAT PWR_FEED_STAT.B_OK = false then .off
  else if d = dsFaultHold then .amber
  else if s.fb MGT_ATTN_STAT MGT_ATTN_STAT.SAFE then .off
  else if d = dsDraining then .greenHz 40
  else if d = dsBringup then .greenHz 20
  else if d = dsStandby then .amberHz 5
  else if s.fb RAS_STAT RAS_STAT.DEGRADED ∨ s.fb RAS_STAT RAS_STAT.EXPOSED then .bothHz 10
  else .green
/-- LOCATE. -/
def ledLocate (s : State) : Led :=
  if s.devState = dsStandby then .off else if s.fb MGT_ATTN_STAT MGT_ATTN_STAT.SAFE then .blue
  else if s.fb MGT_LED MGT_LED.LOCATE then .blueHz 10 else .off
/-- LINK `p`; a link that is down with a good transceiver shows off. -/
def ledLink (p : Nat) (s : State) : Led :=
  let c := sget (fun _ => 0) p s.mgmt.cage
  if s.devState = dsStandby ∨ c = 0 ∨ s.fb (ETH_CTRL p) ETH_CTRL.EN = false then .off
  else if c = 2 then .amber
  else if s.fb (ETH_STATUS p) ETH_STATUS.UP then
    match (s.eth p).frameT with
    | some t => if s.now ≤ t + 50000000 then .greenHz 80 else .green
    | none => .green
  else .off

/-! Firmware update (R505–R509) -/

def fwState (s : State) : Nat := s.fv MGT_FWU_STAT MGT_FWU_STAT.STATE
/-- Table 16-8: component and image of a well-formed firmware image of at most `room` bytes; else CAUSE 5 for a length, 0. -/
def fwParse (b : List Byte) (room : Nat) : Except Nat (Nat × FwImg × Nat) :=
  let w := fun k => imgW b (4 * k)
  let c := w 1
  let n := w 8
  let top := if c = 1 then 0x80000 else if c = 2 then 0x200000 else 0x40000
  if w 0 ≠ 0x57464D4C ∨ c = 0 ∨ c > 4 ∨ w 3 ≥ 256 ∨ (List.range 7).any (fun k => w (9 + k) != 0) then .error 0
  else if n < 160 ∨ n > top ∨ n > room ∨ n > b.length then .error 5
  else .ok (c, ⟨w 2, w 3, [w 4, w 5, w 6, w 7], sha384 (b.take n)⟩, n)
/-- The signature of an image of `n` bytes verifies. -/
def fwSigned (b : List Byte) (n : Nat) : Bool :=
  ecdsaOk Config.firmwareKey (sha384 (b.take (n - 96))) ((b.drop (n - 96)).take 96)
/-- Images of the other components agree with image `f` of component `c`. -/
def fwCompat (c : Nat) (f : FwImg) (s : State) : Bool :=
  [1, 2, 3, 4].all fun d => d == c || (match fwCur d s with
    | some g => decide (g.version ≥ f.compat.getD (d - 1) 0 ∧ f.version ≥ g.compat.getD (c - 1) 0)
    | none => decide (f.compat.getD (d - 1) 0 = 0))
/-- Why an image is not admitted (R506, in the order of R19): code and CAUSE. -/
def fwAdmit (b : List Byte) (room : Nat) (s : State) : Except (Nat × Nat) (Nat × FwImg) :=
  match fwParse b room with
  | .error e => .error (cBAD_ARG, e)
  | .ok (c, f, n) =>
    if s.devState = dsDraining then .error (cREFUSED, 0)
    else if fwSigned b n = false then .error (cREFUSED, 1)
    else if f.svn < minSvn c s then .error (cREFUSED, 2)
    else if fwCompat c f s = false then .error (cREFUSED, 3)
    else if c = 1 ∧ ((List.range 16).any fun i => s.fb (SEC_INST i) SEC_INST.CLAIMED) then .error (cREFUSED, 4)
    else if fwState s ≠ 0 then .error (cRETRY, 0)
    else .ok (c, f)
/-- A transition to state `st` with its FW record. -/
def fwTo (st : Nat) (s : State) : State :=
  let s := s.fs MGT_FWU_STAT MGT_FWU_STAT.STATE st
  let c := s.fv MGT_FWU_STAT MGT_FWU_STAT.COMP
  s.log 0x08 none [c, st, ((s.mgmt.fwu.map (·.2.version)).getD 0), s.fv MGT_FWU_STAT MGT_FWU_STAT.CODE]
def setPend (c : Nat) (f : Option FwImg) (s : State) : State :=
  showFw c { s with pers := { s.pers with fwPend := sset (fun _ => none) c f s.pers.fwPend } }
/-- An admitted update starts. -/
def fwStart (c : Nat) (f : FwImg) (s : State) : State :=
  let s := { s with mgmt := { s.mgmt with fwu := some (c, f) } }
  fwTo 1 (setPend c (some f) ((s.fs MGT_FWU_STAT MGT_FWU_STAT.COMP c).fs MGT_FWU_STAT MGT_FWU_STAT.CAUSE 0))
/-- Activation of component 0x2 (Table 16-10) once the pattern loader is idle. -/
def mpActivate (s : State) : State :=
  if s.pat.cur.isSome then { s with mgmt := { s.mgmt with actWait := true } }
  else
    let s := { s with mgmt := { s.mgmt with actWait := false } }
    if hasStandby s then mpTakeover s else mgtRestart s
/-- Table 16-10 for the component in progress: sessions end for the thimble; the active role moves for the processors. -/
def fwActivate (s : State) : State :=
  match s.mgmt.fwu with
  | some (1, _) => { s with sec := { s.sec with sessions := [], handshake := [] } }
  | some (2, _) => mpActivate s
  | _ => s
/-- The activation of Table 16-10 can have ended: the active role has moved; no partition reset or power request delays it. -/
def fwSettled (s : State) : Bool :=
  !s.mgmt.actWait && !s.dev.hubDown && (match s.mgmt.fwu with
    | some (c, _) => c < 3 || (s.power.reqs.isEmpty && s.fv MGT_RST_STAT MGT_RST_STAT.BUSY == 0)
    | none => false)
/-- The update is over with completion code `code`. -/
def fwIdle (code : Nat) (s : State) : State :=
  let s := (s.fs MGT_FWU_STAT MGT_FWU_STAT.CODE code).fs MGT_FWU_STAT MGT_FWU_STAT.HEALTHY 0
  let s := fwTo 0 s
  { (s.fs MGT_FWU_STAT MGT_FWU_STAT.COMP 0) with mgmt := { s.mgmt with fwu := none } }
/-- The trial is confirmed: pending becomes current and the old current last-known-good. -/
def fwConfirm (s : State) : State :=
  match s.mgmt.fwu with
  | none => s
  | some (c, f) =>
    let p := s.pers
    let p := { p with fwLkg := sset factoryFw c (fwCur c s) p.fwLkg, fwCur := sset factoryFw c (some f) p.fwCur, fwPend := serase c p.fwPend, fwLast := c }
    fwIdle cOK (showFw c { s with pers := p })
/-- The update falls back with CAUSE `cause`. -/
def fwFall (cause : Nat) (s : State) : State :=
  if fwState s ≠ 2 ∧ fwState s ≠ 3 then s else
  fwActivate (fwTo 4 ((s.fs MGT_FWU_STAT MGT_FWU_STAT.CAUSE cause).fs MGT_FWU_STAT MGT_FWU_STAT.HEALTHY 0))
/-- The effect of MGT_FWU_CTRL.GO with image `b` of which `room` bytes may be used, and its code. -/
def fwGo (b : List Byte) (room : Nat) (s : State) : Nat × State :=
  match fwAdmit b room s with
  | .ok (c, f) => (cOK, fwStart c f s)
  | .error (code, cause) =>
    let s := if cause = 1 then secLog none [4, 0] s else s
    (code, if fwState s = 0 ∧ cause ≠ 0 then s.fs MGT_FWU_STAT MGT_FWU_STAT.CAUSE cause else s)
/-- A write of MGT_FWU_CTRL (R506–R508, R512): the first of GO, CONFIRM, ABORT and RAISE_SVN that is written 1 acts. -/
def writeFwuCtrl (q : Req) (v : Nat) (s : State) : State :=
  onMgt q (fun s =>
    let put := fun (s : State) => (s.fs MGT_FWU_CTRL MGT_FWU_CTRL.AUTOCONF (bits v 3 1)).done q cOK [] false
    let a := s.fv MGT_FWU_SRC MGT_FWU_SRC.ADDR
    let n := s.fv MGT_FWU_LEN MGT_FWU_LEN.LEN
    if q == .fm then s.done q cREFUSED [] false
    else if bit v 0 then
      if a % 64 ≠ 0 then s.done q cBAD_ARG [] false else
      let (code, s) := fwGo (modRead a (if n < 0x200000 then n else 0x200000) s) n s
      if code = cOK then put s else s.done q code [] false
    else if bit v 1 then
      if s.fb MGT_FWU_STAT MGT_FWU_STAT.HEALTHY = false then s.done q cRETRY [] false else put (fwConfirm s)
    else if bit v 2 then put (fwFall 0 s)
    else if bit v 4 then
      if fwState s ≠ 0 then s.done q cREFUSED [] false else
      let c := s.pers.fwLast
      match fwCur c s with
      | some f =>
        if c = 0 then put s else
        put (showFw c { s with pers := { s.pers with minSvn := sset (fun _ => 0) c f.svn s.pers.minSvn } })
      | none => put s
    else put s) s
/-- FWU_GO (R506, R509): a write of MGT_FWU_CTRL with GO = 1, or `side` the image that PLDM brings over the sideband. In Fault-Hold with
FHCAUSE = 0x1 the thimble takes an image of component 0x2 on the sideband alone and activates it by a device reset. -/
def execFwuGo (q : Req) (v : Word) (side : Option (List Byte)) (b : Boot) (s : State) : Res :=
  match side with
  | none => ok (writeFwuCtrl q (setBits v.toNat 0 1 1) s)
  | some img =>
    if s.devState = dsFaultHold ∧ s.fv MGT_BOOT_STAT MGT_BOOT_STAT.FHCAUSE = 1 then
      match fwAdmit img img.length s with
      | .ok (2, f) =>
        let s := { s with pers := { s.pers with fwCur := sset factoryFw 2 (some f) s.pers.fwCur } }
        ok (deviceReset 3 b (s.emit (.mgmt 3 [cOK])))
      | .ok _ => ok (s.emit (.mgmt 3 [cREFUSED]))
      | .error (code, _) => ok (s.emit (.mgmt 3 [code]))
    else if s.dev.hubDown then ok (s.emit (.mgmt 3 [cRETRY]))
    else
      let (code, s) := fwGo img img.length s
      ok (s.emit (.mgmt 3 [code]))
/-- FWU_STAGING_DONE (R507): `good` when the image read back compares. -/
def execFwuStagingDone (good : Bool) (s : State) : Res :=
  if fwState s ≠ 1 then ok s
  else if good then ok (fwActivate (fwTo 2 s))
  else
    match s.mgmt.fwu with
    | some (c, _) => ok (fwIdle cCHECK_FAIL (setPend c none s))
    | none => ok s
/-- FWU_ACTIVATION_DONE (R507). -/
def execFwuActivationDone (s : State) : Res :=
  if fwState s ≠ 2 ∨ fwSettled s = false then ok s else
  match s.mgmt.fwu with
  | some (c, f) => ok (fwTo 3 (measExtend c f.digest (s.fs MGT_FWU_STAT MGT_FWU_STAT.HEALTHY 1)))
  | none => ok s
/-- FWU_CONFIRM, FWU_ABORT, RAISE_SVN: writes of MGT_FWU_CTRL. -/
def execFwuConfirm (q : Req) (v : Word) (s : State) : Res := ok (writeFwuCtrl q (bits v.toNat 3 1 * 8 + 2) s)
def execFwuAbort (q : Req) (v : Word) (s : State) : Res := ok (writeFwuCtrl q (bits v.toNat 3 1 * 8 + 4) s)
def execRaiseSvn (q : Req) (v : Word) (s : State) : Res := ok (writeFwuCtrl q (bits v.toNat 3 1 * 8 + 16) s)
/-- FWU_WINDOW_END (R507, R508). -/
def execFwuWindowEnd (s : State) : Res :=
  if fwState s ≠ 3 then ok s
  else if s.fb MGT_FWU_CTRL MGT_FWU_CTRL.AUTOCONF then ok (fwConfirm s) else ok (fwFall 7 s)
/-- FWU_UNIT_FAULT (R507). -/
def execFwuUnitFault (s : State) : Res := ok (fwFall 6 s)
/-- FWU_FALLBACK_DONE (R507). -/
def execFwuFallbackDone (s : State) : Res :=
  if fwState s ≠ 4 ∨ fwSettled s = false then ok s else
  match s.mgmt.fwu with
  | some (c, _) =>
    let s := match fwCur c s with
      | some g => measExtend c g.digest s
      | none => s
    ok (fwIdle (if s.fv MGT_FWU_STAT MGT_FWU_STAT.CAUSE = 7 then cTIMEOUT else cABORTED) (setPend c none s))
  | none => ok s

end Sys2Proof.Machine
end

