-- ==== Sys2Proof/Machine/Elec.lean ====
section
/-! DEFINITION. Pins and temperatures (chapter 17): PERST_N, BRD_RST_N, PWR_EN, throttling, thermal shutdown, the sideband. -/
namespace Sys2Proof.Machine

/-- PERST_ASSERT (R515): PERST_N has been low for 100 µs; no instance is reset. -/
def execPerstAssert (s : State) : Res :=
  let s := s.setPin pinPERST_N false
  if s.devState = dsStandby then ok s
  else ok ((flrPf { s with power := { s.power with hostRst := true } }).fs HOST_LINK HOST_LINK.UP 0)
/-- PERST_DEASSERT (R515): the rising edge. In Standby it is wake source 1; otherwise the host port trains to the rate, width and mode
that `link` gives as HOST_LINK fields. -/
def execPerstDeassert (link : Word) (b : Boot) (s : State) : Res :=
  let s := s.setPin pinPERST_N true
  if s.devState = dsStandby then ok (wakeSource 1 b s)
  else
    let s := { s with power := { s.power with hostRst := false } }
    if bit (s.fv PWR_STATUS PWR_STATUS.ON) 2 then
      ok ((s.wrFlds HOST_LINK link.toNat [HOST_LINK.RATE, HOST_LINK.WIDTH, HOST_LINK.FLIT, HOST_LINK.L0PW]).fs HOST_LINK HOST_LINK.UP 1)
    else ok s
/-- BOARD_RESET (R516): a low pulse of BRD_RST_N of at least 10 µs, up to and with its rising edge. -/
def execBoardReset (b : Boot) (s : State) : Res := ok ((deviceReset 2 b s).setPin pinBRD_RST_N true)

/-- PWR_EN_RISE (R517): wake source 0; a Standby request that waits is withdrawn. -/
def execPwrEnRise (b : Boot) (s : State) : Res :=
  let s := s.setPin pinPWR_EN true
  ok (wakeSource 0 b { s with power := { s.power with standbyPend := false } })
/-- PWR_EN_FALL (R517). -/
def execPwrEnFall (s : State) : Res :=
  let s := s.setPin pinPWR_EN false
  if s.devState = dsReady ∨ s.devState = dsFaultHold then ok (enterStandby s)
  else if s.devState = dsStandby then ok s
  else ok { s with power := { s.power with standbyPend := true } }

/-! Throttling (R526) -/

/-- THROT follows the throttles in force, and every present cluster whose speed differs from them is to change at its switch point. -/
def thermApply (s : State) : State :=
  let dev := s.fb MGT_THERM_STAT MGT_THERM_STAT.DEVTHR
  let on := fun (p : Nat) => dev || s.power.thr.contains p
  let s := s.fs MGT_THERM_STAT MGT_THERM_STAT.THROT ((List.range 4).foldl (fun v p => v + b2n (on p) * 2 ^ p) 0)
  (present (List.range 64) s).foldl (fun s c =>
    let w := on (partOf c)
    let r := s.power.halfReq.filter fun x => x.1 != c
    { s with power := { s.power with halfReq := if s.power.half.contains c == w then r else r ++ [(c, w)] } }) s
/-- THERMAL_THROTTLE_ENTER (R525, R526): sensor 1 + p has held TPT, or sensor 0 its critical point, for 10 ms. -/
def execThermalThrottleEnter (p : Option (Fin 4)) (s : State) : Res :=
  match p with
  | some p =>
    if s.fb MGT_THERM_CTRL MGT_THERM_CTRL.EN = false ∨ sensor (1 + p.val) s < s.fv MGT_THERM_CTRL MGT_THERM_CTRL.TPT * 8
        ∨ s.power.thr.contains p.val then ok s
    else ok (sensLog (1 + p.val) 3 (thermApply ({ s with power := { s.power with thr := s.power.thr ++ [p.val] } }.inc MGT_THERM_CNT 1)))
  | none =>
    if sensor 0 s < 105 * 8 ∨ s.fb MGT_THERM_STAT MGT_THERM_STAT.DEVTHR then ok s
    else ok (sensLog 0 3 (thermApply ((s.fs MGT_THERM_STAT MGT_THERM_STAT.DEVTHR 1).inc MGT_THERM_CNT 1)))
/-- THERMAL_THROTTLE_RELEASE (R526): the sensor has stayed below its release point for 1 s. -/
def execThermalThrottleRelease (p : Option (Fin 4)) (s : State) : Res :=
  match p with
  | some p =>
    if sensor (1 + p.val) s < (s.fv MGT_THERM_CTRL MGT_THERM_CTRL.TPT * 8 : Nat) - 40 then
      ok (thermApply { s with power := { s.power with thr := s.power.thr.filter (· != p.val) } })
    else ok s
  | none => if sensor 0 s < 100 * 8 then ok (thermApply (s.fs MGT_THERM_STAT MGT_THERM_STAT.DEVTHR 0)) else ok s

/-- A record that goes to the persistent log whatever its severity. -/
def logPersistent (r : LogRec) (s : State) : State :=
  let dest := logDest r ||| 16
  let (v, s) := s.free
  logSend dest none (log64 s.mgmt.seq 0 (v % 5) dest r) { s with mgmt := { s.mgmt with seq := (s.mgmt.seq + 1) % 2 ^ 32 } }
/-- THERMAL_SHUTDOWN (R525, R527): the die, or the power stage when `stage`, has held its shutdown point for 1 ms. -/
def execThermalShutdown (stage : Bool) (s : State) : Res :=
  let n := if stage then 8 else 0
  let s := { s with power := { s.power with tempHold := s.power.tempHold.filter (· != n) ++ [n] } }
  if s.devState = dsStandby then ok s
  else ok (enterStandby (logPersistent ⟨0x0F, none, [n, s.fv (MGT_SENS n) MGT_SENS.VALUE, 4], s.now⟩ s))

/-- SIDEBAND_SCL_TIMEOUT (R528): SB_SDA is released and the transfer abandoned. -/
def execSidebandSclTimeout (s : State) : Res := ok (s.drive pinSB_SDA true)

end Sys2Proof.Machine
end

