-- ==== Sys2Proof/Machine/Flags.lean ====
section
/-! DEFINITION. What a write leaves in a field and what a read returns of it, by its access code (R6, R7, Table 0-3): read-write
fields, sticky bits that a 1 clears or sets, fields behind a lock, write-only fields, reserved bits. -/
namespace Sys2Proof.Machine

/-- The field `f` after a write of `x` to it while it holds `old`; `lock` when its lock is set. -/
def fldWrite (lock : Bool) (f : Fld) (old x : Nat) : Nat :=
  match f.acc with
  | .rw => x
  | .ro => old
  | .wo => old
  | .w1c => old - (old &&& x)
  | .w1s => old ||| x
  | .rc => old
  | .rwl => if lock then old else x
/-- The register that held `old` after a write of `v`: reserved bits and read-only fields ignore it (R6, R7). -/
def regWrite (lock : Bool) (l : List Fld) (old v : Nat) : Nat :=
  l.foldl (fun r f => setBits r f.lo f.w (fldWrite lock f (bits old f.lo f.w) (bits v f.lo f.w))) old
/-- What a read returns of field `f`: a write-only field reads 0. -/
def fldRead (f : Fld) (x : Nat) : Nat :=
  match f.acc with
  | .wo => 0
  | _ => x
/-- What a read returns of the register that holds `v`: reserved bits read 0 (R7). -/
def regRead (l : List Fld) (v : Nat) : Nat := l.foldl (fun r f => setBits r f.lo f.w (fldRead f (bits v f.lo f.w))) 0
/-- What is left of the register after a read: a field that reading clears is 0 (Table 0-3). -/
def regAfterRead (l : List Fld) (v : Nat) : Nat :=
  l.foldl (fun r f => match f.acc with
    | .rc => setBits r f.lo f.w 0
    | _ => r) v
/-- The two words of a 64-bit pair. -/
def loWord (v : Nat) : Nat := v % 2 ^ 32
def hiWord (v : Nat) : Nat := v / 2 ^ 32 % 2 ^ 32
/-- Byte lanes of a word: `n` bytes from byte `o` (R9). -/
def byteLanes (v o n : Nat) : Nat := v / 2 ^ (8 * o) % 2 ^ (8 * n)

end Sys2Proof.Machine
end

