-- ==== Sys2Proof/Machine/PatReg.lean ====
section
/-! DEFINITION. The pattern loader's request registers (R373, R388): admission of a request and of a write of PAT_AUTO. -/
namespace Sys2Proof.Machine

/-- The requester's copy of the PAT request registers; the fabric manager has the physical function's (R331, R388). -/
def patCopy (q : Req) : Nat :=
  match q with
  | .fm => reqIx .pf
  | _ => reqIx q
/-- A register of the PAT block that virtual functions do not reach (R388). -/
def onPat (q : Req) (f : State → State) (s : State) : State := s.hub q 0 fun s => if isVf q then s.cross q else f s
/-- The requester's own request is queued or busy. -/
def patBusy (n : Nat) (s : State) : Bool := s.fb (PAT_STAT n) PAT_STAT.BUSY || s.fb (PAT_STAT n) PAT_STAT.QUEUED
/-- Operations of PAT_CTRL.OP. -/
def opLoad : Nat := 0
def opVerify : Nat := 1
def opStore : Nat := 2
def opUnload : Nat := 3
def opErase : Nat := 4

/-- A write of PAT_CTRL (R373, R388, R472): GO submits the request, which waits until the loader takes it. -/
def writePatCtrl (q : Req) (v : Nat) (s : State) : State :=
  onPat q (fun s =>
    let n := patCopy q
    let op := bits v 1 3
    let go := bit v 0
    let slot := op == opLoad && bit v 10
    let src := s.rd64 (PAT_SRC n)
    if go && op == opUnload && s.conf (bits v 4 4) then s.cross q
    else if go && (s.devState == dsDraining || s.devState == dsFaultHold) then s.done q cREFUSED [] false
    else if go && (decide (op > opErase) || (decide (op ≤ opStore) && !slot && src % 64 != 0)) then s.done q cBAD_ARG [] false
    else if patBusy n s then s.done q cRETRY [] false
    else
      let s := s.wr (PAT_CTRL n) (regWrite false [PAT_CTRL.OP, PAT_CTRL.INST, PAT_CTRL.SLOT, PAT_CTRL.SRCSLOT, PAT_CTRL.RUN] (s.rd (PAT_CTRL n)) v)
      let s := if go then
          let r : PatReq := ⟨some n, op, bits v 4 4, bits v 8 2, slot, bit v 11, src, s.rd (PAT_LEN n)⟩
          { s.fs (PAT_STAT n) PAT_STAT.QUEUED 1 with pat := { s.pat with queue := s.pat.queue ++ [r] } }
        else s
      s.done q cOK [] false) s
/-- A write of PAT_SRC or PAT_LEN, of register value `v` at key `k` with fields `l` (R388). -/
def writePatArg (q : Req) (k : Nat) (pair : Bool) (l : List Fld) (v : Nat) (s : State) : State :=
  onPat q (fun s =>
    if patBusy (patCopy q) s then s.done q cRETRY [] false
    else (if pair then s.wr64 k (regWrite false l (s.rd64 k) v) else s.wr k (regWrite false l (s.rd k) v)).done q cOK [] false) s
/-- A write of PAT_AUTO (R388): it completes when the thimble has stored it. -/
def writePatAuto (q : Req) (v : Nat) (s : State) : State :=
  onPat q (fun s =>
    if s.pat.autoWr.isSome then s.done q cRETRY [] false
    else { s with pat := { s.pat with autoWr := some (q, v % 2 ^ 24 - (v % 2 ^ 8 - v % 4)) } }.hold q 0 none none) s
/-- PAT_AUTO_WRITE (R388): the thimble has stored the value of the write that waits. -/
def execPatAutoWrite (s : State) : Res :=
  match s.pat.autoWr with
  | none => ok s
  | some (q, v) => ok ((persReg PAT_AUTO { s.wr PAT_AUTO v with pat := { s.pat with autoWr := none } }).finish q cOK [] false)

end Sys2Proof.Machine
end

