-- ==== Sys2Proof/Machine/Access.lean ====
section
/-! DEFINITION. Configuration-space accesses (R6–R17, R19, R20, R43–R47): what lies at an offset, who may reach it, what a read
returns, what a write does, and the access sizes. -/
namespace Sys2Proof.Machine

/-! What lies at an offset (Tables 1-8, 1-10, 1-11) -/

/-- An offset that a register or a table of GLB occupies, with its place: a register (row, index in it, high word of a pair), a tag
register, a capability entry, a word of the floor-plan map. -/
inductive Spot where
  | reg (l : Loc) (r : RegD) (i : Nat) (hi : Bool)
  | tag (l : Loc)
  | cap (i : Nat)
  | map (o : Nat)
  | empty (l : Option Loc)
deriving DecidableEq, Repr

/-- Offset `a` holds the tag register of a capturing unit (R496). -/
def isTag (a : Nat) (l : Loc) : Bool :=
  tagOffsets.contains a || (l.blk == .cla && l.off == 0xEFFC) || (l.blk == .core && l.off == 0x7FC)
/-- What lies at offset `a`, a multiple of 4. -/
def spot (a : Nat) : Spot :=
  match locate a with
  | none => .empty none
  | some l =>
    if isTag a l then .tag l
    else if l.blk = .glb ∧ 0x1000 ≤ a ∧ a < 0x2000 then .cap ((a - 0x1000) / 4)
    else if l.blk = .glb ∧ 0x4000 ≤ a ∧ a < 0x5580 then .map (a - 0x4000)
    else match findIn l.off (blkRegs l.blk) with
      | some (r, i, h) => .reg l r i (h == 1)
      | none => .empty (some l)
/-- The key of the low word of a register at offset `a` (its low word's, a multiple of 4) as requester `q` sees it: its own copy of a
register that exists once per requester (R16), the instance's copy of a SYNC_STAT register (R188). -/
def regKey (q : Req) (l : Loc) (r : RegD) (a : Nat) (s : State) : Nat :=
  let a := if l.blk = .jlkDev then base_jlkDev + l.off else a
  if r.req = false then a
  else if l.blk = .pat then bankKey (patCopy q) a
  else if l.blk = .sync ∧ l.off ≥ 0x800 then
    bankKey (match q with
      | .vf i => statCopy i.val
      | _ => statCopy (s.fv (SYNC_STAT_CTRL (reqIx q)) SYNC_STAT_CTRL.INST)) a
  else bankKey (reqIx q) a

/-! The capability table (R40, R41) and the floor-plan map (R35, R39) -/

/-- Table 1-8 in the order of its identifiers: the three variants. -/
def capTable : List (Nat × Nat × Nat) :=
  [(1, 1, 1), (0x0400, 0x0300, 0x0200), (1024, 768, 512), (64, 48, 32), (1088, 816, 544), (8192, 8192, 8192), (1572864, 1572864, 1572864),
   (1536, 1152, 768), (163840, 163840, 163840), (65536, 65536, 65536), (64, 64, 64), (16, 16, 16), (4096, 4096, 4096), (12, 8, 6)]
  ++ [(2, 2, 0), (64, 64, 64), (16, 16, 16), (256, 256, 256), (16384, 16384, 16384), (15, 15, 15), (1000, 1000, 1000),
   (0x1FFF, 0x1FFF, 0x1FFF), (128, 128, 128), (8, 8, 8), (0x30100C0C, 0x30100C0C, 0x30100C0C), (16, 16, 16), (2, 2, 2)]
/-- Capability entry `i`; 0 beyond the table. -/
def capVal (i : Nat) (s : State) : Nat :=
  match capTable[i]? with
  | none => 0
  | some (a, b, c) =>
    let v := s.fv GLB_VARIANT GLB_VARIANT.VARIANT
    if v = 0x0300 then b else if v = 0x0200 then c else a
/-- The word at byte offset `o ≥ 0x10` of the map as the physical function sees it. -/
def mapBody (o : Nat) (s : State) : Nat := s.fpmW ((o - 0x10) / 4)
/-- A word of the map as `q` reads it: to a virtual function a cluster of another instance shows its number alone (R39). -/
def mapWord (q : Req) (o : Nat) (s : State) : Nat :=
  if o = 0 then 0x46504D31
  else if o = 4 then 1 + 5504 * 2 ^ 16
  else if o = 8 then s.rd GLB_FPM_GEN
  else if o = 12 then crc32 (wordBytes ((List.range 1372).map fun w => mapBody (0x10 + 4 * w) s))
  else match q with
    | .vf i =>
      if o < 0x1410 ∧ s.clInst ((o - 0x10) / 80) ≠ some i.val then (if (o - 0x10) % 80 < 4 then (o - 0x10) / 80 else 0) else mapBody o s
    | _ => mapBody o s

/-! Rights (R20, R86, R92, R204, R218, R253, R331, R364, R388, R438, R460, R481, R512, R534, R536) -/

/-- A unit of stage `n` of which a virtual function reaches what `own` admits. -/
def vfGate (q : Req) (n : Nat) (own : Nat → Bool) (f : State → State) (s : State) : State := s.gate q n fun s =>
  match q with
  | .vf i => if own i.val then f s else s.cross q
  | _ => f s
/-- MGT registers a virtual function reaches: its log and fault-record selections, and the boot and throttle states. -/
def mgtVf (o : Nat) (write : Bool) : Bool :=
  [0x908, 0xC0C, 0xC10].contains o || (!write && ([0x504, 0x800, 0xC04, 0xC08].contains o || (0x910 ≤ o && o < 0x930) || (0xC40 ≤ o && o < 0xC80)))
/-- Offset `o` of the MGT block is closed to writes of the fabric manager (R512). -/
def mgtFm (o : Nat) : Bool := o == 4 || (0x20 ≤ o && o < 0x30) || (0x100 ≤ o && o < 0x118)
/-- Device-wide Jarisk registers a virtual function reaches (R331): `o` and index `i` of the row. -/
def jdVf (o i v : Nat) (write : Bool) : Bool :=
  o == 4 || (o == 8 && !write) || (i == v && ((!write && (o == 0x100 || o == 0x300)) || [0x200, 0x208, 0x20C].contains o))
/-- SEC registers a virtual function reaches (R481). -/
def secVf (o i v : Nat) (write : Bool) : Bool :=
  o == 0x100 || (!write && (o == 0x104 || (i == v && [0x40, 0x80, 0xC0].contains o)))
/-- SYNC registers a virtual function reaches (R188, R512). -/
def syncVf (o : Nat) (write : Bool) : Bool := o == 0x1C || o == 0x800 || (!write && (o ≥ 0x800 || o == 0x18 || o == 0x20))
/-- Perform `f` with a management-processor-only register. -/
def mpOnly (q : Req) (only : Bool) (f : State → State) (s : State) : State := if only && q != .mp then s.done q cREFUSED [] false else f s

/-- Endpoint `e` belongs to a fused or failed unit: its window answers as R43 states (R253). -/
def epAbsent (e : Nat) (s : State) : Bool :=
  if 0x12 ≤ e ∧ e ≤ 0x13 then s.dev.fusedEth.contains (e - 0x12)
  else if 0x14 ≤ e ∧ e < 0x20 then s.dev.fusedJlk.contains (e - 0x14)
  else if 0x40 ≤ e ∧ e < 0x80 then (s.cluster (e - 0x40)).dead || (s.cluster (e - 0x40)).fused
  else if 0x80 ≤ e ∧ e < 0xC0 then s.fb (SHM_SL_STAT (e - 0x80)) SHM_SL_STAT.FAILED
  else false
/-- Perform `f`, an access of `q` to the register row at offset `o` (index `i`) of the place `l`, if its rights admit it. `bad`: a
write carries a malformed value (R19). -/
def guardReg (q : Req) (l : Loc) (o i : Nat) (write : Bool) (f : State → State) (s : State) (bad : Bool := false) : State :=
  let held := fun (j : Nat) (g : State → State) (s : State) => s.late q false false (write && loading j s) g
  match l.blk with
  | .glb => s.hub q 0 f
  | .mgt => vfGate q 0 (fun _ => mgtVf o write) (fun s => if write && q == .fm && mgtFm o then s.done q cREFUSED [] false else f s) s
  | .pwr => onPwr q (mpOnly q (write && [0x804, 0x810, 0x814].contains o) f) s
  | .step => onInst q l.unit write false f s
  | .time => vfGate q 5 (fun _ => !write) f s
  | .tmr => onTimer q l.unit write f s
  | .sync => vfGate q 6 (fun _ => syncVf o write) f s
  | .dnet => vfGate q 6 (fun v => o == 0x40 && i == v && !write)
      (mpOnly q (write && (o == 8 || o == 0x100)) (if o = 0x40 then held i f else f)) s
  | .dnetEp => onDev q (State.late q (epAbsent l.unit s) bad false f) s
  | .shm => vfGate q 8 (fun v => o == 0x100 && !write && ownsSlice v i s) (mpOnly q (write && (o == 4 || o == 8)) f) s
  | .shmSl => vfGate q 8 (fun v => !write && ownsSlice v l.unit s) f s
  | .jlk => onJlk q l.unit f s bad
  | .jlkDev => vfGate q 6 (fun v => jdVf o i v write && !s.dev.fusedJlk.contains l.unit)
      (State.late q (s.dev.fusedJlk.contains l.unit) bad false f) s
  | .host => vfGate q 6 (fun v => i == v && !write && (o == 0x40 || o == 0x80)) (if o = 0x40 then held i f else f) s
  | .hostFn => onFn q l.unit write f s
  | .eth => onEth q l.unit write (fun s => if write && isVf q && (o == 0 || o == 8) then s.cross q else f s) s bad
  | .memc => vfGate q 10 (fun v => o == 0x10 && i == v && !write) f s
  | .sec => vfGate q 0 (fun v => secVf o i v write) f s
  | .secKey => onSec q f s
  | .pat => vfGate q 0 (fun v => !write && i == v && (o == 0x40 || o == 0x48)) f s
  | .cla =>
    if o = 0x684 ∧ write = false ∧ (s.cluster l.unit).dead = false ∧ (s.cluster l.unit).fused = false then
      vfGate q 9 (fun v => s.clInst l.unit == some v) f s
    else onCluster q l.unit write (o == 0x680) (o != 0x800) f s bad
  | .core => onCore q l.unit write f s bad
/-- Perform `f`, an access to an unoccupied offset (R8, R45): in the window of one unit the requester must reach the unit; elsewhere, and in
the ranges for internal test registers, every requester is answered. -/
def guardEmpty (q : Req) (a : Nat) (l : Option Loc) (f : State → State) (s : State) : State :=
  match l with
  | none => f s
  | some l =>
    match l.blk with
    | .step => onInst q l.unit false false f s
    | .tmr => onTimer q l.unit false f s
    | .shmSl => guardReg q l 0 0 false f s
    | .jlk => if s.dev.fusedJlk.contains l.unit || a % 0x10000 < 0xF000 then onJlk q l.unit f s else f s
    | .jlkDev => if s.dev.fusedJlk.contains l.unit || a % 0x10000 < 0xF000 then onJlk q l.unit f s else f s
    | .hostFn => onFn q l.unit false f s
    | .eth => if s.dev.fusedEth.contains l.unit || a % 0x10000 < 0xF000 then onEth q l.unit false f s else f s
    | .cla => if s.clGone l.unit || decide (l.off < 0xF000) || decide (l.off ≥ 0x10000) then onCluster q l.unit false false true f s else f s
    | .core => onCore q l.unit false f s
    | _ => f s

/-! Reads -/

/-- The register is in the captured set (R495). -/
def captured (l : Loc) (r : RegD) : Bool :=
  match l.blk with
  | .mgt => false | .pwr => false | .sec => false | .secKey => false | .pat => false | .sync => false
  | .core => r.flds == [cnt32] || r.flds == [cnt64] || [0x18, 0x20, 0x83C, 0x99C, 0x100C].contains r.off
  | .cla => r.flds == [cnt32] || r.flds == [cnt64] || r.off == 0x808
  | .jlk => r.flds == [cnt32] || r.flds == [cnt64] || r.off == 0x20
  | .hostFn => r.flds == [cnt32] || r.flds == [cnt64] || r.off == 0x31C
  | _ => r.flds == [cnt32] || r.flds == [cnt64]
/-- Reads 0 to everyone but the virtual function of a confidential instance (Table 15-8). -/
def confZero (q : Req) (l : Loc) (o : Nat) (s : State) : Bool :=
  !isVf q && (match l.blk with
  | .core =>
    (match s.clInst (l.unit / 32) with
      | some i => s.conf i
      | none => false)
      && ([0x820, 0x824, 0x828, 0x834, 0x840, 0x880, 0xC08, 0xC10, 0x1000, 0x1480].contains o || (0x1500 ≤ o && o < 0x1580))
  | .sync => decide (o > 0x800) && s.conf (s.fv (SYNC_STAT_CTRL (reqIx q)) SYNC_STAT_CTRL.INST)
  | _ => false)
/-- VSEQ of the newest or oldest retained record of the virtual function of instance `i` (R493). -/
def vfLog (i : Nat) (newest : Bool) (s : State) : Nat :=
  let l := s.mgmt.ring.filter fun w => bit (w.getD 4 0) 20 && bits (w.getD 4 0) 16 4 == i && bit (w.getD 4 0) 12
  ((if newest then l.head? else l.getLast?).getD []).getD 1 0
/-- The value of the register at key `k`, both words of a pair, as `q` reads it live. -/
def liveReg (q : Req) (l : Loc) (r : RegD) (k : Nat) (s : State) : Nat :=
  if confZero q l r.off s then 0 else
  let v := regRead r.flds (if r.pair then s.rd64 k else s.rd k)
  match l.blk, q with
  | .glb, .vf _ => if r.off = 0x10 then 0 else v
  | .time, _ => if r.off = 0x10 then timeExt s else v
  | .hostFn, _ => if r.off = 8 ∧ bar2Log l.unit s = 39 then 0 else v
  | .tmr, _ => if r.off = 4 then setBits v 0 1 (b2n (tmrRunning 8 l.unit s)) else v
  | .mgt, .vf i => if r.off = 0xC04 then vfLog i.val true s else if r.off = 0xC08 then vfLog i.val false s else v
  | .sync, .vf _ => v
  | .sync, _ => if r.off = 0x800 then setBits v 4 4 (s.fv (SYNC_STAT_CTRL (reqIx q)) SYNC_STAT_CTRL.INST) else v
  | _, _ => v
/-- The same, or its shadow while the requester reads shadows (R496). -/
def viewReg (q : Req) (l : Loc) (r : RegD) (k : Nat) (s : State) : Nat :=
  if s.fb (SYNC_MEAS_VIEW (reqIx q)) SYNC_MEAS_VIEW.SHADOW && captured l r then
    let w := fun k => (sget resetVal k s.dev.shadow).toNat
    regRead r.flds (if r.pair then w k + 2 ^ 32 * w (k + 4) else w k)
  else liveReg q l r k s
/-- The side effect of a read: a field that reading clears (Table 0-3). The register tables give no field that code. -/
def readEffect (r : RegD) (k : Nat) (s : State) : State :=
  if r.flds.any (fun f => f.acc == .rc) then
    (if r.pair then s.wr64 k (regAfterRead r.flds (s.rd64 k)) else s.wr k (regAfterRead r.flds (s.rd k)))
  else s

/-! Writes -/

/-- A value that the register at offset `o` of the block does not admit. -/
def badValue (l : Loc) (o v : Nat) (s : State) : Bool :=
  match l.blk with
  | .mgt =>
    if o = 0x30 then bits v 9 2 == 3 || decide (bits v 11 4 < 2) || decide (bits v 11 4 > 10)
    else if o = 0x40 then bits v 8 8 == 0
    else if o = 0x114 then bits v 0 16 == 0
    else if o = 0x500 then decide (bits v 4 8 < 85) || decide (bits v 4 8 > 105)
    else if o = 0x804 then bits v 16 4 == 0
    else o == 0x818 && bits v 0 20 == 0
  | .pwr => o == 0x18 && bits v 0 20 == 0
  | .step => (o == 0x18 || o == 0x1C) && decide (v < capVal 0x14 s)
  | .time => (o == 0x2C && (bits v 0 8 == 0 || decide (bits v 0 8 > 200))) || (o == 0x40 && bits v 0 16 == 0)
  | .dnet =>
    (o == 0x10 && bits v 0 24 == 0) || (o == 0x14 && (bits v 0 10 == 0 || decide (bits v 0 10 > 1000))) || ((o == 0x40 || o == 0x80) && bits v 0 8 == 0)
  | .shm => o == 0 && bits v 16 16 == 0
  | .jlk =>
    (o == 0x10 && bits v 0 16 == 0) || (o == 0x18 && (bits v 0 8 == 0 || bits v 8 8 == 0 || bits v 16 8 == 0)) || (o == 0x1C && bits v 8 8 == 0)
  | .hostFn => o == 8 && bits v 30 18 * 2 ^ 30 % 2 ^ bar2Log l.unit s != 0
  | .eth => o == 0x200 && (decide (bits v 11 2 ≥ 2) || decide (bits v 0 11 = 0 ∨ bits v 0 11 > 1100) || decide (bits v 16 8 < 42 ∨ bits v 16 8 > 128))
  | .sec => o == 0x18 && bits v 0 16 == 0
  | .cla => (o == 0x700 && bits v 0 4 == 0) || (o == 0x800 && bits v 8 8 == 0)
  | .core =>
    if o = 0xC then bits v 0 14 % 256 != 0 || bits v 0 14 == 0 || decide (bits v 0 14 > 8192)
    else if o = 0xC4 then decide (bits v 0 17 > 65536)
    else o == 0x804 && (bits v 0 15 == 0 || decide (bits v 0 15 > 16384))
  | _ => false
/-- Fields of the core port at offset `o` that are written only while the core is halted (R87, R139, R189, R254). -/
def haltFields (o : Nat) (r : RegD) : List Fld :=
  if o = 0x800 then [LRN_CTRL.EN, LRN_CTRL.GRAN, LRN_CTRL.SOFT, LRN_CTRL.STOCH, LRN_CTRL.ELIG, LRN_CTRL.UNPICK, LRN_CTRL.STITCH, LRN_CTRL.KEEP_STAMPS]
  else if o = 0x834 then []
  else if 0x804 ≤ o ∧ o < 0x980 then r.flds
  else if o = 0xC00 then [MAC_CTRL.SVEC_EN, MAC_CTRL.SVSH] else []
/-- Registers of the core port that no write reaches while the core is not halted. -/
def haltRegs (o : Nat) : Bool :=
  [0xC, 0x10, 0x14, 0xC0, 0xC4, 0xC8, 0xCC, 0xD0, 0xD4, 0xD8, 0xC08, 0xC0C, 0xC10, 0x1000, 0x1004].contains o || (0x1500 ≤ o && o < 0x1580)
/-- The write is refused in the present state of the requester's own unit. -/
def refusedNow (l : Loc) (r : RegD) (i k v : Nat) (s : State) : Bool :=
  let o := r.off
  match l.blk with
  | .step =>
    [8, 0x18, 0x1C, 0x20, 0x28, 0x44].contains o && (stepState l.unit s != stStopped
      || (o == 8 && (s.partCores l.unit).any fun p => !halted p s))
  | .jlkDev => (o == 0x200 || o == 0x208) && s.fb (JLK_LAND_EN i) JLK_LAND_EN.EN
  | .eth =>
    (o == 8 && s.fb (ETH_CTRL l.unit) ETH_CTRL.EN)
      || ([0x100, 0x140, 0x180, 0x800].contains o && s.fb (ETH_ENC_CTRL l.unit) ETH_ENC_CTRL.EN)
      || ((o == 0x200 || o == 0x400) && s.fb (ETH_EGR_DST l.unit) ETH_EGR_DST.VALID)
  | .core =>
    !halted l.unit s && (haltRegs o || (haltFields o r).any fun f => bits v f.lo f.w != bits (s.rd k) f.lo f.w)
  | _ => false
/-- Instances that an ownership or binding register names before the write and after it (Table 15-7). -/
def namedInsts (l : Loc) (o i v : Nat) (s : State) : List Nat :=
  let two := fun (was : Bool) (a : Nat) (now : Bool) (b : Nat) => (if was then [a] else []) ++ (if now then [b] else [])
  match l.blk with
  | .dnet =>
    if o = 0x100 then two (s.fb (DNET_BLK i) DNET_BLK.VALID && s.fb (DNET_BLK i) DNET_BLK.IVAL) (s.fv (DNET_BLK i) DNET_BLK.INST)
      (bit v 31 && bit v 12) (bits v 8 4) else []
  | .shm => if o = 0x100 then two (s.fb (SHM_OWN i) SHM_OWN.VALID) (s.fv (SHM_OWN i) SHM_OWN.INST) (bit v 4) (bits v 0 4) else []
  | .eth => if o = 8 then two (s.fb (ETH_OWN l.unit) ETH_OWN.VALID) (s.fv (ETH_OWN l.unit) ETH_OWN.INST) (bit v 31) (bits v 0 4) else []
  | .jlkDev => if o = 0x100 ∨ o = 0x200 ∨ o = 0x208 ∨ o = 0x20C then [i] else []
  | _ => []
/-- The instance that the written value makes Active (R469). -/
def activated (l : Loc) (o i v : Nat) : Option Nat :=
  match l.blk with
  | .dnet => if o = 0x100 ∧ bit v 31 ∧ bit v 12 then some (bits v 8 4) else none
  | .shm => if o = 0x100 ∧ bit v 4 then some (bits v 0 4) else none
  | .eth => if o = 8 ∧ bit v 31 then some (bits v 0 4) else none
  | .jlkDev => if (o = 0x100 ∧ bit v 31) ∨ (o = 0x20C ∧ bit v 0) then some i else none
  | _ => none
/-- What the write of `v` brings with it beside the fields; `s0` is the state before the write. -/
def writeEffect (q : Req) (l : Loc) (r : RegD) (i k v : Nat) (s0 s : State) : State :=
  let o := r.off
  let s := match activated l o i v with
    | some j => activate j s
    | none => s
  match l.blk with
  | .glb => if o = 0x40 ∧ bit v 31 then s.fs (GLB_CFG_ERR (reqIx q)) GLB_CFG_ERR.LAST_CODE 0 else s
  | .mgt =>
    if o = 0x30 then (if s.rd k = s0.rd k then s else s.fs TIME_STATUS TIME_STATUS.LOCK 1)
    else if o = 0x804 then persReg k s else s
  | .step =>
    let x := s.inst l.unit
    if o = 0x20 ∨ o = 0x28 then s.wr64 (STEP_SHIFT l.unit) 0
    else if o = 8 then s.setInst l.unit { x with reports := [], reported := none }
    else if o = 0x44 then s.setInst l.unit { x with kids := x.reports.map (·.1) } else s
  | .dnet =>
    if o = 0x100 ∧ s0.fb k DNET_BLK.VALID ∧ s0.fb k DNET_BLK.IVAL
        ∧ (s.rd k ≠ s0.rd k) ∧ s.clPwr (s0.fv k DNET_BLK.CLNUM) ≠ 3 then clearCluster (s0.fv k DNET_BLK.CLNUM) s else s
  | .shm => if o = 0x100 ∧ s0.fb k SHM_OWN.VALID ∧ s.rd k ≠ s0.rd k then clearSlice i s else s
  | .jlkDev => if o = 0 ∨ o = 0x100 then refreshMap s else s
  | .eth =>
    if o = 8 then refreshMap s
    else if o = 0 ∧ s0.fb (ETH_CTRL l.unit) ETH_CTRL.EN ∧ bit v 0 = false then ethDown l.unit s else s
  | .sec => if o = 0x240 then s.wr k v else s
  | .core =>
    if 0x800 ≤ o ∧ o < 0x980 then
      let x := s.core l.unit
      s.setCore l.unit { x with lrnPar := x.lrnPar.filter (· != k - base_core l.unit) }
    else s
  | _ => s
/-- A write of the value `v` (both words of a pair) to a register without an operation of its own, in the order of R19. -/
def writePlain (q : Req) (l : Loc) (r : RegD) (i k v : Nat) (s : State) : State :=
  guardReg q l r.off i true (fun s =>
    let names := namedInsts l r.off i v s
    let mine := match q with
      | .vf j => names.all (· == j.val)
      | _ => false
    if names.any (fun j => s.conf j) && !mine then s.cross q
    else if refusedNow l r i k v s then s.done q cREFUSED [] false
    else if badValue l r.off v s then s.done q cBAD_ARG [] false
    else if names.any (fun j => resetting j s || loading j s) then s.done q cRETRY [] false
    else
      let lock := l.blk == .shm && s.fb SHM_XWIN SHM_XWIN.ACTIVE
      let s1 := if r.pair then s.wr64 k (regWrite lock r.flds (s.rd64 k) v) else s.wr k (regWrite lock r.flds (s.rd k) v)
      (writeEffect q l r i k v s s1).done q cOK [] false) s (badValue l r.off v s)

/-- A write of CLA_PWR_CTRL (R421, R438): SPARE_OFF powers the spare slot off or on. -/
def writeClaPwr (q : Req) (c v : Nat) (s : State) : State :=
  onCluster q c true true true (bad := bits v 4 8 = 0) (fun s =>
    let k := CLA_PWR_CTRL c
    let off := s.fb k CLA_PWR_CTRL.SPARE_OFF
    if isVf q && bit v 2 != off then s.done q cREFUSED [] false
    else if bits v 4 8 = 0 then s.done q cBAD_ARG [] false
    else
      let s := s.wr k (regWrite false [CLA_PWR_CTRL.DOZE_EN, CLA_PWR_CTRL.WAKE_PER, CLA_PWR_CTRL.SPARE_OFF, CLA_PWR_CTRL.DOZE_DLY] (s.rd k) v)
      let s := if bit v 2 == off then s else
        match spareSlot c s with
        | none => s
        | some n =>
          let p := 32 * c + n
          let s := (clearPort p s).setCore p {}
          fpmRewrite [c] [] (if off then (s.fs (CORE_STATE p) CORE_STATE.STATE stIdle).fs (CORE_STATE p) CORE_STATE.HALTED 1
            else (s.fs (CORE_STATE p) CORE_STATE.STATE stOff).clrSram p 0 0x28000)
      s.done q cOK [] false) s

/-- The operation of a register that has its own, at offset `o` (index `i`) of its block. -/
def ownWrite (q : Req) (l : Loc) (o i v : Nat) : Option (State → State) :=
  let u := l.unit
  match l.blk with
  | .mgt =>
    if o = 4 then some (writeMpCtrl q v) else if o = 0x14 then some (writeAttn q v cleanBoot) else if o = 0x100 then some (writeFwuCtrl q v)
    else if o = 0x810 then some (writeRstCtrl q v) else if o = 0x908 then some (writeFrecSel q v) else if o = 0xC0C then some (writeLogSel q v) else none
  | .pwr => if o = 4 then some (writeDevCtrl q v) else if o = 0x10 then some (writePwrReq q v) else if o = 0x810 then some (writeClSw q v) else none
  | .step => if o = 0 then some (writeStepCtrl q u v) else none
  | .time =>
    if o = 0 then some (writeTimeCtrl q v) else if o = 0x20 then some (writeTimeAdj q v) else if o = 0x28 then some (writeTimeRate q v)
    else if o = 0x38 then some (writeTimeTod q v) else none
  | .tmr =>
    if o = 0 then some (writeTmrCtrl q u v) else if o = 0x10 then some (writeTmrCount q u v) else if o = 0x18 then some (writeTmrCmp q u false v)
    else if o = 0x28 then some (writeTmrCmp q u true v) else if o = 0x3C then some (writeTmrOwn q u v) else none
  | .sync => if o = 0 then some (writeMeasCtrl q v) else if o = 0x800 then some (writeStatCtrl q v) else none
  | .dnet => if o = 0x1C then some (writeDnetCntClr q v) else none
  | .shm => if o = 0x18 then some (writeShmClrCtrl q v) else if o = 0x1C then some (writeShmCntClr q v) else none
  | .jlk => if o = 0 then some (writeJlkCtrl q u v) else if o = 0x24 then some (writeJlkCntClr q u v) else none
  | .jlkDev => if o = 4 then some (writeRankCmd q v) else if o = 0xC then some (writeRouteCmd q v) else none
  | .host => if o = 4 then some (writeHostCntClr q v) else if o = 0x80 then some (writeHostEgr q i v) else none
  | .hostFn => if o = 0x110 then some (writeRingCfg q u i v) else none
  | .eth => if o = 0x1A0 then some (writeEncCtrl q u v) else if o = 0x204 then some (writeEthEgrDst q u v) else if o = 0x208 then some (writeEthCntClr q u v) else none
  | .memc => if o = 0x10 then some (writeMemcWin q i v) else if o = 0x14 then some (writeMemcScrub q i v) else none
  | .sec =>
    if o = 4 then some (writeSecPersist q 4 v) else if o = 0x10 then some (writeInstCmd q v) else if o = 0xC0 then some (writeExhSrc q i v)
    else if o = 0x100 then some (writeMeasSel q v) else if o = 0x200 then some (writeDbgCtrl q v) else none
  | .secKey => some (writeSecPersist q (0x400 + 0x80 * u + l.off) v)
  | .pat =>
    if o = 0 then some (writePatCtrl q v) else if o = 8 then some (writePatArg q (PAT_SRC (patCopy q)) true [PAT_SRC.ADDR] v)
    else if o = 0x10 then some (writePatArg q (PAT_LEN (patCopy q)) false [PAT_LEN.LEN] v) else if o = 0x200 then some (writePatAuto q v) else none
  | .cla =>
    if o = 0x400 then some (writeSegmap q u i v) else if o = 0x600 then some (writeClaRst q u v false) else if o = 0x680 then some (writeClaPwr q u v) else none
  | .core =>
    if o = 8 then some (writeCoreCtrl q u v) else if o = 0x1C then some (writeCoreCntClr q u v) else if o = 0xDC then some (writePoolCtrl q u v)
    else if o = 0x1408 then some (dbgCapture q u v) else none
  | _ => none
/-- A write of the value `v` (both words of a pair) to a register. -/
def writeReg (q : Req) (l : Loc) (r : RegD) (i k v : Nat) (s : State) : State :=
  match ownWrite q l r.off i v with
  | some f =>
    if l.blk = .jlkDev ∧ isVf q ∧ s.dev.fusedJlk.contains l.unit then s.cross q
    else if l.blk = .jlkDev then s.late q (s.dev.fusedJlk.contains l.unit) (badValue l r.off v s) false f else f s
  | none => writePlain q l r i k v s

/-! Accesses -/

/-- Run an access apart: its completion, none when it completes later, and the state without it. -/
def quiet (f : State → State) (s : State) : Option Completion × State :=
  let t := f { s with cpl := [] }
  (t.cpl.head?, { t with cpl := s.cpl })
/-- The access completed OK. -/
def wentOk (s s' : State) : Bool :=
  decide (s'.cpl.length > s.cpl.length) && (match s'.cpl.head? with
    | some c => c.code == cOK
    | none => false)
/-- A read of one word of a register without a capture: the word itself, which `pick` reduces to the lanes read. -/
def readWord (q : Req) (l : Loc) (r : RegD) (i : Nat) (hi : Bool) (k : Nat) (pick : Nat → Nat) (s : State) : State :=
  s.keep q k (guardReg q l r.off i false (fun s =>
    let v := viewReg q l r k s
    (readEffect r k s).done q cOK [pick (if hi then hiWord v else loWord v)] false) s)

/-- A 32-bit read of a word of a declared pair (R13). -/
def readHalf (q : Req) (l : Loc) (r : RegD) (i : Nat) (hi : Bool) (k : Nat) (s : State) : State :=
  let low := heldWord s.dev.low (reqIx q) k
  let cap := heldWord s.dev.cap (reqIx q) k
  let s' := guardReg q l r.off i false (fun s =>
    let v := viewReg q l r k s
    if hi then s.done q cOK [cap.getD (hiWord v)] false else (readEffect r k s).done q cOK [loWord v] false) s
  if wentOk s s' = false then s'.hold q k cap low
  else s'.hold q k (if hi then none else some (hiWord (viewReg q l r k s))) low
/-- A 32-bit write of a word of a declared pair (R13): a low word is held; a high word takes effect with it, or alone. -/
def writeHalf (q : Req) (l : Loc) (r : RegD) (i : Nat) (hi : Bool) (k v : Nat) (s : State) : State :=
  let low := heldWord s.dev.low (reqIx q) k
  let cap := heldWord s.dev.cap (reqIx q) k
  if hi then (writeReg q l r i k (low.getD (s.rd k) + v * 2 ^ 32) s).hold q k cap none
  else
    let s' := guardReg q l r.off i true (fun s => s.done q cOK [] false) s
    s'.hold q k cap (if wentOk s s' then some v else low)

/-- Offset `a`, which no register of the place `l` occupies, lies in a range for internal test registers (R44, Table 2-19). -/
def isTest (a : Nat) (l : Option Loc) : Bool :=
  match l with
  | none => false
  | some l =>
    match l.blk with
    | .core => decide (0x1F00 ≤ l.off)
    | .cla => decide (0xF000 ≤ l.off ∧ l.off < 0x10000)
    | _ => decide (0xF000 ≤ a % 0x10000)
/-- The thimble has unlocked the test register at offset `a` to `q` (R8, R480). -/
def testOpen (q : Req) (a : Nat) (l : Option Loc) (s : State) : Bool :=
  isTest a l && (q == .pf || q == .mp) && s.fb SEC_STATUS SEC_STATUS.DBG
/-- The word at an offset that no register occupies (R8): 0, but for an unlocked test register. -/
def emptyWord (q : Req) (a : Nat) (l : Option Loc) (s : State) : Nat :=
  if testOpen q a l s then (sget (fun _ => 0#32) a s.dev.testRegs).toNat else 0
/-- A write there: ignored, but by an unlocked test register, which takes the value (log entry 68). -/
def emptyWrite (q : Req) (a v : Nat) (l : Option Loc) (s : State) : State :=
  if testOpen q a l s then { s with dev := { s.dev with testRegs := sset (fun _ => 0#32) a (BitVec.ofNat 32 v) s.dev.testRegs } } else s

/-- A 32-bit access at offset `a`, a multiple of 4. -/
def access32 (q : Req) (a : Nat) (w : Option Nat) (s : State) : State :=
  match spot a with
  | .empty l => guardEmpty q a l (fun s => match w with
      | some v => (emptyWrite q a v l s).done q cOK [] false
      | none => s.done q cOK [emptyWord q a l s] false) s
  | .tag l => guardEmpty q a (some l) (fun s => s.done q cOK (if w.isSome then [] else [s.rd a]) false) s
  | .cap i => s.hub q 0 fun s => s.done q cOK (if w.isSome then [] else [capVal i s]) false
  | .map o => s.hub q 0 fun s => s.done q cOK (if w.isSome then [] else [mapWord q o s]) false
  | .reg l r i hi =>
    let k := regKey q { l with off := if hi then l.off - 4 else l.off } r (if hi then a - 4 else a) s
    match w with
    | none => if r.pair then readHalf q l r i hi k s else readWord q l r i hi k id s
    | some v => if r.pair then writeHalf q l r i hi k v s else s.keep q k (writeReg q l r i k v s)

/-- A 64-bit access at a multiple of 8 (R12, R14): a declared pair in one, anything else as two accesses, low address first, with the first
code other than OK. -/
def access64 (q : Req) (a : Nat) (w : Option Nat) (s : State) : State :=
  let two := fun (s : State) =>
    let (c1, s) := quiet (access32 q a (w.map loWord)) s
    let (c2, s) := quiet (access32 q (a + 4) (w.map hiWord)) s
    let data := fun (x : Completion) => if w.isNone && x.code != cOK then [0] else x.data
    match c1, c2 with
    | some x, some y =>
      let code := if x.code = cOK then y.code else x.code
      let s := if code = cOK then s else s.fs (GLB_CFG_ERR (reqIx q)) GLB_CFG_ERR.LAST_CODE code
      { s with cpl := ⟨q, code, data x ++ data y, x.slow || y.slow⟩ :: s.cpl }
    | _, _ => s
  match spot a with
  | .reg l r i false =>
    if r.pair then
      let k := regKey q l r a s
      s.keep q k (match w with
        | none => guardReg q l r.off i false (fun s =>
            let v := viewReg q l r k s
            (readEffect r k s).done q cOK [loWord v, hiWord v] false) s
        | some v => writeReg q l r i k v s)
    else two s
  | _ => two s

/-- A narrow or unaligned access (R10, R11): BAD_ARG once, its flags, no effect. -/
def badAccess (q : Req) (narrow unal : Bool) (s : State) : State :=
  let e := GLB_CFG_ERR (reqIx q)
  let s := if narrow then s.fs e GLB_CFG_ERR.NARROW 1 else s
  (if unal then s.fs e GLB_CFG_ERR.UNALIGNED 1 else s).finish q cBAD_ARG [] false
/-- What every access of `n` bytes at `a` that failed, leading from `s` to `t`, has in common: a read returns 0 for each failed word
(R11, R17), and a write to GLB_CFG_ERR leaves LAST_CODE (R47). -/
def settle (q : Req) (a n : Nat) (write : Bool) (s t : State) : State :=
  match madeCode s t with
  | none => t
  | some c =>
    if c = cOK then t else
    let t := if write then t else { t with cpl := t.cpl.modifyHead fun x => if x.data.isEmpty then { x with data := List.replicate ((n + 3) / 4) 0 } else x }
    if write ∧ a / 4 ≤ 0x10 ∧ 0x10 < (a + n + 3) / 4 then
      t.fs (GLB_CFG_ERR (reqIx q)) GLB_CFG_ERR.LAST_CODE (s.fv (GLB_CFG_ERR (reqIx q)) GLB_CFG_ERR.LAST_CODE)
    else t
/-- An access of `n` bytes (1 to 8) at configuration-space offset `a`; `w` is the value a write carries. A narrow or unaligned access is
turned away before every other condition (R19), but for that of an interface in ERROR, which makes none. R10 and R11 name a register;
that they hold at an offset no register occupies too, where R8 speaks of no sizes, is the model's choice (log entry 14). -/
def access (q : Req) (a n : Nat) (w : Option Nat) (s : State) : State :=
  let sized := n == 1 || n == 2 || n == 4 || n == 8
  let unal := !sized || a % n != 0
  let narrow := w.isSome && decide (n < 4)
  let err := match q with
    | .vf i => s.tdiErr (i.val + 1)
    | _ => false
  settle q a n w.isSome s (if (unal || narrow) && !err then badAccess q narrow unal s
  else s.hub q 0 (fun s =>
    if n = 4 then access32 q a (w.map loWord) s
    else if n = 8 then access64 q a w s
    else
      let pick := fun v => byteLanes v (a % 4) n
      match spot (a / 4 * 4) with
      | .reg l r i hi =>
        readWord q l r i hi (regKey q { l with off := if hi then l.off - 4 else l.off } r (if hi then a / 4 * 4 - 4 else a / 4 * 4) s) pick s
      | .tag l => guardEmpty q a (some l) (fun s => s.done q cOK [pick (s.rd (a / 4 * 4))] false) s
      | .cap i => s.done q cOK [pick (capVal i s)] false
      | .map o => s.done q cOK [pick (mapWord q o s)] false
      | .empty l => guardEmpty q a l (fun s => s.done q cOK [pick (emptyWord q (a / 4 * 4) l s)] false) s))

/-- A multicast write (R245): clusters of the selected bands and columns in ascending order; one completion with the first code other
than OK. Only the management processor and the pattern loader make them. -/
def multicast (q : Req) (bands cols o v : Nat) (s : State) : State := s.hub q 0 fun s =>
  if q ≠ .mp ∧ s.dev.loader = false then (if isVf q then s.cross q else s.done q cREFUSED [] false) else
  let l := (List.range 64).filter fun c => bands.testBit (c / 8) && cols.testBit (c % 8)
  let (code, slow, s) := l.foldl (fun (t : Nat × Bool × State) c =>
    let (r, s) := quiet (access32 q (0x1000000 + 0x40000 * c + o / 4 * 4) (some v)) t.2.2
    match r with
    | some x => (if t.1 = cOK then x.code else t.1, t.2.1 || x.slow, s)
    | none => (t.1, t.2.1, s)) (cOK, false, s)
  s.finish q code [] slow

end Sys2Proof.Machine
end

