-- ==== Sys2Proof/Machine/Pattern.lean ====
section
/-! DEFINITION. Pattern images (chapter 11, R465): the container, the verify pass, the full, partial and live load, stored patterns
and auto-load. -/
namespace Sys2Proof.Machine

/-! The container (R365–R368) -/

/-- A section: SEC32 of Table 11-2 and where it begins in the image. -/
structure Sect where
  at' : Nat
  w0 : Nat
  w1 : Nat
  off : Nat
  plen : Nat
  iv : List Byte
  scrc : Nat
deriving DecidableEq, Repr

def sectAt (b : List Byte) (o : Nat) : Sect :=
  ⟨o, imgW b o, imgW b (o + 4), imgW b (o + 8), imgW b (o + 12), (b.drop (o + 16)).take 12, imgW b (o + 28)⟩
def secType (x : Sect) : Nat := bits x.w0 0 8
def secRepl (x : Sect) : Bool := bit x.w0 8
def secEncr (x : Sect) : Bool := bit x.w0 9
def secScope (x : Sect) : Nat := bits x.w0 10 2
def secFirst (x : Sect) : Nat := bits x.w1 0 12
def secCnt (x : Sect) : Nat := bits x.w1 12 12 + 1
/-- LCIDs that a core-scope section names. -/
def secLcids (x : Sect) : List Nat := if secScope x = 1 then (List.range (secCnt x)).map (secFirst x + ·) else []
/-- `n` sections from byte `o`. -/
def sectList (b : List Byte) : Nat → Nat → List Sect
  | 0, _ => []
  | n + 1, o => let x := sectAt b o; x :: sectList b n (o + 32 + x.plen)
def imgLen (b : List Byte) : Nat := imgW b 8
def imgNsec (b : List Byte) : Nat := bits (imgW b 12) 0 16
def imgPid (b : List Byte) : Nat := imgW b 16 + imgW b 20 * 2 ^ 32
def imgBase (b : List Byte) : Nat := imgW b 24 + imgW b 28 * 2 ^ 32
def imgPartial (b : List Byte) : Bool := bit (imgW b 4) 16
def imgLive (b : List Byte) : Bool := bit (imgW b 4) 17
def imgSigned (b : List Byte) : Bool := bit (imgW b 4) 18
def imgSects (b : List Byte) : List Sect := sectList b (imgNsec b) 64
def tCAPREQ : Nat := 1
def tSTRUCT : Nat := 2
def tREGW : Nat := 3
def tCSRAM : Nat := 4
def tSEG : Nat := 5
def tFILL : Nat := 6
def tSLICE : Nat := 7
def tMEM : Nat := 8
def tRANK : Nat := 9
def tSTART : Nat := 0x0A
def tTRAILER : Nat := 0x7F

/-- The payload as stored. -/
def secPayload (b : List Byte) (x : Sect) : List Byte := (b.drop (x.at' + 32)).take x.plen
/-- Plain bytes of a section of an image for instance `i`; none when its tag fails (R387). -/
def secPlain (b : List Byte) (x : Sect) (i : Nat) (s : State) : Option (List Byte) :=
  if secEncr x then
    (if s.fb (SEC_INST i) SEC_INST.PKEY then
      gcmOpen (sget (fun _ => []) i s.sec.pkeys) x.iv ((b.drop x.at').take 28) (secPayload b x)
    else none)
  else some (secPayload b x)
/-- 32-bit words of a byte string. -/
def bytesW (d : List Byte) : List Nat := (List.range (d.length / 4)).map fun k => imgW d (4 * k)
/-- 8-byte entries of a byte string: low word and high word. -/
def entries8 (d : List Byte) : List (Nat × Nat) := (List.range (d.length / 8)).map fun k => (imgW d (8 * k), imgW d (8 * k + 4))
/-- 16-byte entries. -/
def entries16 (d : List Byte) : List (List Nat) := (List.range (d.length / 16)).map fun k => bytesW ((d.drop (16 * k)).take 16)

/-! Checks of the verify pass (Table 11-5 step 1, Table 11-6) -/

/-- A failure: code, cause, section index, LCID. -/
abbrev PatFault := Nat × Nat × Nat × Nat

/-- A field of PIH64 that is reserved or out of range (Table 11-1). -/
def hdrBad (b : List Byte) : Bool :=
  decide (bits (imgW b 4) 20 12 ≠ 0 ∨ bits (imgW b 12) 16 16 ≠ 0 ∨ imgNsec b < 2 ∨ imgPid b = 0 ∨ bits (imgW b 40) 16 16 ≠ 0)
    || (List.range 4).any (fun k => imgW b (44 + 4 * k) != 0) || (imgLive b && !imgPartial b) || (!imgPartial b && imgBase b != 0)
/-- The place of a type in the order of R368; none for a type outside Table 11-3. -/
def secRank (t : Nat) : Option Nat :=
  if t = tCAPREQ then some 0 else if t = tSTRUCT then some 1 else if tREGW ≤ t ∧ t ≤ tRANK then some 2
  else if t = tSTART then some 3 else if t = tTRAILER then some 4 else none
/-- Section `k` of `n` is out of the order of R368, R380 and R381; `prev` is the place of the one before. -/
def orderBad (b : List Byte) (n k : Nat) (prev : Option Nat) (x : Sect) : Bool :=
  match secRank (secType x) with
  | none => true
  | some r =>
    let back := match prev with
      | none => false
      | some p => decide (r < p ∨ (r = p ∧ r ≠ 2))
    let ends := (r == 4) != (k + 1 == n)
    let full := !imgPartial b && ((k == 0 && r != 0) || (k == 1 && r != 1))
    let live := imgLive b && !([tREGW, tRANK, tSTART, tTRAILER].contains (secType x))
    back || ends || full || live || (imgPartial b && r == 1)
/-- A field of SEC32 that is reserved, out of range or does not fit its type (Tables 11-2 and 11-3). -/
def secBad (b : List Byte) (x : Sect) : Bool :=
  let t := secType x
  let sc := secScope x
  let d := x.plen - (if secEncr x then 16 else 0)
  let scopeOk := if [tCSRAM, tSEG, tFILL].contains t then sc == 1 else t == tREGW || sc == 0
  decide (bits x.w0 12 20 ≠ 0 ∨ bits x.w1 24 8 ≠ 0 ∨ sc = 3 ∨ (sc = 0 ∧ x.w1 ≠ 0) ∨ (sc = 2 ∧ secFirst x % 16 ≠ 0) ∨ x.plen % 8 ≠ 0)
    || !scopeOk || (!secEncr x && x.iv.any (· != 0#8)) || (secEncr x && (decide (x.plen < 16) || t == tTRAILER))
    || (!([tCSRAM, tSEG, tSLICE, tMEM].contains t) && x.off != 0)
    || (!secRepl x && decide (d % secCnt x ≠ 0 ∨ d / secCnt x % 8 ≠ 0))
    || decide (x.at' + 32 + x.plen > imgLen b) || (t == tTRAILER && decide (x.at' + 32 + x.plen ≠ imgLen b))
    || (t == tTRAILER && x.plen != (if imgSigned b then 144 else 48))
/-- An entry of the plain payload that is reserved or out of range (Table 11-3). -/
def entryBad (b : List Byte) (x : Sect) (d : List Byte) : Bool :=
  let t := secType x
  let part := if secRepl x then d.length else d.length / secCnt x
  if t = tCAPREQ then (entries8 d).any fun e => bits e.1 18 14 != 0 || decide (bits e.1 16 2 > 1)
  else if t = tSTRUCT then (bytesW d).any fun w => decide (w ≥ 256) && w != 0xFFFFFFFF
  else if t = tFILL then part % 16 != 0 || (entries16 d).any fun w => decide (w.getD 0 0 > 1) || w.getD 1 0 % 4 != 0 || w.getD 2 0 % 4 != 0
  else if t = tRANK then (entries8 d).any fun e => bits e.1 12 4 != 0 || decide (e.2 ≥ 32)
  else if t = tSTART then d.length != 8 || decide (imgW d 0 > 3) || imgW d 4 != 0 || (imgLive b && bit (imgW d 0) 0)
  else t == tSEG && d.length % 4 != 0
/-- A capability entry that the device does not meet (R370). -/
def capFails (e : Nat × Nat) (s : State) : Bool :=
  let c := capVal (bits e.1 0 16) s
  if bits e.1 16 2 = 0 then decide (c < e.2) else c &&& e.2 != e.2
/-- Blocks that a STRUCT payload names. -/
def structBlocks (d : List Byte) : List Nat := ((bytesW d).filter (· != 0xFFFFFFFF)).eraseDups
/-- Blocks of the instance after the load: those of STRUCT, or those it holds for a partial image. -/
def patBlocks (b : List Byte) (i : Nat) (s : State) : List Nat :=
  if imgPartial b then (List.range 256).filter (s.ownsBlk i)
  else match (imgSects b).find? fun x => secType x == tSTRUCT with
    | some x => structBlocks ((secPlain b x i s).getD [])
    | none => []
/-- A block of STRUCT that instance `i` may not have, or an LCID of it that is unavailable (R33, R371). -/
def structFault (i k : Nat) (l : List Nat) (s : State) : Option PatFault :=
  l.findSome? fun n =>
    if s.fb (DNET_BLK n) DNET_BLK.VALID = false then some (cUNSUPPORTED, 0x08, k, 0xFFF)
    else if s.fb (DNET_BLK n) DNET_BLK.IVAL && s.fv (DNET_BLK n) DNET_BLK.INST != i then some (cREFUSED, 0x08, k, 0xFFF)
    else ((List.range 16).find? fun j => (s.pcidOf (16 * n + j)).isNone).map fun j => (cUNSUPPORTED, 0x07, k, 16 * n + j)
/-- Places of the sections that come before section `k`. -/
def prevRank (l : List Sect) (k : Nat) : Option Nat :=
  if k = 0 then none else ((l[k - 1]?).map fun x => secRank (secType x)).getD none
/-- The verify pass over an image of which `avail` bytes are present, for instance `i`: the first failure (Table 11-6). -/
def verify (b : List Byte) (avail i : Nat) (s : State) : Option PatFault :=
  let l := imgSects b
  let ix := (List.range l.length).zip l
  let h := 0xFFFF
  if imgW b 0 ≠ 0x54504D4C ∨ bits (imgW b 4) 0 16 ≠ 1 ∨ crc32 (b.take 60) ≠ imgW b 60 then some (cCHECK_FAIL, 0x01, h, 0xFFF)
  else if imgLen b > avail then some (cBAD_ARG, 0x10, h, 0xFFF)
  else if hdrBad b ∨ bit (imgW b 4) 19 ≠ l.any secEncr then some (cBAD_ARG, 0x05, h, 0xFFF)
  else
    let order := ix.find? fun x => orderBad b l.length x.1 (prevRank l x.1) x.2 || secBad b x.2
    match order with
    | some x => some (cBAD_ARG, 0x05, x.1, 0xFFF)
    | none =>
    match ix.find? fun x => crc32 ((b.drop x.2.at').take 28 ++ secPayload b x.2) != x.2.scrc with
    | some x => some (cCHECK_FAIL, 0x02, x.1, 0xFFF)
    | none =>
    match ix.find? fun x => (secPlain b x.2 i s).isNone with
    | some x => some (cCHECK_FAIL, 0x0F, x.1, 0xFFF)
    | none =>
    match ix.find? fun x => secType x.2 == tTRAILER && sha384 (b.take x.2.at') != (secPayload b x.2).take 48 with
    | some x => some (cCHECK_FAIL, 0x03, x.1, 0xFFF)
    | none =>
    match ix.find? fun x => entryBad b x.2 ((secPlain b x.2 i s).getD []) with
    | some x => some (cBAD_ARG, 0x05, x.1, 0xFFF)
    | none =>
    if bits (imgW b 40) 8 8 > capVal 0 s then some (cUNSUPPORTED, 0x06, h, 0xFFF) else
    match ix.find? fun x => secType x.2 == tCAPREQ && (entries8 ((secPlain b x.2 i s).getD [])).any fun e => capFails e s with
    | some x => some (cUNSUPPORTED, 0x06, x.1, 0xFFF)
    | none =>
    let blks := patBlocks b i s
    match if imgPartial b then none else structFault i 1 blks s with
    | some f => some f
    | none =>
    ix.findSome? fun x => (secLcids x.2).findSome? fun n =>
      if blks.contains (n / 16) = false then some (cBAD_ARG, 0x05, x.1, n)
      else if (s.pcidOf n).isNone then some (cUNSUPPORTED, 0x07, x.1, n) else none

/-! Signatures (R465) -/

/-- The image meets the signature policy for instance `i`. -/
def signatureOk (b : List Byte) (i : Nat) (s : State) : Bool :=
  let conf := s.fb (SEC_INST i) SEC_INST.CONF
  let k := bits (imgW b 40) 0 8
  let t := ((imgSects b).getLast?.map (secPayload b)).getD []
  let key : Option (List Byte) :=
    if k < 8 then (if s.fb (SEC_KEY_VALID k) SEC_KEY_VALID.VALID then some (regBytes (SEC_KEY k 0) 24 s) else none)
    else if k = 0x10 + i ∧ s.fb (SEC_INST i) SEC_INST.SKEY then some (sget (fun _ => []) i s.sec.skeys) else none
  if imgSigned b then
    (match key with
      | some key => ecdsaOk key (t.take 48) (t.drop 48)
      | none => false)
    && (!conf || (k == 0x10 + i && (imgSects b).all fun x => secEncr x || !([tCSRAM, tSEG, tSLICE, tMEM].contains (secType x))))
  else !conf && !s.fb SEC_CFG SEC_CFG.REQSIG

/-! Applying sections (R372, R375, R376) -/

/-- Work of the loader: the code so far, and the state; it stops at the first code other than OK. -/
abbrev LoadRes := Nat × State
def thenLoad (f : State → LoadRes) (t : LoadRes) : LoadRes := if t.1 = cOK then f t.2 else t
/-- Perform `f` for each item until a code is not OK. -/
def forLoad {α : Type} (l : List α) (f : α → State → LoadRes) (s : State) : LoadRes := l.foldl (fun t x => thenLoad (f x) t) (cOK, s)
/-- Complete a pool format that a write of the loader started: the write completes when formatting ends (R118). -/
def poolWait (a : Nat) (s : State) : State :=
  match locate a with
  | some l => if l.blk = .core ∧ (s.core l.unit).poolFmt.isSome then poolFormat l.unit (s.setCore l.unit { s.core l.unit with poolFmt := none }) else s
  | none => s
/-- A register write of the loader, with the rights of the physical function. -/
def loadWrite (a v : Nat) (s : State) : LoadRes :=
  let (c, s) := quiet (access .pf a 4 (some v)) s
  match c with
  | some x => (x.code, s)
  | none => (cOK, poolWait a s)
/-- The register at offset `a` is open to instance-scope REGW for instance `i` (Table 11-4). -/
def regwOpen (i a : Nat) (s : State) : Bool :=
  match spot a with
  | .reg l r n _ =>
    match l.blk with
    | .step => l.unit == i
    | .tmr =>
      (if s.fb (TMR_OWN l.unit) TMR_OWN.VALID then s.fv (TMR_OWN l.unit) TMR_OWN.INST == i else r.off == 0x3C)
    | .dnet => r.off == 0x40 && n == i
    | .shm => r.off == 0x100 && !s.fb (SHM_OWN n) SHM_OWN.VALID
    | .jlkDev => [0x100, 0x200, 0x208, 0x20C].contains r.off && n == i
    | .host => (r.off == 0x40 || r.off == 0x80) && n == i
    | .eth => if s.fb (ETH_OWN l.unit) ETH_OWN.VALID then s.fv (ETH_OWN l.unit) ETH_OWN.INST == i else r.off == 8
    | .memc => r.off == 0x10 && n == i
    | _ => false
  | _ => false
/-- Bytes written in pieces that lie within aligned 256-byte blocks. -/
def loadBytes (f : Nat → WinOp → State → WinRes) (a : Nat) (d : List Byte) (s : State) : LoadRes :=
  forLoad (pieces 256 a d.length) (fun p s =>
    let (c, _, s) := f (a + p.1) (.wr ((d.drop p.1).take p.2)) s
    (c, s)) s
/-- `n` bytes of a repeated 32-bit value. -/
def fillBytes (n v : Nat) : List Byte := (List.range n).map fun k => BitVec.ofNat 8 (v / 2 ^ (8 * (k % 4)))
/-- Bytes into the segment connected to PCID `p`. -/
def loadSeg (p o : Nat) (d : List Byte) (s : State) : LoadRes :=
  match s.segOf p with
  | some g => loadBytes (fun a w s => winSeg .pf (p / 32) g a w s) o d s
  | none => (cUNSUPPORTED, s)
/-- A part of a core-scope section goes to the core of PCID `p`. -/
def applyCore (x : Sect) (p : Nat) (d : List Byte) (s : State) : LoadRes :=
  let t := secType x
  let sram := fun (o : Nat) (d : List Byte) (s : State) => loadBytes (fun a w s => winSram .pf p a w s) o d s
  if t = tREGW then forLoad (entries8 d) (fun e s => if e.1 < 0x2000 then loadWrite (base_core p + e.1) e.2 s else (cREFUSED, s)) s
  else if t = tCSRAM then sram x.off d s
  else if t = tSEG then loadSeg p (4 * x.off) d s
  else forLoad (entries16 d) (fun w s =>
    let l := fillBytes (w.getD 2 0) (w.getD 3 0)
    if w.getD 0 0 = 0 then sram (w.getD 1 0) l s else loadSeg p (w.getD 1 0) l s) s
/-- A rank entry of a RANK section (R310). -/
def loadRank (i : Nat) (e : Nat × Nat) (s : State) : LoadRes :=
  let r := bits e.1 0 12
  let x := bits e.1 16 16 + bits e.2 0 5 * 2 ^ 16
  let (w, s) := rdRank i r s
  if rkValid w && (rkFaddr x != rkFaddr w || rkInst x != rkInst w) && s.fb (STEP_STATUS i) STEP_STATUS.STATE then (cREFUSED, s)
  else (cOK, refreshMap (wrRank i r x s))
/-- An instance-scope section other than START. -/
def applyInst (x : Sect) (i : Nat) (d : List Byte) (s : State) : LoadRes :=
  let t := secType x
  let who : Req := .vf (Fin.ofNat 16 i)
  if t = tREGW then forLoad (entries8 d) (fun e s => if e.1 % 4 = 0 ∧ regwOpen i e.1 s then loadWrite e.1 e.2 s else (cREFUSED, s)) s
  else if t = tSLICE then loadBytes (fun a w s => winAccess who a w s) (shmBase + x.off) d s
  else if t = tMEM then
    (let w := MEMC_WIN i
     if s.fb w MEMC_WIN.EN = false ∨ x.off * 256 + d.length > s.fv w MEMC_WIN.LEN * 2 ^ 28 then (cREFUSED, s)
     else loadBytes (fun a w s => winAccess who a w s) (s.fv w MEMC_WIN.BASE * 2 ^ 28 + x.off * 256) d s)
  else if t = tRANK then forLoad (entries8 d) (fun e s => loadRank i e s) s
  else (cOK, s)
/-- LCIDs that instance `i` holds, ascending. -/
def instLcids (i : Nat) (s : State) : List Nat :=
  (((List.range 256).filter (s.ownsBlk i)).flatMap fun n => (List.range 16).map (16 * n + ·)).filter fun l => (s.pcidOf l).isSome
/-- HALT is set on the core of PCID `p`; the instance is stopped. -/
def patHalt (p : Nat) (s : State) : State :=
  if s.slotGone p then s else
  let s := s.fs (CORE_CTRL p) CORE_CTRL.HALT 1
  if coreState p s ≠ stOff ∧ halted p s = false then enterHalted p s else s
/-- A failure of step 6 or 7: code, cause, LCID. -/
abbrev StepFault := Option (Nat × Nat × Nat)
/-- START (R376): RELEASE releases every core of the instance, RUN starts it; `run` is PAT_CTRL.RUN. The cores of an instance that
this leaves Failed stay halted (R378). -/
def applyStart (i : Nat) (d : List Byte) (run live : Bool) (s : State) : StepFault × State :=
  if run = false then (none, s) else
  let (f, s) := if bit (imgW d 0) 0 then
      (instLcids i s).foldl (fun (t : StepFault × State) l =>
        if t.1.isSome then t else
        match t.2.pcidOf l with
        | none => t
        | some p =>
          let (c, s) := quiet (writeCoreCtrl .pf p (setBits (t.2.rd (CORE_CTRL p)) 0 1 0)) t.2
          let code := (c.map (·.code)).getD cOK
          if code = cOK then (none, s) else (some (if code = cCHECK_FAIL ∨ code = cBAD_ARG then (cBAD_ARG, 0x0C, l) else (code, 0x0B, l)), s)) (none, s)
    else (none, s)
  let back := fun (s : State) => (instLcids i s).foldl (fun s l => match s.pcidOf l with
    | some p => patHalt p s
    | none => s) s
  if f.isSome then (f, back s) else
  if bit (imgW d 0) 1 = false then (none, s) else
  let (c, s) := quiet (writeStepCtrl .pf i (setBits (s.rd (STEP_CTRL i)) 8 1 1)) s
  let code := (c.map (·.code)).getD cOK
  if code = cOK then (none, s) else (some (code, 0x0B, 0xFFF), if live then s else back s)
/-- One section of types 0x03 to 0x0A goes to its targets; the SCRC is tested again on the bytes read (Table 11-5 step 6). -/
def applySect (b : List Byte) (i : Nat) (run : Bool) (x : Sect) (s : State) : StepFault × State :=
  if crc32 ((b.drop x.at').take 28 ++ secPayload b x) ≠ x.scrc then (some (cCHECK_FAIL, 0x02, 0xFFF), s) else
  match secPlain b x i s with
  | none => (some (cCHECK_FAIL, 0x0F, 0xFFF), s)
  | some d =>
    if secType x = tSTART then applyStart i d run (imgLive b) s
    else if secScope x = 2 then (some (cREFUSED, 0x0B, 0xFFF), s)
    else if secScope x = 1 then
      let n := d.length / secCnt x
      ((List.range (secCnt x)).zip (secLcids x)).foldl (fun (t : StepFault × State) y =>
        if t.1.isSome then t else
        match t.2.pcidOf y.2 with
        | none => (some (cUNSUPPORTED, 0x0B, y.2), t.2)
        | some p =>
          let (c, s) := applyCore x p (if secRepl x then d else (d.drop (n * y.1)).take n) t.2
          (if c = cOK then none else some (c, 0x0B, y.2), s)) (none, s)
    else
      let (c, s) := applyInst x i d s
      (if c = cOK then none else some (c, 0x0B, 0xFFF), s)
/-- Perform `f` as the loader: its writes pass the lock of a load and leave the physical function's own access records. -/
def asLoader {α : Type} (f : State → α × State) (s : State) : α × State :=
  let e := GLB_CFG_ERR (reqIx .pf)
  let (a, t) := f { s with dev := { s.dev with loader := true, cap := [], low := [] } }
  (a, { t.wr e (s.rd e) with dev := { t.dev with loader := false, cap := s.dev.cap, low := s.dev.low } })

/-! A load (Table 11-5) -/

def haltBlock (n : Nat) (s : State) : State :=
  (clSlots (s.fv (DNET_BLK n) DNET_BLK.CLNUM)).foldl (fun s p => if (s.lcid p).isSome then patHalt p s else s) s
/-- Step 4: cores halt, blocks that STRUCT does not name are released and cleared (R474), its blocks are claimed. -/
def patClaim (i : Nat) (l : List Nat) (s : State) : State :=
  let held := (List.range 256).filter (s.ownsBlk i)
  let s := (held ++ l.filter fun n => !held.contains n).foldl (fun s n => haltBlock n s) s
  let s := (held.filter fun n => !l.contains n).foldl (fun s n =>
    let c := s.fv (DNET_BLK n) DNET_BLK.CLNUM
    (if s.clPwr c = 3 then s else clearCluster c s).fs (DNET_BLK n) DNET_BLK.IVAL 0) s
  l.foldl (fun s n => (s.fs (DNET_BLK n) DNET_BLK.INST i).fs (DNET_BLK n) DNET_BLK.IVAL 1) s
/-- The core port of `p` returns to reset and its SRAM to 0. -/
def patCore (p : Nat) (s : State) : State :=
  if s.slotGone p then s else
  let off := coreState p s == stOff
  let s := ((clearPort p s).clrSram p 0 0x28000).setCore p {}
  if off then s.fs (CORE_STATE p) CORE_STATE.STATE stOff else s
/-- Step 5: the core ports, the registers of Table 11-4 that `i` holds but for ownership fields, and the rank entries return to reset. -/
def patReset (i : Nat) (s : State) : State :=
  let s := (s.instClusters i).foldl (fun s c => (clSlots c).foldl (fun s p => patCore p s) (clusterWake c s)) s
  let s := s.resetRegs (base_step i) 0x80
  let s := (List.range 8).foldl (fun s n =>
    if s.fb (TMR_OWN n) TMR_OWN.VALID && s.fv (TMR_OWN n) TMR_OWN.INST == i then
      let o := s.rd (TMR_OWN n)
      let s := setTmrFrac n 0 ((s.resetRegs (base_tmr n) 0x80).wr (TMR_OWN n) o)
      { s with dev := { s.dev with tmrFired := s.dev.tmrFired.filter fun k => k / 2 != n } }
    else s) s
  let s := (s.resetRegs (DNET_SHARE i) 4).resetRegs (JLK_OWNRANK i) 4
  let s := ((s.resetRegs (JLK_LAND_BASE i) 16).resetRegs (HOST_PDLY i) 4).resetRegs (HOST_EGR i) 4
  let s := (List.range 2).foldl (fun s n =>
    if s.fb (ETH_OWN n) ETH_OWN.VALID && s.fv (ETH_OWN n) ETH_OWN.INST == i then
      let o := s.rd (ETH_OWN n)
      (s.resetRegs (base_eth n) 0x1000).wr (ETH_OWN n) o
    else s) s
  dropRanks i s
/-- The LOAD of image `b` by request `r` has succeeded (step 8, Table 15-1). -/
def patLoaded (b : List Byte) (r : PatReq) (s : State) : State :=
  let i := r.inst
  let t := ((imgSects b).getLast?.map (secPayload b)).getD []
  let s := measExtend (0x10 + i) (t.take 48) ((setPatState i 2 s).wr64 (PAT_INST_PID i) (imgPid b))
  let s := match r.who with
    | some _ => s
    | none => { s with pat := { s.pat with autoFail := false } }
  patLog (r.who.getD 0) i ((patEnd cOK 0 s).inc PAT_LOADS 1)
/-- What slot and cluster failures among the units of instance `i` come to. -/
def patMark (i : Nat) (s : State) : Nat :=
  (s.instClusters i).foldl (fun a c => a + (s.cluster c).failed.length + 32 * b2n (s.cluster c).dead) 0
def patPhase (r : PatReq) (ph : Nat) (s : State) : State :=
  match r.who with
  | some n => s.wr (PAT_STAT n) (1 + ph * 2 ^ 2)
  | none => s
/-- Steps 3 to 5 of a load, and R380 and R381; the sections follow one by one. -/
def patLoad (b : List Byte) (r : PatReq) (s : State) : State :=
  let i := r.inst
  let st := s.fv (PAT_INST i) PAT_INST.STATE
  let live := imgLive b
  let ready := s.rd64 (PAT_INST_PID i) == imgBase b && (st == 2 || (st == 3 && !live))
  if resetting i s ∨ (live = false ∧ stepState i s ≠ stStopped) then patFail false cREFUSED 0x0A 0xFFF 0xFFFF s
  else if imgPartial b && !ready then patFail false cREFUSED 0x09 0xFFF 0xFFFF s
  else
    let s := activate i s
    let s := if live then s else setPatState i 1 s
    let (_, s) := asLoader (fun s =>
      ((), if live then s
        else if imgPartial b then
          ((imgSects b).flatMap secLcids).foldl (fun s l => match s.pcidOf l with
            | some p => patHalt p s
            | none => s) s
        else patReset i (patClaim i (patBlocks b i s) s))) s
    let s := refreshMap s
    patPhase r 4 { s with pat := { s.pat with image := b, todo := some 0, mark := patMark i s } }

/-! Stored patterns and the other operations (R382, R384) -/

/-- Bytes that a slot other than `k` takes of the pattern area. -/
def areaUsed (k : Nat) (s : State) : Nat :=
  (List.range 4).foldl (fun a j => if j = k then a else a + (match sget (fun _ => none) j s.pers.slots with
    | some x => x.image.length
    | none => 0)) 0
def setSlot (k : Nat) (x : Option PatSlot) (s : State) : State :=
  showSlot k { s with pers := { s.pers with slots := sset (fun _ => none) k x s.pers.slots } }
/-- STORE after the verify pass (R384). -/
def patStore (b : List Byte) (r : PatReq) (s : State) : State :=
  if imgSigned b = false then patFail false cREFUSED 0x04 0xFFF 0xFFFF s
  else if areaUsed r.slot s + b.length > 896 * 2 ^ 20 then patFail false cFULL 0 0xFFF 0xFFFF s
  else patEnd cOK 0 (setSlot r.slot (some ⟨b, r.inst⟩) s)
/-- UNLOAD (R382, R474). -/
def patUnload (r : PatReq) (s : State) : State :=
  let i := r.inst
  if resetting i s ∨ stepState i s ≠ stStopped then patFail false cREFUSED 0x0A 0xFFF 0xFFFF s
  else
    let s := ((List.range 256).filter (s.ownsBlk i)).foldl (fun s n => haltBlock n s) s
    let s := (s.instClusters i).foldl (fun s c => if s.clPwr c = 3 then s else clearCluster c s) s
    let s := (ownedSlices i s).foldl (fun s x => clearSlice x s) s
    patEnd cOK 0 ((setPatState i 0 (dropOwnership i s)).wr64 (PAT_INST_PID i) 0)
/-- Bytes of module memory as requester copy `who` reads them (none: the thimble): the filters of a confidential instance show zeros. -/
def patRead (who : Option Nat) (a n : Nat) (s : State) : List Byte :=
  (List.range n).map fun k =>
    if a + k ≥ 0x2000000000 ∨ (who.isSome ∧ filtered .pf (memWin (a + k) s) s) then 0#8 else modByte (a + k) s
/-- The bytes of the image of request `r`: its header gives the length. -/
def patImage (r : PatReq) (s : State) : List Byte := patRead r.who r.src (let n := imgLen (patRead r.who r.src 64 s); if n < 64 then 64 else n) s
/-- The work after steps 1 and 2. -/
def patVerified (b : List Byte) (r : PatReq) (s : State) : State :=
  let s := match r.who with
    | some n => s.wr (PAT_DONE n) (imgLen b)
    | none => s
  if r.op = opLoad then patLoad (patImage r s) r s
  else if r.op = opStore then patStore b r s
  else patEnd cOK 0 s
/-- A signature that does not meet the policy fails the image (R465, R479). -/
def patSigned (good : Bool) (b : List Byte) (r : PatReq) (s : State) : State :=
  if good then patVerified b r s else secLog (some r.inst) [4, r.inst] (patFail false cREFUSED 0x04 0xFFF 0xFFFF s)
/-- Steps 1 and 2 of the request: an image with a signature waits for the thimble. -/
def patCheck (r : PatReq) (s : State) : State :=
  let b := patImage r s
  let s := s.inc64 MEMC_RD_B b.length
  match verify b r.len r.inst s with
  | some f => patFail false f.1 f.2.1 f.2.2.2 f.2.2.1 s
  | none =>
    if imgSigned b then { patPhase r 2 s with pat := { s.pat with image := b } }
    else patSigned (signatureOk b r.inst s) b r s
/-- The base of the staging range (R385). -/
def stageBase : Nat := 0x1FC0000000
/-- The loader takes request `r`. -/
def patServe (r : PatReq) (s : State) : State :=
  let s := match r.who with
    | some n => ((patPhase r 1 s).wr (PAT_FAIL n) (0xFFF * 2 ^ 8)).wr (PAT_DONE n) 0
    | none => s
  let s := { s with pat := { s.pat with cur := some r, image := [], sigOk := false } }
  if r.op = opErase then patEnd cOK 0 (setSlot r.slot none s)
  else if r.op = opUnload then patUnload r s
  else if r.fromSlot then
    match sget (fun _ => none) r.slot s.pers.slots with
    | none => patFail false cREFUSED 0x11 0xFFF 0xFFFF s
    | some x =>
      let r := { r with inst := x.inst, src := stageBase, len := x.image.length }
      let s := { s with pat := { s.pat with cur := some r } }
      if resetting r.inst s then patFail false cREFUSED 0x0A 0xFFF 0xFFFF s
      else
        let s := modWrite stageBase x.image { s with dev := { s.dev with srcLock := some (stageBase, 0x40000000, none) } }
        patCheck { r with who := r.who } s
  else if resetting r.inst s then patFail false cREFUSED 0x0A 0xFFF 0xFFFF s
  else patCheck r { s with dev := { s.dev with srcLock := some (r.src, r.len, r.who) } }
/-- The next request in arrival order (R373). -/
def patTake (s : State) : State :=
  match s.pat.cur, s.pat.queue with
  | none, r :: t => patServe r { s with pat := { s.pat with queue := t } }
  | _, _ => s

/-- The auto-load entries that remain, up to the first that is loaded: it joins the queue (R386). -/
def autoNext : List Nat → State → State
  | [], s => { s with pat := { s.pat with auto := [] } }
  | e :: t, s =>
    let a := s.rd PAT_AUTO
    let slot := bits a (8 + 4 * e) 2
    if bit a (8 + 4 * e + 3) && !s.pat.autoFail then autoNext t { s with pat := { s.pat with autoFail := false } }
    else match sget (fun _ => none) slot s.pers.slots with
      | none => autoNext t (({ s with pat := { s.pat with autoFail := true } }.inc PAT_FAILS 1).log 0x07 none [cREFUSED * 2 ^ 8, 0x11])
      | some x => { s with pat := { s.pat with auto := t, queue := s.pat.queue ++ [⟨none, opLoad, x.inst, slot, true, bit a 1, 0, 0⟩] } }
/-- An auto-load request runs or waits. -/
def autoBusy (s : State) : Bool := s.pat.cur.any (fun r => r.who.isNone) || s.pat.queue.any fun r => r.who.isNone
/-- What waited for the loader: a management reset, the activation of the processors' image, the next auto-load entry (R403, R386). -/
def patSettle (wasAuto : Bool) (s : State) : State :=
  if s.pat.cur.isSome then s else
  let s := if s.mgmt.mgtrPend then mgtRestart s else s
  let s := if s.mgmt.actWait then mpActivate s else s
  if wasAuto && !autoBusy s then autoNext s.pat.auto s else s
/-- One section of a load in progress (Table 11-5 steps 6 and 7), read again from where the image lies; after the last one step 8. A takeover or
a slot failure among the units of the instance fails a load that halted them (Table 11-6). -/
def patTick (s : State) : State :=
  match s.pat.cur, s.pat.todo with
  | some r, some k =>
    let live := imgLive s.pat.image
    let settle := patSettle r.who.isNone
    if !live && patMark r.inst s != s.pat.mark then settle (patFail true cABORTED 0x0D 0xFFF k s) else
    match (imgSects s.pat.image)[k]? with
    | none => settle (patLoaded s.pat.image r s)
    | some x =>
      let s : State := { s with pat := { s.pat with todo := some (k + 1) } }
      if secType x < tREGW ∨ secType x > tSTART then s else
      let s := if secType x = tSTART then patPhase r 5 s else s
      let (f, s) := asLoader (applySect (patImage r s) r.inst r.run x) s
      let s := refreshMap s
      match f with
      | none => s
      | some f => settle (patFail (!live) f.1 f.2.1 f.2.2 k s)
  | _, _ => s
/-- The loader serves a request that has just found it idle. -/
def patGo (s0 s : State) : State :=
  if s0.pat.cur.isNone && s0.pat.queue.isEmpty && !s.pat.queue.isEmpty then patSettle false (patTake s) else s

/-! Commands -/

/-- A write of PAT_CTRL with GO = 1 and operation `op`. -/
def patWrite (q : Req) (op v : Nat) (s : State) : State := patGo s (writePatCtrl q (setBits (setBits v 0 1 1) 1 3 op) s)
/-- PAT_LOAD (R374). -/
def execPatLoad (q : Req) (v : Word) (s : State) : Res := ok (patWrite q opLoad v.toNat s)
/-- PAT_VERIFY (R377). -/
def execPatVerify (q : Req) (v : Word) (s : State) : Res := ok (patWrite q opVerify v.toNat s)
/-- PAT_STORE (R384). -/
def execPatStore (q : Req) (v : Word) (s : State) : Res := ok (patWrite q opStore v.toNat s)
/-- PAT_UNLOAD (R382). -/
def execPatUnload (q : Req) (v : Word) (s : State) : Res := ok (patWrite q opUnload v.toNat s)
/-- PAT_ERASE (R384). -/
def execPatErase (q : Req) (v : Word) (s : State) : Res := ok (patWrite q opErase v.toNat s)
/-- PAT_REQUEST_START (R373). -/
def execPatRequestStart (s : State) : Res :=
  if s.pat.cur.isSome then ok s else
  let wasAuto := (s.pat.queue.head?).any fun r => r.who.isNone
  ok (patSettle wasAuto (patTake s))
/-- PAT_SIGNATURE_DONE (R465). -/
def execPatSignatureDone (s : State) : Res :=
  match s.pat.cur with
  | none => ok s
  | some r =>
    if s.pat.image = [] ∨ s.pat.todo.isSome then ok s else
    let b := s.pat.image
    ok (patSettle r.who.isNone (patSigned (signatureOk b r.inst s) b r { s with pat := { s.pat with sigOk := signatureOk b r.inst s } }))
/-- AUTO_LOAD_START (R386): the entries left by the Ready gate, the first now. -/
def execAutoLoadStart (s : State) : Res :=
  if (s.devState ≠ dsReady ∧ s.devState ≠ dsServing) ∨ autoBusy s then ok s else
  let t := autoNext s.pat.auto s
  ok (if s.pat.cur.isNone && s.pat.queue.isEmpty && !t.pat.queue.isEmpty then patSettle true (patTake t) else t)

end Sys2Proof.Machine
end

