-- ==== Sys2Proof/Machine/JarRx.lean ====
section
/-! DEFINITION. Fabric-manager and source-routed packets (R321): the record, its request to the control hub, and its response. -/
namespace Sys2Proof.Machine

/-- An FM record of 16 bytes with its FCHK. -/
def fmRecord (op tag code off data : Nat) : List Byte :=
  let b := leBytes 4 (op + tag * 2 ^ 2 + code % 256 * 2 ^ 14) ++ leBytes 4 off ++ leBytes 4 data ++ leBytes 2 0
  b ++ leBytes 2 (crc16 b)
/-- FCHK of a received record is good. -/
def fmOk (b : List Byte) : Bool := crc16 (b.take 14) == bits (imgW b 12) 16 16
/-- The control hub performs a record that arrived on port `p`; the response record, none for a response or while the access waits. -/
def fmPerform (p : Nat) (b : List Byte) (s : State) : Option (List Byte) × State :=
  let w := imgW b 0
  let op := bits w 0 2
  let tag := bits w 2 12
  let off := imgW b 4
  if op = 3 then (some (fmRecord 2 tag cOK (s.rd GLB_ID) (myFaddr s + p * 2 ^ 16)), s)
  else if op = 2 then (none, s)
  else
    let (c, t) := quiet (access .fm off 4 (if op = 1 then some (imgW b 8) else none)) s
    (c.map fun x => fmRecord 2 tag x.code off (x.data.getD 0 0), patGo s t)
/-- FM_RECEIVE (R321). -/
def execFmReceive (p : JPort) (s : State) : Res :=
  let n := p.val
  match rxMine n 0 jkFM s with
  | none => ok s
  | some (w0, _, b) =>
    let s := rxPop n 0 s
    if s.fb (JLK_CTRL n) JLK_CTRL.FM_EN = false ∨ b.length < 16 then ok (s.inc (JLK_RX_BAD n) 1)
    else if !fmOk b then ok (s.inc (JLK_RX_CHKERR n) 1)
    else
      let a := bits w0 16 16
      match fmPerform n (b.take 16) s with
      | (none, s) => ok s
      | (some r, s) =>
        match routeTo a s with
        | (none, s) => ok (s.inc (JLK_TX_UNROUTE n) 1)
        | (some q, s) => ok (stageMgt q (mkPk a jkFM 0 0 0 r s) flowTR s)

/-- Nibble `k` of a ROUTE or RET word. -/
def hop (w k : Nat) : Nat := bits w (8 + 4 * k) 4
/-- The body of a source-routed packet: HOPS, PTR, ROUTE and RET nibbles, record. -/
def srmBody (hops ptr : Nat) (route ret : Nat → Nat) (rec16 : List Byte) : List Byte :=
  let nib := fun (f : Nat → Nat) => (List.range 12).foldl (fun a k => a + f k % 16 * 2 ^ (8 + 4 * k)) 0
  leBytes 8 (hops + ptr * 2 ^ 4 + nib route) ++ leBytes 8 (nib ret) ++ rec16
/-- SRM_RECEIVE (R321): the record is delivered at the last hop and its response goes back; at another hop the packet received goes on, its
header as it came, with RET and PTR written. -/
def execSrmReceive (p : JPort) (s : State) : Res :=
  let n := p.val
  match rxMine n 0 jkSRM s with
  | none => ok s
  | some (w0, w1, b) =>
    let s := rxPop n 0 s
    let w := imgW b 0 + imgW b 4 * 2 ^ 32
    let r := imgW b 8 + imgW b 12 * 2 ^ 32
    let hops := bits w 0 4
    let ptr := bits w 4 4
    let rc := (b.drop 16).take 16
    let out := hop w ptr
    if s.fb (JLK_CTRL n) JLK_CTRL.FM_EN = false ∨ b.length < 32 ∨ hops = 0 ∨ hops > 12 ∨ ptr > hops then ok (s.inc (JLK_RX_BAD n) 1)
    else if ptr = hops then
      if !fmOk rc then ok (s.inc (JLK_RX_CHKERR n) 1)
      else
        match fmPerform n rc s with
        | (none, s) => ok s
        | (some a, s) =>
          ok (stageMgt n (mkPk 0xFFFF jkSRM 0 0 0 (srmBody hops 0 (fun k => if k < hops then hop r (hops - 1 - k) else 0) (fun _ => 0) a) s) flowTR s)
    else if out ≥ 12 ∨ s.dev.fusedJlk.contains out then ok (s.inc (JLK_RX_BAD n) 1)
    else
      let w := setBits w 4 4 (ptr + 1)
      let r := setBits r (8 + 4 * ptr) 4 n
      ok (stageMgt out (.pk w0 w1 (leBytes 8 w ++ leBytes 8 r ++ b.drop 16)) flowTR s)

end Sys2Proof.Machine
end

