-- ==== Sys2Proof/Machine/AccessFam.lean ====
section
/-! DEFINITION. The configuration-space access commands (R6–R14, R20, R47, R245). -/
namespace Sys2Proof.Machine

/-- An access of `n` bytes at offset `a`, with what it starts in an idle pattern loader. -/
def cfgAccess (q : Req) (a n : Nat) (w : Option Nat) (s : State) : Res := ok (patGo s (access q a n w s))
/-- REGISTER_WRITE (R6). -/
def execRegisterWrite (q : Req) (a v : Word) (s : State) : Res := cfgAccess q a.toNat 4 (some v.toNat) s
/-- UNOCCUPIED_OFFSET_ACCESS (R8). -/
def execUnoccupiedOffsetAccess (q : Req) (a : Word) (w : Option Word) (s : State) : Res := cfgAccess q a.toNat 4 (w.map (·.toNat)) s
/-- RC_READ (R9): an aligned read of 1, 2 or 4 bytes. -/
def execRcRead (q : Req) (a : Word) (n : Fin 3) (s : State) : Res := cfgAccess q a.toNat (2 ^ n.val) none s
/-- NARROW_WRITE (R10): a write of 1, 2 or 3 bytes. -/
def execNarrowWrite (q : Req) (a : Word) (n : Fin 3) (v : Word) (s : State) : Res := cfgAccess q a.toNat (n.val + 1) (some v.toNat) s
/-- UNALIGNED_ACCESS (R11): an access of 1 to 8 bytes. -/
def execUnalignedAccess (q : Req) (a : Word) (n : Fin 8) (w : Option DWord) (s : State) : Res :=
  cfgAccess q a.toNat (n.val + 1) (w.map (·.toNat)) s
/-- PAIR_ATOMIC_ACCESS (R12). -/
def execPairAtomicAccess (q : Req) (a : Word) (w : Option DWord) (s : State) : Res := cfgAccess q a.toNat 8 (w.map (·.toNat)) s
/-- PAIR_LOW_READ (R13). -/
def execPairLowRead (q : Req) (a : Word) (s : State) : Res := cfgAccess q a.toNat 4 none s
/-- PAIR_HIGH_READ (R13). -/
def execPairHighRead (q : Req) (a : Word) (s : State) : Res := cfgAccess q a.toNat 4 none s
/-- PAIR_LOW_WRITE (R13). -/
def execPairLowWrite (q : Req) (a v : Word) (s : State) : Res := cfgAccess q a.toNat 4 (some v.toNat) s
/-- PAIR_HIGH_WRITE (R13). -/
def execPairHighWrite (q : Req) (a v : Word) (s : State) : Res := cfgAccess q a.toNat 4 (some v.toNat) s
/-- SPLIT_64_ACCESS (R14). -/
def execSplit64Access (q : Req) (a : Word) (w : Option DWord) (s : State) : Res := cfgAccess q a.toNat 8 (w.map (·.toNat)) s
/-- CROSS_INSTANCE_REFUSAL (R20): an access that a partition boundary refuses completes REFUSED after 2 µs. -/
def execCrossInstanceRefusal (q : Req) (a : Word) (w : Option Word) (s : State) : Res := cfgAccess q a.toNat 4 (w.map (·.toNat)) s
/-- CLR_LAST (R47): a write of GLB_CFG_ERR with CLR_LAST = 1. -/
def execClrLast (q : Req) (v : Word) (s : State) : Res := cfgAccess q (base_glb + 0x40) 4 (some (setBits v.toNat 31 1 1)) s
/-- MULTICAST_WRITE (R245): offset `o` of every selected cluster. -/
def execMulticastWrite (q : Req) (bands cols : Byte) (o : BitVec 18) (v : Word) (s : State) : Res :=
  ok (patGo s (multicast q bands.toNat cols.toNat o.toNat v.toNat s))

/-! Device addresses in configuration space (Table 1-9) -/

/-- An access to device address `a`: configuration space under R9–R14, or a memory window (R15, R42). One of more than 8 bytes in
configuration space has no size to which it could be aligned (R11). -/
def devAccess (q : Req) (a : Nat) (o : WinOp) (s : State) : WinRes :=
  if 0x4300000000 ≤ a ∧ a + winLen o ≤ 0x4400000000 then
    let w := match o with
      | .rd _ => none
      | .wr d => some (leNat d)
    let (x, t) := quiet (fun s => patGo s (access q (a - 0x4300000000) (winLen o) w s)) s
    match x with
    | none => (cOK, [], t)
    | some x => (x.code, if x.code = cOK then ((x.data.flatMap fun v => leBytes 4 v).take (winLen o)) else List.replicate (winLen o) 0#8, t)
  else winPieces q a o s
/-- MEMORY_WINDOW_ACCESS (R15, R43); an address of configuration space is accessed as such (R42). -/
def execMemoryWindowAccess (q : Req) (a : BitVec 48) (o : WinOp) (s : State) : Res :=
  ok (memDone q (if 0x4300000000 ≤ a.toNat ∧ a.toNat + winLen o ≤ 0x4400000000 then devAccess q a.toNat o s else winAccess q a.toNat o s))
/-- BAR2_TLP (R334): an access at offset `x`; `link` 1 when a module-memory transfer was corrected, 2 when a read failed twice. The
whole range is checked on the present state first, and nothing is performed when any part fails; a failed access to configuration
space leaves what R10, R11 and R17 record of it. -/
def execBar2Tlp (f : Fin 17) (x : BitVec 39) (o : WinOp) (link : Fin 3) (s : State) : Res :=
  let q := fnReq f
  let sz := bar2Log f.val s
  if winLen o = 0 ∨ x.toNat + winLen o > 2 ^ sz then ok s else
  let busy := match q with
    | .vf i => resetting i.val s
    | _ => false
  let base := if sz = 39 then 0 else s.fv (HOST_APER f.val) HOST_APER.BASE * 2 ^ 30
  let a := base + x.toNat
  let rsp := fun (l : List Byte) (s : State) => match o with
    | .rd _ => { s with cpl := ⟨q, cOK, l.map (·.toNat), false⟩ :: s.cpl }
    | .wr _ => s
  let zero := List.replicate (winLen o) 0#8
  if s.tdiErr f.val then ok (rsp zero (barFail f.val cREFUSED s))
  else if s.devState = dsStandby ∨ s.devState = dsBringup then ok (rsp zero (barFail f.val cRETRY s))
  else if busy then ok (rsp zero (barFail f.val cDRAINING s))
  else
    let (code, l, t) := devAccess q a o s
    let cfg := decide (0x4300000000 ≤ a)
    match o with
    | .rd _ =>
      let (code, t) := linkEcc a link.val code t
      ok (if code = cOK then rsp l t else rsp zero (barFail f.val code (if code = cCHECK_FAIL ∨ cfg then t else s)))
    | .wr _ =>
      ok (if code = cOK then (linkEcc a (if link.val = 2 then 0 else link.val) code t).2 else barFail f.val code (if cfg then t else s))

end Sys2Proof.Machine
end

