-- ==== Sys2Proof/Machine/Dispatch.lean ====
section
/-! DEFINITION. The dispatch: one arm per command, one direct call of its meaning. -/
namespace Sys2Proof.Machine

def exec (i : Instr) (s : State) : Host.Outcome State Fault Refusal :=
  match i with
  | .registerWrite q a v => Sys2Proof.Machine.execRegisterWrite q a v s
  | .unoccupiedOffsetAccess q a w => Sys2Proof.Machine.execUnoccupiedOffsetAccess q a w s
  | .rcRead q a n => Sys2Proof.Machine.execRcRead q a n s
  | .narrowWrite q a n v => Sys2Proof.Machine.execNarrowWrite q a n v s
  | .unalignedAccess q a n w => Sys2Proof.Machine.execUnalignedAccess q a n w s
  | .pairAtomicAccess q a w => Sys2Proof.Machine.execPairAtomicAccess q a w s
  | .pairLowRead q a => Sys2Proof.Machine.execPairLowRead q a s
  | .pairHighRead q a => Sys2Proof.Machine.execPairHighRead q a s
  | .pairLowWrite q a v => Sys2Proof.Machine.execPairLowWrite q a v s
  | .pairHighWrite q a v => Sys2Proof.Machine.execPairHighWrite q a v s
  | .split64Access q a w => Sys2Proof.Machine.execSplit64Access q a w s
  | .memoryWindowAccess q a o => Sys2Proof.Machine.execMemoryWindowAccess q a o s
  | .crossInstanceRefusal q a w => Sys2Proof.Machine.execCrossInstanceRefusal q a w s
  | .clrLast q v => Sys2Proof.Machine.execClrLast q v s
  | .bandSupervisorFail b => Sys2Proof.Machine.execBandSupervisorFail b s
  | .segmapWrite q c k v => Sys2Proof.Machine.execSegmapWrite q c k v s
  | .segmapChangeEnd c => Sys2Proof.Machine.execSegmapChangeEnd c s
  | .coreEventArrival c e => Sys2Proof.Machine.execCoreEventArrival c e s
  | .pendBlockFreeResume c k waited => Sys2Proof.Machine.execPendBlockFreeResume c k waited s
  | .pendCloseupEnd c k slot => Sys2Proof.Machine.execPendCloseupEnd c k slot s
  | .coreStepOpen c k t => Sys2Proof.Machine.execCoreStepOpen c k t s
  | .synapseWalkEnd c k feed held => Sys2Proof.Machine.execSynapseWalkEnd c k feed held s
  | .emitterSend c k => Sys2Proof.Machine.execEmitterSend c k s
  | .coreDone c k => Sys2Proof.Machine.execCoreDone c k s
  | .coreStepClose c k => Sys2Proof.Machine.execCoreStepClose c k s
  | .coreStepCommit c k closeExtra => Sys2Proof.Machine.execCoreStepCommit c k closeExtra s
  | .coreIdleTimeout c k => Sys2Proof.Machine.execCoreIdleTimeout c k s
  | .coreHalt q c k v => Sys2Proof.Machine.execCoreHalt q c k v s
  | .coreRelease q c k v => Sys2Proof.Machine.execCoreRelease q c k v s
  | .coreSramWindowAccess q p off o => Sys2Proof.Machine.execCoreSramWindowAccess q p off o s
  | .segmentWindowAccess q c g off o => Sys2Proof.Machine.execSegmentWindowAccess q c g off o s
  | .coreCntClr q c k v => Sys2Proof.Machine.execCoreCntClr q c k v s
  | .poolInit q c k v => Sys2Proof.Machine.execPoolInit q c k v s
  | .poolFormatDone c k => Sys2Proof.Machine.execPoolFormatDone c k s
  | .macTakeQueued c k => Sys2Proof.Machine.execMacTakeQueued c k s
  | .macDescComplete c k feed held => Sys2Proof.Machine.execMacDescComplete c k feed held s
  | .statReduceGo q v => Sys2Proof.Machine.execStatReduceGo q v s
  | .statCapture inst => Sys2Proof.Machine.execStatCapture inst s
  | .statReduceComplete inst => Sys2Proof.Machine.execStatReduceComplete inst s
  | .clusterOpenRelease c => Sys2Proof.Machine.execClusterOpenRelease c s
  | .clusterCloseRelease c => Sys2Proof.Machine.execClusterCloseRelease c s
  | .barrierComplete inst => Sys2Proof.Machine.execBarrierComplete inst s
  | .barrierTimeout inst => Sys2Proof.Machine.execBarrierTimeout inst s
  | .timedTick inst => Sys2Proof.Machine.execTimedTick inst s
  | .heldTickRelease inst => Sys2Proof.Machine.execHeldTickRelease inst s
  | .instanceCommit inst => Sys2Proof.Machine.execInstanceCommit inst s
  | .stepStart q inst v => Sys2Proof.Machine.execStepStart q inst v s
  | .stepStop q inst v => Sys2Proof.Machine.execStepStop q inst v s
  | .timeRefLoss => Sys2Proof.Machine.execTimeRefLoss s
  | .timeRefReturn => Sys2Proof.Machine.execTimeRefReturn s
  | .timeAdjWrite q v => Sys2Proof.Machine.execTimeAdjWrite q v s
  | .timeSlewDone => Sys2Proof.Machine.execTimeSlewDone s
  | .timeRateWrite q v => Sys2Proof.Machine.execTimeRateWrite q v s
  | .timeOffsetTimeout => Sys2Proof.Machine.execTimeOffsetTimeout s
  | .ppsInEdge => Sys2Proof.Machine.execPpsInEdge s
  | .ppsMiss => Sys2Proof.Machine.execPpsMiss s
  | .ppsOutRise => Sys2Proof.Machine.execPpsOutRise s
  | .ppsOutFall => Sys2Proof.Machine.execPpsOutFall s
  | .timerSourceEvent e => Sys2Proof.Machine.execTimerSourceEvent e s
  | .timerCompareFire n cmp => Sys2Proof.Machine.execTimerCompareFire n cmp s
  | .timerClr q n v => Sys2Proof.Machine.execTimerClr q n v s
  | .tmrCountWrite q n v => Sys2Proof.Machine.execTmrCountWrite q n v s
  | .tmrOwnWrite q n v => Sys2Proof.Machine.execTmrOwnWrite q n v s
  | .switchPacketReceive sw isSpine up sp seq resent phys hdr body second => Sys2Proof.Machine.execSwitchPacketReceive sw isSpine up sp seq resent phys hdr body second s
  | .edgeEventInject ep e => Sys2Proof.Machine.execEdgeEventInject ep e s
  | .hopRetryRequest l up data valid crc => Sys2Proof.Machine.execHopRetryRequest l up data valid crc s
  | .spineFailure sp => Sys2Proof.Machine.execSpineFailure sp s
  | .spineAck leaf sp dst seq => Sys2Proof.Machine.execSpineAck leaf sp dst seq s
  | .dnetStallTimeout o vc => Sys2Proof.Machine.execDnetStallTimeout o vc s
  | .controlTimeout q => Sys2Proof.Machine.execControlTimeout q s
  | .multicastWrite q bands cols o v => Sys2Proof.Machine.execMulticastWrite q bands cols o v s
  | .syncDone c w0 w1 => Sys2Proof.Machine.execSyncDone c w0 w1 s
  | .syncAdv relayed w0 w1 => Sys2Proof.Machine.execSyncAdv relayed w0 w1 s
  | .syncMeasNow w0 w1 => Sys2Proof.Machine.execSyncMeasNow w0 w1 s
  | .syncMeasStep w0 w1 => Sys2Proof.Machine.execSyncMeasStep w0 w1 s
  | .syncMeasTime w0 w1 => Sys2Proof.Machine.execSyncMeasTime w0 w1 s
  | .syncMeasAck u w0 w1 => Sys2Proof.Machine.execSyncMeasAck u w0 w1 s
  | .syncRbk w0 w1 => Sys2Proof.Machine.execSyncRbk w0 w1 s
  | .syncRbkAck u w0 w1 => Sys2Proof.Machine.execSyncRbkAck u w0 w1 s
  | .syncStatRsp c w0 w1 => Sys2Proof.Machine.execSyncStatRsp c w0 w1 s
  | .syncGather w0 w1 => Sys2Proof.Machine.execSyncGather w0 w1 s
  | .fenceReceive ep frm inst => Sys2Proof.Machine.execFenceReceive ep frm inst s
  | .fenceAckReceive dst frm => Sys2Proof.Machine.execFenceAckReceive dst frm s
  | .cmapPeriodEnd occ => Sys2Proof.Machine.execCmapPeriodEnd occ s
  | .dnetCntClr q v => Sys2Proof.Machine.execDnetCntClr q v s
  | .qdescEnq c k d => Sys2Proof.Machine.execQdescEnq c k d s
  | .qdescDoorbell c k d => Sys2Proof.Machine.execQdescDoorbell c k d s
  | .qdescHold c k d => Sys2Proof.Machine.execQdescHold c k d s
  | .qdescRelease c k d => Sys2Proof.Machine.execQdescRelease c k d s
  | .queueInputUnblock c k => Sys2Proof.Machine.execQueueInputUnblock c k s
  | .tenantControlEvent c k => Sys2Proof.Machine.execTenantControlEvent c k s
  | .queueEntryTake c k e => Sys2Proof.Machine.execQueueEntryTake c k e s
  | .gatherRoundTimeout c k g => Sys2Proof.Machine.execGatherRoundTimeout c k g s
  | .gatherEvent c k => Sys2Proof.Machine.execGatherEvent c k s
  | .queueEntryComplete c k e => Sys2Proof.Machine.execQueueEntryComplete c k e s
  | .queueWatchdogExpire c k n starve => Sys2Proof.Machine.execQueueWatchdogExpire c k n starve s
  | .qDbgCapture q c k v => Sys2Proof.Machine.execQDbgCapture q c k v s
  | .sliceRdReq r nbm1 waits => Sys2Proof.Machine.execSliceRdReq r nbm1 waits s
  | .sliceWrReq r data waits => Sys2Proof.Machine.execSliceWrReq r data waits s
  | .sliceAtomic r aop opnd waits => Sys2Proof.Machine.execSliceAtomic r aop opnd waits s
  | .shmLineTest sl bad wait fetch => Sys2Proof.Machine.execShmLineTest sl bad wait fetch s
  | .shmSpareCopyDone sl => Sys2Proof.Machine.execShmSpareCopyDone sl s
  | .shmClrGo q v => Sys2Proof.Machine.execShmClrGo q v s
  | .shmClrDone => Sys2Proof.Machine.execShmClrDone s
  | .shmCntClr q v => Sys2Proof.Machine.execShmCntClr q v s
  | .lcfReceive p cws => Sys2Proof.Machine.execLcfReceive p cws s
  | .laneFailing p lane why => Sys2Proof.Machine.execLaneFailing p lane why s
  | .lcmdSwap p => Sys2Proof.Machine.execLcmdSwap p s
  | .lcmdSwapAck p => Sys2Proof.Machine.execLcmdSwapAck p s
  | .lcmdNarrow p => Sys2Proof.Machine.execLcmdNarrow p s
  | .lcmdNarrowAck p => Sys2Proof.Machine.execLcmdNarrowAck p s
  | .laneChangeAtCwn p => Sys2Proof.Machine.execLaneChangeAtCwn p s
  | .lcmdSleepReq p => Sys2Proof.Machine.execLcmdSleepReq p s
  | .lcmdSleepAck p => Sys2Proof.Machine.execLcmdSleepAck p s
  | .jlkEnable q p v => Sys2Proof.Machine.execJlkEnable q p v s
  | .jlkDisable q p v => Sys2Proof.Machine.execJlkDisable q p v s
  | .peerDetected p wls => Sys2Proof.Machine.execPeerDetected p wls s
  | .trainComplete p good peer faddr port => Sys2Proof.Machine.execTrainComplete p good peer faddr port s
  | .trainTimeout p => Sys2Proof.Machine.execTrainTimeout p s
  | .qualifyEnd p => Sys2Proof.Machine.execQualifyEnd p s
  | .retrainDelayEnd p => Sys2Proof.Machine.execRetrainDelayEnd p s
  | .jlkLosTimeout p => Sys2Proof.Machine.execJlkLosTimeout p s
  | .jlkLcfTimeout p => Sys2Proof.Machine.execJlkLcfTimeout p s
  | .jlkRetrain q p v => Sys2Proof.Machine.execJlkRetrain q p v s
  | .jlkLdnReceive p => Sys2Proof.Machine.execJlkLdnReceive p s
  | .rerouteWaitTimeout p => Sys2Proof.Machine.execRerouteWaitTimeout p s
  | .rerouteComplete p => Sys2Proof.Machine.execRerouteComplete p s
  | .jlkSleepEnter p => Sys2Proof.Machine.execJlkSleepEnter p s
  | .jlkWake p => Sys2Proof.Machine.execJlkWake p s
  | .jlkRelockTimeout p => Sys2Proof.Machine.execJlkRelockTimeout p s
  | .laserTakeover w => Sys2Proof.Machine.execLaserTakeover w s
  | .fittingTick p tx rx => Sys2Proof.Machine.execFittingTick p tx rx s
  | .jlkRankRead q v => Sys2Proof.Machine.execJlkRankRead q v s
  | .jlkRankWrite q v => Sys2Proof.Machine.execJlkRankWrite q v s
  | .jlkRouteRead q v => Sys2Proof.Machine.execJlkRouteRead q v s
  | .jlkRouteWrite q v => Sys2Proof.Machine.execJlkRouteWrite q v s
  | .jlkRemoteEventTx p e => Sys2Proof.Machine.execJlkRemoteEventTx p e s
  | .eventFlitSend p => Sys2Proof.Machine.execEventFlitSend p s
  | .jlkRecordReceive p vc transit => Sys2Proof.Machine.execJlkRecordReceive p vc transit s
  | .jlkRawReceive p => Sys2Proof.Machine.execJlkRawReceive p s
  | .jlkRawSend p r data => Sys2Proof.Machine.execJlkRawSend p r data s
  | .jlkRemoteFence p r => Sys2Proof.Machine.execJlkRemoteFence p r s
  | .jlkRfenceReceive p => Sys2Proof.Machine.execJlkRfenceReceive p s
  | .jlkRfdoneReceive p => Sys2Proof.Machine.execJlkRfdoneReceive p s
  | .jlkFenceTimeout p tag => Sys2Proof.Machine.execJlkFenceTimeout p tag s
  | .jlkSyncReceive p => Sys2Proof.Machine.execJlkSyncReceive p s
  | .jlkRbkTimeout p inst => Sys2Proof.Machine.execJlkRbkTimeout p inst s
  | .quenchReceive p => Sys2Proof.Machine.execQuenchReceive p s
  | .quenchLeaseExpire tgt inst => Sys2Proof.Machine.execQuenchLeaseExpire tgt inst s
  | .fmReceive p => Sys2Proof.Machine.execFmReceive p s
  | .srmReceive p => Sys2Proof.Machine.execSrmReceive p s
  | .jlkCntClr q p v => Sys2Proof.Machine.execJlkCntClr q p v s
  | .bar2Tlp f x o link => Sys2Proof.Machine.execBar2Tlp f x o link s
  | .flrVf inst => Sys2Proof.Machine.execFlrVf inst s
  | .flrPf => Sys2Proof.Machine.execFlrPf s
  | .ringEnable q f k v => Sys2Proof.Machine.execRingEnable q f k v s
  | .hostDoorbell f k size v => Sys2Proof.Machine.execHostDoorbell f k size v s
  | .ringModTimer f k => Sys2Proof.Machine.execRingModTimer f k s
  | .hostEvEntry f k w0 w1 => Sys2Proof.Machine.execHostEvEntry f k w0 w1 s
  | .hostEvRingResume f k => Sys2Proof.Machine.execHostEvRingResume f k s
  | .egressBind q b v => Sys2Proof.Machine.execEgressBind q b v s
  | .egressEventArrive e v => Sys2Proof.Machine.execEgressEventArrive e v s
  | .egressRelease inst => Sys2Proof.Machine.execEgressRelease inst s
  | .ethFrameReceive p frame fcs ts => Sys2Proof.Machine.execEthFrameReceive p frame fcs ts s
  | .ethPauseReceive p quanta => Sys2Proof.Machine.execEthPauseReceive p quanta s
  | .encoderRun p => Sys2Proof.Machine.execEncoderRun p s
  | .encEnable q p v => Sys2Proof.Machine.execEncEnable q p v s
  | .datagramFlushTimeout p => Sys2Proof.Machine.execDatagramFlushTimeout p s
  | .ethCntClr q p v => Sys2Proof.Machine.execEthCntClr q p v s
  | .hostCntClr q v => Sys2Proof.Machine.execHostCntClr q v s
  | .memcWinWrite q inst v => Sys2Proof.Machine.execMemcWinWrite q inst v s
  | .memcScrubGo q inst v => Sys2Proof.Machine.execMemcScrubGo q inst v s
  | .memcScrubDone inst => Sys2Proof.Machine.execMemcScrubDone inst s
  | .bulkDescStart f k words => Sys2Proof.Machine.execBulkDescStart f k words s
  | .bulkDescComplete n host bad link => Sys2Proof.Machine.execBulkDescComplete n host bad link s
  | .patLoad q v => Sys2Proof.Machine.execPatLoad q v s
  | .patVerify q v => Sys2Proof.Machine.execPatVerify q v s
  | .patStore q v => Sys2Proof.Machine.execPatStore q v s
  | .patUnload q v => Sys2Proof.Machine.execPatUnload q v s
  | .patErase q v => Sys2Proof.Machine.execPatErase q v s
  | .patRequestStart => Sys2Proof.Machine.execPatRequestStart s
  | .patSignatureDone => Sys2Proof.Machine.execPatSignatureDone s
  | .patAutoWrite => Sys2Proof.Machine.execPatAutoWrite s
  | .autoLoadStart => Sys2Proof.Machine.execAutoLoadStart s
  | .powerOn onB addr b => Sys2Proof.Machine.execPowerOn onB addr b s
  | .deviceReset cause b => Sys2Proof.Machine.execDeviceReset cause b s
  | .deviceResetRequest q v => Sys2Proof.Machine.execDeviceResetRequest q v s
  | .readyGate => Sys2Proof.Machine.execReadyGate s
  | .bootPortDarkTimeout p => Sys2Proof.Machine.execBootPortDarkTimeout p s
  | .coreReset q c v => Sys2Proof.Machine.execCoreReset q c v s
  | .clusterReset q c v bad => Sys2Proof.Machine.execClusterReset q c v bad s
  | .partitionReset q v => Sys2Proof.Machine.execPartitionReset q v s
  | .partitionDrainTimeout p => Sys2Proof.Machine.execPartitionDrainTimeout p s
  | .partitionResetReport p row => Sys2Proof.Machine.execPartitionResetReport p row s
  | .mgtReset q v => Sys2Proof.Machine.execMgtReset q v s
  | .mpException => Sys2Proof.Machine.execMpException s
  | .runtimeRepairStart a inFetch => Sys2Proof.Machine.execRuntimeRepairStart a inFetch s
  | .runtimeRepairDone a => Sys2Proof.Machine.execRuntimeRepairDone a s
  | .dozeEntry c abort => Sys2Proof.Machine.execDozeEntry c abort s
  | .clusterWake c => Sys2Proof.Machine.execClusterWake c s
  | .clusterPllLock c => Sys2Proof.Machine.execClusterPllLock c s
  | .clkClSw q v => Sys2Proof.Machine.execClkClSw q v s
  | .clockSwitchPoint c => Sys2Proof.Machine.execClockSwitchPoint c s
  | .clockRefLoss r156 => Sys2Proof.Machine.execClockRefLoss r156 s
  | .clockRefReturn r156 => Sys2Proof.Machine.execClockRefReturn r156 s
  | .pwrReqOn q v => Sys2Proof.Machine.execPwrReqOn q v s
  | .pwrReqOffLogic q v => Sys2Proof.Machine.execPwrReqOffLogic q v s
  | .pwrReqOff q v => Sys2Proof.Machine.execPwrReqOff q v s
  | .pwrDrainEnd d row => Sys2Proof.Machine.execPwrDrainEnd d row s
  | .pwrDrainTimeout d => Sys2Proof.Machine.execPwrDrainTimeout d s
  | .pwrJoinEnd d row m agents => Sys2Proof.Machine.execPwrJoinEnd d row m agents s
  | .pwrStandby q v => Sys2Proof.Machine.execPwrStandby q v s
  | .standbyWake src b => Sys2Proof.Machine.execStandbyWake src b s
  | .feedBad isB => Sys2Proof.Machine.execFeedBad isB s
  | .feedSwitchBack => Sys2Proof.Machine.execFeedSwitchBack s
  | .powerLoss => Sys2Proof.Machine.execPowerLoss s
  | .holdupExhausted => Sys2Proof.Machine.execHoldupExhausted s
  | .railFault r b => Sys2Proof.Machine.execRailFault r b s
  | .clusterRewindStart c k why => Sys2Proof.Machine.execClusterRewindStart c k why s
  | .coreHangTimeout c k => Sys2Proof.Machine.execCoreHangTimeout c k s
  | .segmentMigrationStart c g => Sys2Proof.Machine.execSegmentMigrationStart c g s
  | .migrationCopyDone c => Sys2Proof.Machine.execMigrationCopyDone c s
  | .dupLogicMismatch unit explained => Sys2Proof.Machine.execDupLogicMismatch unit explained s
  | .rasFrecSelect q v => Sys2Proof.Machine.execRasFrecSelect q v s
  | .spdmRequest r => Sys2Proof.Machine.execSpdmRequest r s
  | .claim sess inst token => Sys2Proof.Machine.execClaim sess inst token s
  | .setPatternKey sess inst key => Sys2Proof.Machine.execSetPatternKey sess inst key s
  | .setSignKey sess inst key => Sys2Proof.Machine.execSetSignKey sess inst key s
  | .getReport sess inst nonce => Sys2Proof.Machine.execGetReport sess inst nonce s
  | .release sess inst => Sys2Proof.Machine.execRelease sess inst s
  | .lockInterface sess inst => Sys2Proof.Machine.execLockInterface sess inst s
  | .startInterface sess inst => Sys2Proof.Machine.execStartInterface sess inst s
  | .stopInterface sess inst => Sys2Proof.Machine.execStopInterface sess inst s
  | .tdiDestroy sess inst => Sys2Proof.Machine.execTdiDestroy sess inst s
  | .instCreate q v => Sys2Proof.Machine.execInstCreate q v s
  | .instReset q v => Sys2Proof.Machine.execInstReset q v s
  | .instClear q v => Sys2Proof.Machine.execInstClear q v s
  | .instDestroy q v => Sys2Proof.Machine.execInstDestroy q v s
  | .instFenceEnd inst => Sys2Proof.Machine.execInstFenceEnd inst s
  | .instFenceTimeout inst => Sys2Proof.Machine.execInstFenceTimeout inst s
  | .instClearDone inst => Sys2Proof.Machine.execInstClearDone inst s
  | .debugReq q v => Sys2Proof.Machine.execDebugReq q v s
  | .debugGo q v => Sys2Proof.Machine.execDebugGo q v s
  | .secPersistWrite q o v => Sys2Proof.Machine.execSecPersistWrite q o v s
  | .secCfgLock q v => Sys2Proof.Machine.execSecCfgLock q v s
  | .measSelect q v => Sys2Proof.Machine.execMeasSelect q v s
  | .exhClear q inst v => Sys2Proof.Machine.execExhClear q inst v s
  | .mpHeartbeatTimeout expired b => Sys2Proof.Machine.execMpHeartbeatTimeout expired b s
  | .mpSwap q v => Sys2Proof.Machine.execMpSwap q v s
  | .mpSelfError => Sys2Proof.Machine.execMpSelfError s
  | .mpTakeoverResume => Sys2Proof.Machine.execMpTakeoverResume s
  | .mpRestartOld pass => Sys2Proof.Machine.execMpRestartOld pass s
  | .sensorSample n r held cmis => Sys2Proof.Machine.execSensorSample n r held cmis s
  | .logPost typ inst body => Sys2Proof.Machine.execLogPost typ inst body s
  | .logFile => Sys2Proof.Machine.execLogFile s
  | .logSelect q v => Sys2Proof.Machine.execLogSelect q v s
  | .measureNow q v => Sys2Proof.Machine.execMeasureNow q v s
  | .measureAtStep q v => Sys2Proof.Machine.execMeasureAtStep q v s
  | .measureAtTime q v => Sys2Proof.Machine.execMeasureAtTime q v s
  | .measureCancel q v => Sys2Proof.Machine.execMeasureCancel q v s
  | .measureAckTimeout => Sys2Proof.Machine.execMeasureAckTimeout s
  | .cmxExport portUp => Sys2Proof.Machine.execCmxExport portUp s
  | .attnShortPress b => Sys2Proof.Machine.execAttnShortPress b s
  | .attnMidRelease => Sys2Proof.Machine.execAttnMidRelease s
  | .attnLongHold => Sys2Proof.Machine.execAttnLongHold s
  | .attnReq q v b => Sys2Proof.Machine.execAttnReq q v b s
  | .attnCancel q v => Sys2Proof.Machine.execAttnCancel q v s
  | .attnFmAck q v => Sys2Proof.Machine.execAttnFmAck q v s
  | .removalGraceEnd grace => Sys2Proof.Machine.execRemovalGraceEnd grace s
  | .removalDrainEnd late => Sys2Proof.Machine.execRemovalDrainEnd late s
  | .removalQuietEnd => Sys2Proof.Machine.execRemovalQuietEnd s
  | .transceiverInsert p good => Sys2Proof.Machine.execTransceiverInsert p good s
  | .transceiverRemove p => Sys2Proof.Machine.execTransceiverRemove p s
  | .fwuGo q v side b => Sys2Proof.Machine.execFwuGo q v side b s
  | .fwuStagingDone good => Sys2Proof.Machine.execFwuStagingDone good s
  | .fwuActivationDone => Sys2Proof.Machine.execFwuActivationDone s
  | .fwuConfirm q v => Sys2Proof.Machine.execFwuConfirm q v s
  | .fwuAbort q v => Sys2Proof.Machine.execFwuAbort q v s
  | .fwuWindowEnd => Sys2Proof.Machine.execFwuWindowEnd s
  | .fwuUnitFault => Sys2Proof.Machine.execFwuUnitFault s
  | .fwuFallbackDone => Sys2Proof.Machine.execFwuFallbackDone s
  | .raiseSvn q v => Sys2Proof.Machine.execRaiseSvn q v s
  | .perstAssert => Sys2Proof.Machine.execPerstAssert s
  | .perstDeassert link b => Sys2Proof.Machine.execPerstDeassert link b s
  | .boardReset b => Sys2Proof.Machine.execBoardReset b s
  | .pwrEnRise b => Sys2Proof.Machine.execPwrEnRise b s
  | .pwrEnFall => Sys2Proof.Machine.execPwrEnFall s
  | .thermalThrottleEnter p => Sys2Proof.Machine.execThermalThrottleEnter p s
  | .thermalThrottleRelease p => Sys2Proof.Machine.execThermalThrottleRelease p s
  | .thermalShutdown stage => Sys2Proof.Machine.execThermalShutdown stage s
  | .sidebandSclTimeout => Sys2Proof.Machine.execSidebandSclTimeout s
  | .feedGood isB => Sys2Proof.Machine.execFeedGood isB s
  | .spdmHeartbeatLoss sess => Sys2Proof.Machine.execSpdmHeartbeatLoss sess s
  | .ethLinkDown p => Sys2Proof.Machine.execEthLinkDown p s
  | .ethLinkUp p => Sys2Proof.Machine.execEthLinkUp p s
  | .pauseQuantaExpire p => Sys2Proof.Machine.execPauseQuantaExpire p s
  | .pauseRefresh p => Sys2Proof.Machine.execPauseRefresh p s
  | .bandSupervisorRecover b => Sys2Proof.Machine.execBandSupervisorRecover b s
  | .mgtResetDone => Sys2Proof.Machine.execMgtResetDone s

end Sys2Proof.Machine
end

