-- ==== Sys2Proof/Machine/Tick.lean ====
section
/-! DEFINITION. One cycle of TCLK for every unit that the clock drives. -/
namespace Sys2Proof.Machine

/-- One TCLK cycle: TIME64, the timers and the data network (`tclk`), the codewords of the Jarisk links, the core and cluster resets that run, and one
section of the pattern image that loads (DESIGN CHOICE, log entries 20 and 85). -/
def tick (s : State) : State := patTick (rstTick (jlkTick (tclk s)))

end Sys2Proof.Machine
end

