-- ==== Sys2Proof/Safety.lean ====
section
/-! DEFINITION. The terms claims are stated in: the canonical form of the memories, when the control hub admits an access, and what a
command leaves as it was. -/
namespace Sys2Proof.Machine

/-- The canonical form of the memory: addresses strictly rising, no listed byte 0. -/
abbrev Memory.wf (m : List Host.Cell) : Bool := swf (fun _ => 0#8) m
/-- The invariant of the stored contents: register file and on-die memory in canonical form. -/
def State.Inv (s : State) : Prop := swf resetVal s.regs = true ∧ Memory.wf s.mem = true

/-- The control hub admits accesses of `q` to units of boot stage `n` (R392, R403, R483). -/
def State.admits (s : State) (q : Req) (n : Nat) : Bool :=
  (match q with
    | .vf i => !s.tdiErr (i.val + 1)
    | _ => true)
  && !s.dev.hubDown
  && !((q == .pf || isVf q) && s.fv GLB_DEV_STATE GLB_DEV_STATE.STATE == 1 && decide (s.fv MGT_BOOT_STAT MGT_BOOT_STAT.STAGE < n))

/-- The same for a unit closed to the virtual function of a Free instance (R469). -/
def State.gateOpen (s : State) (q : Req) (n : Nat) : Bool :=
  s.admits q n && (match q with
    | .vf i => s.fv (SEC_INST i.val) SEC_INST.STATE != 0
    | _ => true)
/-- The core port of PCID `p` is open to an access of `q` (R86, R472). -/
def State.coreOpen (s : State) (q : Req) (p : Nat) (write : Bool) : Bool := s.gateOpen q 9 && (coreGuard q p write s).isNone
/-- No pattern load holds the instance of cluster `c`. -/
def State.clFree (s : State) (c : Nat) : Bool := (s.clInst c).all fun i => !loading i s
/-- The window of cluster `c` is open to a write of `q` other than a virtual function (R536, R472). -/
def State.clusterOpen (s : State) (q : Req) (c : Nat) : Bool :=
  s.gateOpen q 9 && !isVf q && !s.clGone c && (s.clInst c).all (fun i => !s.conf i && !loading i s)
/-- A unit of instance `i` is open to a write of `q` (R20, R204, R472). -/
def State.instOpen (s : State) (q : Req) (i : Nat) : Bool :=
  s.gateOpen q 6 && !loading i s && (match q with
    | .vf v => v.val == i
    | _ => !s.conf i)
/-- Timer `n` is open to a write of `q` (R218). -/
def State.timerOpen (s : State) (q : Req) (n : Nat) : Bool :=
  s.gateOpen q 5 && !(s.fb (TMR_OWN n) TMR_OWN.VALID && loading (s.fv (TMR_OWN n) TMR_OWN.INST) s) && (match q with
    | .vf v => s.fb (TMR_OWN n) TMR_OWN.VALID && s.fv (TMR_OWN n) TMR_OWN.INST == v.val
    | _ => true)
/-- A value for TMR_CTRL of timer `n` names a source and no ring of leaders (R213, R216). -/
def State.tmrGood (s : State) (n v : Nat) : Bool :=
  bits v 4 3 != 7 && (bits v 13 2 == 0 ||
    !leadsTo (fun m => if s.fv (TMR_CTRL m) TMR_CTRL.FMODE = 0 then 8 else s.fv (TMR_CTRL m) TMR_CTRL.LEAD) n 9 (bits v 10 3))
/-- The registers of Jarisk port `p` are open to `q` (R331). -/
def State.jlkOpen (s : State) (q : Req) (p : Nat) : Bool := s.gateOpen q 6 && !isVf q && !s.dev.fusedJlk.contains p
/-- The registers of PCI Express function `f` are open to a write of `q` (R364). -/
def State.fnOpen (s : State) (q : Req) (f : Nat) : Bool :=
  s.admits q 5 && (match q with
    | .vf i => i.val + 1 == f
    | _ => !(f != 0 && s.fb (SEC_INST (f - 1)) SEC_INST.TDI))
/-- Event port `p` is open to a write of `q` (R364). -/
def State.ethOpen (s : State) (q : Req) (p : Nat) : Bool :=
  s.gateOpen q 11 && !s.dev.fusedEth.contains p && !(s.fb (ETH_OWN p) ETH_OWN.VALID && loading (s.fv (ETH_OWN p) ETH_OWN.INST) s) && (match q with
    | .vf v => s.fb (ETH_OWN p) ETH_OWN.VALID && s.fv (ETH_OWN p) ETH_OWN.INST == v.val
    | _ => true)
/-- A device-wide register of boot stage `n` closed to virtual functions is open to `q` (R388, R438, R481, R512). -/
def State.devOpen (s : State) (q : Req) (n : Nat) : Bool := s.admits q n && !isVf q

/-- The window of core SRAM admits the access (R51, Table 2-3). -/
def State.sramOpen (s : State) (q : Req) (p o : Nat) (op : WinOp) : Bool :=
  winShape o op && decide (p % 32 ≤ 16) && decide (o + winLen op ≤ 0x28000) && !foreign q (s.clInst (p / 32)) && !filtered q (s.clInst (p / 32)) s
    && !s.slotGone p && coreState p s != stOff && !s.dev.drainCl.contains (p / 32) && !loadLocked (s.clInst (p / 32)) op s
    && (match op with
      | .wr d => (List.range d.length).all fun i => sramWritable p (o + i) s
      | .rd _ => true)
/-- The window of segment `g` of cluster `c` admits the access (R92, R93), and no transfer of it fails. -/
def State.segOpen (s : State) (q : Req) (c g o : Nat) (op : WinOp) : Bool :=
  winShape o op && decide (g ≤ 16) && decide (o + winLen op ≤ 0x180000)
    && !(if (slotOf c g s).isSome then foreign q (s.clInst c) else isVf q) && !filtered q (s.clInst c) s
    && !s.clGone c && bit (s.fv (CLA_SEGOK c) CLA_SEGOK.OK) g && !(s.cluster c).synOff.contains g
    && (match slotOf c g s, op with
      | some k, .wr _ => coreState (32 * c + k) s == stOff || halted (32 * c + k) s
      | _, _ => true)
    && !s.dev.drainCl.contains c && !swapping c g s && !loadLocked (s.clInst c) op s && s.bond == []
/-- The window of module memory admits the access (R358, R360). -/
def State.memOpen (s : State) (q : Req) (a : Nat) (op : WinOp) : Bool :=
  winShape a op && decide (a + winLen op ≤ 0x2000000000) && !(isVf q && foreign q (memWin a s)) && !filtered q (memWin a s) s
    && s.dev.srcLock.isNone && !loadLocked (memWin a s) op s && (memWin a s).all fun i => !s.fb (MEMC_SCRUB i) MEMC_SCRUB.BUSY

/-- Steps from the sender's step to the target step of an event, by the fields of R55. -/
def evtDelay (p : Nat) (e : EvtIn) (s : State) : Nat := (e.sstep5.toNat + 1 + bits e.ev.toNat 28 4 + 32 - cur p s % 32) % 32
/-- The staging entry the emitter works on (R75). -/
def stagedWord (p : Nat) (s : State) : Nat := s.sramW p (0x2800 + 4 * (s.core p).stgHead)

/-- Core `p` needs no wake, has not stopped, and no write of its queue unit waits for the router. -/
def State.unitStill (s : State) (p : Nat) : Bool :=
  (coreState p s != stIdle || halted p s) && !s.faulted p && (s.core p).q.out.isEmpty
/-- A queue descriptor packet passes the admission tests of R259, all but kind of entry and room. -/
def State.qAdmits (s : State) (p : Nat) (d : QdescIn) : Bool :=
  !d.rsv && qInst p s == some d.inst.toNat && decide (1 ≤ qKind p (d.qid.toNat % 64) s) && decide (qKind p (d.qid.toNat % 64) s ≤ 3)
    && decide (qDepth p (d.qid.toNat % 64) s ≤ 1024) && decide (d.gen.toNat = s.gen d.inst.toNat) && !s.dev.drainCl.contains (p / 32)
/-- A WR_CPL that answers queue descriptor packet `d` of core `p` with a code. -/
def qAnswered (p : Nat) (d : QdescIn) (code : Nat) : Output :=
  .packet d.sep.toNat (0x40 + p / 32) pkWR_CPL d.inst.toNat d.gen.toNat d.tag.toNat [code]
/-- The head entry of queue `n` of core `p`. -/
def qHeadWords (p n : Nat) (s : State) : List Nat := scrWords p (qSlot p n (qHead p n s) s) 20 s
/-- Engine `e` of core `p` is idle and takes next from queue `n`, whose head entry is sound and of the current generation. -/
def State.takes (s : State) (p : Nat) (e : Engine) (n : Nat) : Bool :=
  !engBusy p e s && qNext p e s == some n && decide (envChk (qHeadWords p n s) = bits (dw (qHeadWords p n s) 0) 24 8)
    && decide (bits (dw (qHeadWords p n s) 0) 8 8 = s.gen (bits (dw (qHeadWords p n s) 0) 4 4))
/-- A one-element integer contribution of contributor `ci` is new in round BASE of context `g` of core `p` and does not complete it. -/
def State.gOpen (s : State) (p g ci : Nat) : Bool :=
  decide (gVlen p g s = 1) && decide (gFmt p g s = 4) && decide (ci < gContrib p g s) && !(gMap p g (gBase p g s) s).testBit ci
    && decide (popcount (setBits (gMap p g (gBase p g s) s) ci 1 1) 256 < gContrib p g s)

/-- Every register outside `l` keeps its value. -/
def State.sameRegs (s t : State) (l : List Nat) : Prop := ∀ k, k ∉ l → t.rd k = s.rd k
/-- An access completed: code, data, speed; it is the newest completion. -/
def State.answered (s t : State) (q : Req) (code : Nat) (data : List Nat) (slow : Bool) : Prop := t.cpl = ⟨q, code, data, slow⟩ :: s.cpl

/-- Every register outside the `n` bytes from `a` and outside `l` keeps its value. -/
def State.sameRegsOut (s t : State) (a n : Nat) (l : List Nat) : Prop := ∀ k, (k < a ∨ a + n ≤ k) → k ∉ l → t.rd k = s.rd k
/-- Every byte of on-die memory outside the `n` bytes from `a` keeps its value. -/
def State.sameMemOut (s t : State) (a n : Nat) : Prop := ∀ b, (b < a ∨ a + n ≤ b) → t.rdB b = s.rdB b
/-- The log's input queue has room for `n` more records (R487). -/
abbrev State.logRoom (s : State) (n : Nat) : Prop := s.logIn.length + n ≤ 1024
/-- One record was posted to the log's input queue, and nothing else. -/
abbrev State.logged (s t : State) (typ : Nat) (inst : Option Nat) (args : List Nat) : Prop := t.logIn = s.logIn ++ [⟨typ, inst, args, s.rd64 TIME64⟩]
/-- Cluster `c` is there and its instance, if any, lets `q` reset or command it (R86, R472, R536). -/
def State.clRight (s : State) (q : Req) (c : Nat) : Bool :=
  s.gateOpen q 9 && !s.clGone c && s.clFree c && (match q with
    | .vf v => s.clInst c == some v.val
    | _ => (s.clInst c).all fun i => !s.conf i)

end Sys2Proof.Machine
end

