-- ==== Sys2Proof/Certificates/Slice0/Obligations.lean ====
section
/-! DEFINITION. The statements for the provers. -/
open Sys2Proof Sys2Proof.Machine

/-- A step performs the command at the front of the queue on the state with the queue's rest. For every command c, queue rest l and state s, one step of s with c in front of l is exec of c on s with the queue l. Rests on: R6, R18. -/
def Obligations.StepPerformsFrontCommand : Prop :=
  (∀ (c : Instr) (l : List Instr) (s : State), step { s with pending := c :: l } = exec c { s with pending := l })

/-- With no command waiting a step is one TCLK cycle: it answers a next state whose queue is empty, and in a quiet block it steps TIME64 and leaves the memories. The model's choice (log entry 20): on an empty queue one cycle of the time clock passes. It always answers a next state with an empty queue. Where no cluster, core, link, switch output, edge endpoint or pattern load holds anything, TIME64 advances by 2 ns and the rate trim, modulo 2^64, and on-die memory, module memory, completions and the log's input queue stay. Rests on: R207, R208. -/
def Obligations.EmptyQueuePassesOneTimeCycle : Prop :=
  (∀ (s : State),
    s.pending = [] →
    ∃ t, step s = .next t ∧ t.pending = []) ∧
  (∀ (s : State),
    s.pending = [] →
    s.clusters = [] ∧ s.cores = [] ∧ s.jports = [] →
    s.net.outs = [] ∧ s.net.edge = [] ∧ s.pat.cur = none →
    s.dev.slewLeft = 0 ∧ (∀ i : Fin 16, stepState i.val s = stStopped) →
    ∃ t, step s = .next t ∧
      t.rd64 TIME64 = (s.rd64 TIME64 + ((s.dev.tfrac + tickBase s) / 2 ^ 32).toNat) % 2 ^ 64 ∧
      t.mem = s.mem ∧ t.memc = s.memc ∧
      t.cpl = s.cpl ∧ t.logIn = s.logIn)

/-- The state after reset holds register file and on-die memory in canonical form. State.reset meets State.Inv: keys strictly rising and no entry equal to what an unlisted key reads as. Rests on: R390. -/
def Obligations.ResetMeetsStoredInvariant : Prop :=
  (State.Inv State.reset)

/-- Every step that answers a next state keeps register file and on-die memory in canonical form. For every state that meets State.Inv (register words and memory bytes listed with strictly rising keys, none equal to its unlisted value), the next state of a step meets it too, whatever the command. So equal stored contents are equal data in every run. Rests on: R6, R42, R390. -/
def Obligations.EveryStepKeepsStoredInvariant : Prop :=
  (∀ (s t : State), s.Inv → step s = .next t → t.Inv)

/-- Every command leaves the queue of waiting commands to the step: exec neither adds, drops nor reorders a waiting command. For every command and every state, when exec answers a next state the queue of that state is the queue it was given. With the step statement: the queue is served first in, first out. Rests on: R18. -/
def Obligations.EveryCommandLeavesTheQueue : Prop :=
  (∀ (c : Instr) (s t : State), exec c s = .next t → t.pending = s.pending)

/-- No command stops the block: exec answers a next state for every command and every state. The spec answers every request with a completion code or an effect (R18, R19), so no command ends in a fault or a refusal of the model, with any operands and in any state. Rests on: R18, R19. -/
def Obligations.EveryCommandCompletes : Prop :=
  (∀ (c : Instr) (s : State), ∃ t, exec c s = .next t)

/-- A write changes each field by its access code: RW takes the value, RO and WO keep, W1C clears where 1, W1S sets where 1, RWL obeys its lock. For a register of one field f, of any place and width, a write of v over the old value leaves in the field: the written bits (RW, RWL unlocked), the old bits (RO, WO, RC, RWL locked), the old bits without the written ones (W1C), the old bits with the written ones (W1S); and every bit outside the field as it was. A read shows 0 for a write-only field. Rests on: R6, R7. -/
def Obligations.FieldWritesFollowAccessCodes : Prop :=
  (∀ (lock : Bool) (f : Fld) (old v : Nat),
     bits (regWrite lock [f] old v) f.lo f.w = (match f.acc with
       | .rw => bits v f.lo f.w
       | .ro => bits old f.lo f.w
       | .wo => bits old f.lo f.w
       | .rc => bits old f.lo f.w
       | .w1c => (bits old f.lo f.w) - (bits old f.lo f.w &&& bits v f.lo f.w)
       | .w1s => bits old f.lo f.w ||| bits v f.lo f.w
       | .rwl => if lock then bits old f.lo f.w else bits v f.lo f.w) ∧
     (∀ i, i < f.lo ∨ f.lo + f.w ≤ i → (regWrite lock [f] old v).testBit i = old.testBit i) ∧
     (f.acc = .wo → bits (regRead [f] old) f.lo f.w = 0) ∧
     (f.acc = .rc → bits (regAfterRead [f] old) f.lo f.w = 0))

/-- A register write sets its field, an unoccupied offset reads 0 and ignores writes, a narrow read returns byte lanes, a split access makes two, CLR_LAST clears. Where the control hub admits the requester: REGISTER_WRITE at GLB_SCRATCH sets the requester's own copy and nothing else; an aligned access to an offset of no block reads 0 or writes nothing and completes OK; an aligned read of 1, 2 or 4 bytes of GLB_SCRATCH returns the addressed lanes; a 64-bit access at GLB_SCRATCH is made as two, the second unoccupied; a write of GLB_CFG_ERR with CLR_LAST sets LAST_CODE to 0. Memory and all other registers stay. Rests on: R6, R8, R9, R14, R16, R45, R47. -/
def Obligations.PlainRegisterAccessesComplete : Prop :=
  (∀ (s : State) (q : Req) (v : Word),
    s.admits q 0 = true →
    ∃ t, exec (.registerWrite q 0x48 v) s = .next t ∧
      t.rd (GLB_SCRATCH (reqIx q)) = v.toNat ∧
      s.answered t q cOK [] false ∧
      s.sameRegs t [GLB_SCRATCH (reqIx q)] ∧
      t = { s with regs := t.regs, cpl := t.cpl, dev := t.dev }) ∧
  (∀ (s : State) (q : Req) (a : Word) (w : Option Word),
    s.admits q 0 = true →
    a.toNat % 4 = 0 →
    locate a.toNat = none →
    ∃ t, exec (.unoccupiedOffsetAccess q a w) s = .next t ∧
      s.answered t q cOK (if w.isSome then [] else [0]) false ∧
      t = { s with cpl := t.cpl, dev := t.dev }) ∧
  (∀ (s : State) (q : Req) (a : Word) (n : Fin 3),
    s.admits q 0 = true →
    0x48 ≤ a.toNat ∧ a.toNat < 0x4C →
    a.toNat % 2 ^ n.val = 0 →
    ∃ t, exec (.rcRead q a n) s = .next t ∧
      s.answered t q cOK [byteLanes (s.rd (GLB_SCRATCH (reqIx q))) (a.toNat % 4) (2 ^ n.val)] false ∧
      t = { s with cpl := t.cpl, dev := t.dev }) ∧
  (∀ (s : State) (q : Req) (w : Option DWord),
    s.admits q 0 = true →
    ∃ t, exec (.split64Access q 0x48 w) s = .next t ∧
      s.answered t q cOK (if w.isSome then [] else [s.rd (GLB_SCRATCH (reqIx q)), 0]) false ∧
      t.rd (GLB_SCRATCH (reqIx q)) = (match w with | some x => x.toNat % 2 ^ 32 | none => s.rd (GLB_SCRATCH (reqIx q))) ∧
      s.sameRegs t [GLB_SCRATCH (reqIx q)] ∧
      t = { s with regs := t.regs, cpl := t.cpl, dev := t.dev }) ∧
  (∀ (s : State) (q : Req) (v : Word),
    s.admits q 0 = true →
    ∃ t, exec (.clrLast q v) s = .next t ∧
      t.fv (GLB_CFG_ERR (reqIx q)) GLB_CFG_ERR.LAST_CODE = 0 ∧
      s.answered t q cOK [] false ∧
      s.sameRegs t [GLB_CFG_ERR (reqIx q)] ∧
      t = { s with regs := t.regs, cpl := t.cpl, dev := t.dev })

/-- A narrow write or an unaligned access completes BAD_ARG with no effect but its flag in the requester's GLB_CFG_ERR. Where the hub admits the requester: a write of 1, 2 or 3 bytes in GLB_SCRATCH completes BAD_ARG, sets NARROW and leaves every register but the requester's GLB_CFG_ERR; an access of 1 to 8 bytes from 0x48 up that is not aligned to its size (3, 5, 6 and 7 bytes have none) completes BAD_ARG, reads zeros and sets UNALIGNED. LAST_CODE records BAD_ARG. Rests on: R10, R11, R16, R17. -/
def Obligations.NarrowAndUnalignedAccessesAreRefused : Prop :=
  (∀ (s : State) (q : Req) (a : Word) (n : Fin 3) (v : Word),
    s.admits q 0 = true →
    0x48 ≤ a.toNat ∧ a.toNat + n.val + 1 ≤ 0x4C →
    ∃ t, exec (.narrowWrite q a n v) s = .next t ∧
      s.answered t q cBAD_ARG [] false ∧
      t.fv (GLB_CFG_ERR (reqIx q)) GLB_CFG_ERR.NARROW = 1 ∧
      t.fv (GLB_CFG_ERR (reqIx q)) GLB_CFG_ERR.LAST_CODE = cBAD_ARG ∧
      s.sameRegs t [GLB_CFG_ERR (reqIx q)] ∧
      t = { s with regs := t.regs, cpl := t.cpl }) ∧
  (∀ (s : State) (q : Req) (a : Word) (n : Fin 8) (w : Option DWord),
    s.admits q 0 = true →
    0x48 ≤ a.toNat →
    n.val = 2 ∨ n.val = 4 ∨ n.val = 5 ∨ n.val = 6 ∨ a.toNat % (n.val + 1) ≠ 0 →
    ∃ t, exec (.unalignedAccess q a n w) s = .next t ∧
      s.answered t q cBAD_ARG (if w.isSome then [] else List.replicate ((n.val + 4) / 4) 0) false ∧
      t.fv (GLB_CFG_ERR (reqIx q)) GLB_CFG_ERR.UNALIGNED = 1 ∧
      t.fv (GLB_CFG_ERR (reqIx q)) GLB_CFG_ERR.LAST_CODE = cBAD_ARG ∧
      s.sameRegs t [GLB_CFG_ERR (reqIx q)] ∧
      t = { s with regs := t.regs, cpl := t.cpl })

/-- A 64-bit access to a declared pair is one access; 32-bit halves capture the high word on a low read and hold a low write until the high write. On the pair SYNC_MEAS_TIME, for a requester other than a virtual function that the hub admits: a 64-bit read returns both words and a 64-bit write sets both; a read of the low word returns it and captures the high word; a read of the high word returns the captured word, else the live one, and releases it; a write of the low word changes no register and is held; a write of the high word sets both words from the held low word, else the high word alone. Rests on: R12, R13. -/
def Obligations.RegisterPairsFollowTheirHoldRules : Prop :=
  (∀ (s : State) (q : Req) (w : Option DWord),
    s.admits q 6 = true →
    isVf q = false →
    ∃ t, exec (.pairAtomicAccess q 0x40010 w) s = .next t ∧
      s.answered t q cOK (if w.isSome then [] else [s.rd SYNC_MEAS_TIME, s.rd (SYNC_MEAS_TIME + 4)]) false ∧
      t.rd64 SYNC_MEAS_TIME = (match w with | some x => x.toNat | none => s.rd64 SYNC_MEAS_TIME) ∧
      s.sameRegs t [SYNC_MEAS_TIME, SYNC_MEAS_TIME + 4] ∧
      t = { s with regs := t.regs, cpl := t.cpl, dev := t.dev }) ∧
  (∀ (s : State) (q : Req),
    s.admits q 6 = true →
    isVf q = false →
    ∃ t, exec (.pairLowRead q 0x40010) s = .next t ∧
      s.answered t q cOK [s.rd SYNC_MEAS_TIME] false ∧
      heldWord t.dev.cap (reqIx q) SYNC_MEAS_TIME = some (s.rd (SYNC_MEAS_TIME + 4)) ∧
      t = { s with cpl := t.cpl, dev := t.dev }) ∧
  (∀ (s : State) (q : Req),
    s.admits q 6 = true →
    isVf q = false →
    ∃ t, exec (.pairHighRead q 0x40014) s = .next t ∧
      s.answered t q cOK [(heldWord s.dev.cap (reqIx q) SYNC_MEAS_TIME).getD (s.rd (SYNC_MEAS_TIME + 4))] false ∧
      heldWord t.dev.cap (reqIx q) SYNC_MEAS_TIME = none ∧
      t = { s with cpl := t.cpl, dev := t.dev }) ∧
  (∀ (s : State) (q : Req) (v : Word),
    s.admits q 6 = true →
    isVf q = false →
    ∃ t, exec (.pairLowWrite q 0x40010 v) s = .next t ∧
      s.answered t q cOK [] false ∧
      heldWord t.dev.low (reqIx q) SYNC_MEAS_TIME = some v.toNat ∧
      t = { s with cpl := t.cpl, dev := t.dev }) ∧
  (∀ (s : State) (q : Req) (v : Word),
    s.admits q 6 = true →
    isVf q = false →
    (heldWord s.dev.low (reqIx q) SYNC_MEAS_TIME).getD 0 < 2 ^ 32 →
    ∃ t, exec (.pairHighWrite q 0x40014 v) s = .next t ∧
      s.answered t q cOK [] false ∧
      t.rd SYNC_MEAS_TIME = (heldWord s.dev.low (reqIx q) SYNC_MEAS_TIME).getD (s.rd SYNC_MEAS_TIME) ∧
      t.rd (SYNC_MEAS_TIME + 4) = v.toNat ∧
      heldWord t.dev.low (reqIx q) SYNC_MEAS_TIME = none ∧
      s.sameRegs t [SYNC_MEAS_TIME, SYNC_MEAS_TIME + 4] ∧
      t = { s with regs := t.regs, cpl := t.cpl, dev := t.dev })

/-- Access across an instance boundary is refused at 2 µs and changes nothing; a multicast write reaches exactly the selected clusters. A virtual function that accesses a register of another instance's step window gets REFUSED with the fixed 2 µs mark and reads 0, and no register but its own GLB_CFG_ERR changes. A multicast write of the management processor to CLA_REP_CTRL sets THR and EN in each selected cluster (none of them gone, none owned) and in no other. Rests on: R16, R20, R204, R245, R409. -/
def Obligations.InstanceBoundaryAndMulticastAccesses : Prop :=
  (∀ (s : State) (v j : InstNo) (w : Option Word),
    s.admits (.vf v) 6 = true →
    v ≠ j →
    ∃ t, exec (.crossInstanceRefusal (.vf v) (BitVec.ofNat 32 (STEP_PERIOD j.val)) w) s = .next t ∧
      s.answered t (.vf v) cREFUSED (if w.isSome then [] else [0]) true ∧
      t.fv (GLB_CFG_ERR (reqIx (.vf v))) GLB_CFG_ERR.LAST_CODE = cREFUSED ∧
      s.sameRegs t [GLB_CFG_ERR (reqIx (.vf v))] ∧
      t = { s with regs := t.regs, cpl := t.cpl, dev := t.dev }) ∧
  (∀ (s : State) (bands cols : Byte) (v : Word),
    s.admits .mp 0 = true →
    (∀ c : Fin 64, s.clGone c.val = false ∧ s.clInst c.val = none) →
    v.toNat % 16 ≠ 0 →
    ∃ t, exec (.multicastWrite .mp bands cols 0x700 v) s = .next t ∧
      s.answered t .mp cOK [] false ∧
      (∀ c : Fin 64, t.rd (CLA_REP_CTRL c.val) % 32 = (if bands.toNat.testBit (c.val / 8) && cols.toNat.testBit (c.val % 8) then v.toNat else s.rd (CLA_REP_CTRL c.val)) % 32) ∧
      s.sameRegs t ((List.range 64).map CLA_REP_CTRL) ∧
      t = { s with regs := t.regs, cpl := t.cpl, dev := t.dev })

/-- A window write that is admitted stores its bytes at its address and nowhere else; a read returns the stored bytes. For module memory, core SRAM and segments, in every state where the window admits the access (State.memOpen, sramOpen, segOpen: rights, unit state, alignment block): a write completes OK, afterwards each address of the access reads as written and every other address as before; a read completes OK with the stored bytes and changes no stored byte. SRAM statements take words without check errors, segment statements clean bonds. Rests on: R15, R42, R51, R92, R93, R358, R359, R360. -/
def Obligations.MemoryWindowsReadAndWriteTheirBytes : Prop :=
  (∀ (s : State) (q : Req) (a : BitVec 48) (d : List Byte),
    s.memOpen q a.toNat (.wr d) = true →
    ∃ t, exec (.memoryWindowAccess q a (.wr d)) s = .next t ∧
      s.answered t q cOK [] false ∧
      (∀ i, i < d.length → modByte (a.toNat + i) t = d.getD i 0) ∧
      (∀ b, b < a.toNat ∨ a.toNat + d.length ≤ b → modByte b t = modByte b s) ∧
      t = { s with regs := t.regs, memc := t.memc, cpl := t.cpl } ∧
      s.sameRegs t [MEMC_WR_B, MEMC_WR_B + 4]) ∧
  (∀ (s : State) (q : Req) (a : BitVec 48) (n : Nat),
    s.memOpen q a.toNat (.rd n) = true →
    ∃ t, exec (.memoryWindowAccess q a (.rd n)) s = .next t ∧
      s.answered t q cOK ((modRead a.toNat n s).map (·.toNat)) false ∧
      t = { s with regs := t.regs, cpl := t.cpl } ∧
      s.sameRegs t [MEMC_RD_B, MEMC_RD_B + 4]) ∧
  (∀ (s : State) (q : Req) (p : Fin 2048) (o : BitVec 18) (d : List Byte),
    s.sramOpen q p.val o.toNat (.wr d) = true →
    s.sramSyn = [] →
    ∃ t, exec (.coreSramWindowAccess q p o (.wr d)) s = .next t ∧
      s.answered t q cOK [] false ∧
      t.rdN d.length (sramBase p.val + o.toNat) = d ∧
      (∀ b, b < sramBase p.val + o.toNat ∨ sramBase p.val + o.toNat + d.length ≤ b → t.rdB b = s.rdB b) ∧
      t = { s with regs := t.regs, mem := t.mem, cpl := t.cpl }) ∧
  (∀ (s : State) (q : Req) (p : Fin 2048) (o : BitVec 18) (n : Nat),
    s.sramOpen q p.val o.toNat (.rd n) = true →
    s.sramSyn = [] →
    ∃ t, exec (.coreSramWindowAccess q p o (.rd n)) s = .next t ∧
      s.answered t q cOK ((s.rdN n (sramBase p.val + o.toNat)).map (·.toNat)) false ∧
      t = { s with regs := t.regs, cpl := t.cpl }) ∧
  (∀ (s : State) (q : Req) (c : Cl) (g : Fin 32) (o : BitVec 21) (d : List Byte),
    s.segOpen q c.val g.val o.toNat (.wr d) = true →
    (s.cluster c.val).migrate = none →
    ∃ t, exec (.segmentWindowAccess q c g o (.wr d)) s = .next t ∧
      s.answered t q cOK [] false ∧
      t.rdN d.length (segBase c.val g.val + o.toNat) = d ∧
      (∀ b, b < segBase c.val g.val + o.toNat ∨ segBase c.val g.val + o.toNat + d.length ≤ b → t.rdB b = s.rdB b) ∧
      t = { s with regs := t.regs, mem := t.mem, cpl := t.cpl }) ∧
  (∀ (s : State) (q : Req) (c : Cl) (g : Fin 32) (o : BitVec 21) (n : Nat),
    s.segOpen q c.val g.val o.toNat (.rd n) = true →
    ∃ t, exec (.segmentWindowAccess q c g o (.rd n)) s = .next t ∧
      s.answered t q cOK ((s.rdN n (segBase c.val g.val + o.toNat)).map (·.toNat)) false ∧
      t = { s with regs := t.regs, cpl := t.cpl })

/-- A CLA_SEGMAP write starts a connection change; its end connects the segment and rewrites the floor-plan map; a failed supervisor is bypassed. An admitted write of CLA_SEGMAP with CONN = 1 naming a good, free segment for a halted core appends the change (slot, old segment, new segment) to the cluster's list and completes OK without touching the map. The end of the oldest change connects the segment, counts a switch and moves GLB_FPM_GEN by 2. A failing band supervisor is recorded as bypassed with a fault record. Rests on: R28, R36, R89, R90. -/
def Obligations.SegmentSwitchAndSupervisorFailure : Prop :=
  (∀ (s : State) (q : Req) (c : Cl) (k : Sl) (v : Word),
    s.clusterOpen q c.val = true →
    coreState (pcid c k) s = stOff ∨ halted (pcid c k) s = true →
    s.slotGone (pcid c k) = false →
    bit v.toNat 31 = true ∧ bits v.toNat 0 5 ≤ 16 →
    bit (s.fv (CLA_SEGOK c.val) CLA_SEGOK.OK) (bits v.toNat 0 5) = true →
    slotOf c.val (bits v.toNat 0 5) s = none ∨ slotOf c.val (bits v.toNat 0 5) s = some k.val →
    (s.cluster c.val).swaps = [] →
    ∃ t, exec (.segmapWrite q c k v) s = .next t ∧
      (t.cluster c.val).swaps = [(k.val, s.segOf (pcid c k), some (bits v.toNat 0 5))] ∧
      s.answered t q cOK [] false ∧
      t.regs = s.regs ∧ t.mem = s.mem) ∧
  (∀ (s : State) (c : Cl) (k : Sl) (o : Option Nat) (g : Nat) (r : List (Nat × Option Nat × Option Nat)),
    (s.cluster c.val).swaps = (k.val, o, some g) :: r →
    g ≤ 16 →
    ∃ t, exec (.segmapChangeEnd c) s = .next t ∧
      (t.cluster c.val).swaps = r ∧
      t.segOf (pcid c k) = some g ∧
      t.rd GLB_FPM_GEN = (s.rd GLB_FPM_GEN + 2) % 2 ^ 32 ∧
      t.mem = s.mem ∧ t.cpl = s.cpl) ∧
  (∀ (s : State) (b : Fin 8),
    s.net.bandsDown.contains b.val = false →
    ∃ t, exec (.bandSupervisorFail b) s = .next t ∧
      t.net.bandsDown = b.val :: s.net.bandsDown ∧
      t.dev.frecs.length = min 64 (s.dev.frecs.length + 1) ∧
      t.mem = s.mem ∧ t.cpl = s.cpl)

/-- An event at a core's data port is filed in the slot of its delay, or discarded and counted; waiting events go on when the port can take them. A core takes an event of a good check and a good axon entry by appending it to the delay-ring slot of its target step and counting it in CORE_EVT_IN. An event that reaches a cluster with nothing waiting at its position and an open port leaves the delivery queue as the core takes it; one for a position that holds no core is counted in CLA_RTR_UNROUTE; one of another instance in CLA_RTR_INST_ERR. A returned block lets the waiting event be taken; the end of closing up opens its slot again. The taking clauses are for switches with nothing waiting. Rests on: R54, R55, R56, R58, R59, R194, R220, R227, R228. -/
def Obligations.EventsAreFiledOrCountedAtTheDataPort : Prop :=
  (∀ (s : State) (c : Cl) (k : Sl) (e : EvtIn) (v : Nat),
    s.faulted (pcid c k) = false ∧ (s.core (pcid c k)).closing = [] →
    (secDec 36 (bits e.ev.toNat 28 36) (bits e.ev.toNat 22 6 + 64 * b2n e.hpar)).1 = some (bits e.ev.toNat 28 36) →
    bits e.ev.toNat 60 4 ≤ 1 ∧ bits e.ev.toNat 32 16 < axtLen (pcid c k) s →
    rdAxn (pcid c k) (bits e.ev.toNat 32 16) s = (some v, s) ∧ bits v 36 4 ≤ 5 ∧ bits v 20 16 ≠ 0 →
    1 ≤ evtDelay (pcid c k) e s ∧ evtDelay (pcid c k) e s ≤ 16 →
    (ringPut (pcid c k) ((cur (pcid c k) s + evtDelay (pcid c k) e s) % 16) false 0 0 s).isSome = true →
    ∃ t, coreEvent (pcid c k) e s = some t ∧
      (ringSlot (pcid c k) ((cur (pcid c k) s + evtDelay (pcid c k) e s) % 16) t).n = (ringSlot (pcid c k) ((cur (pcid c k) s + evtDelay (pcid c k) e s) % 16) s).n + 1 ∧
      t.rd64 (CORE_EVT_IN (pcid c k)) = (s.rd64 (CORE_EVT_IN (pcid c k)) + 1) % 2 ^ 64 ∧
      t.cpl = s.cpl ∧ t.out = s.out) ∧
  (∀ (s : State) (c : Cl) (k : Sl) (e : EvtIn) (u : State),
    s.clGone c.val = false ∧ s.fb (CLA_SLOTTAB c.val (evPos e.ev.toNat)) CLA_SLOTTAB.VALID = true ∧ s.fv (CLA_SLOTTAB c.val (evPos e.ev.toNat)) CLA_SLOTTAB.SLOT = k.val →
    coreState (pcid c k) s = stRun ∧ portOpen (pcid c k) s = true →
    s.clInst c.val = some e.inst.toNat ∧ s.dev.drainCl.contains c.val = false ∧ resetting e.inst.toNat s = false →
    s.dlv c.val (evPos e.ev.toNat) = [] ∧ (s.cluster c.val).spill = [] →
    coreEvent (pcid c k) e (s.setDlv c.val (evPos e.ev.toNat) [e]) = some u →
    (u.cluster c.val).spill = [] ∧ (u.cluster c.val).fences = [] ∧ u.net.outs = [] →
    ∃ t, exec (.coreEventArrival c e) s = .next t ∧
      t = u.setDlv c.val (evPos e.ev.toNat) []) ∧
  (∀ (s : State) (c : Cl) (e : EvtIn),
    s.clGone c.val = false →
    s.fb (CLA_SLOTTAB c.val (evPos e.ev.toNat)) CLA_SLOTTAB.VALID = false →
    ∃ t, exec (.coreEventArrival c e) s = .next t ∧
      t.rd (CLA_RTR_UNROUTE c.val) = satU 32 (s.rd (CLA_RTR_UNROUTE c.val) + 1) ∧
      s.sameRegs t [CLA_RTR_UNROUTE c.val] ∧
      t = { s with regs := t.regs, insts := t.insts }) ∧
  (∀ (s : State) (c : Cl) (k : Sl) (e : EvtIn),
    s.clGone c.val = false ∧ s.fb (CLA_SLOTTAB c.val (evPos e.ev.toNat)) CLA_SLOTTAB.VALID = true ∧ s.fv (CLA_SLOTTAB c.val (evPos e.ev.toNat)) CLA_SLOTTAB.SLOT = k.val →
    coreState (pcid c k) s ≠ stOff ∧ s.clInst c.val ≠ some e.inst.toNat →
    ∃ t, exec (.coreEventArrival c e) s = .next t ∧
      t.rd (CLA_RTR_INST_ERR c.val) = satU 32 (s.rd (CLA_RTR_INST_ERR c.val) + 1) ∧
      s.sameRegs t [CLA_RTR_INST_ERR c.val] ∧
      t = { s with regs := t.regs, insts := t.insts }) ∧
  (∀ (s : State) (c : Cl) (k : Sl) (waited : Word) (l : Nat) (e : EvtIn) (u : State),
    s.lcid (pcid c k) = some l ∧ s.dlv c.val (l % 16) = [e] →
    s.fb (CLA_SLOTTAB c.val (l % 16)) CLA_SLOTTAB.VALID = true ∧ s.fv (CLA_SLOTTAB c.val (l % 16)) CLA_SLOTTAB.SLOT = k.val →
    portOpen (pcid c k) s = true →
    coreEvent (pcid c k) e (s.inc (CORE_PEND_FULL (pcid c k)) waited.toNat) = some u →
    (u.cluster c.val).spill = [] ∧ (u.cluster c.val).fences = [] ∧ u.net.outs = [] →
    ∃ t, exec (.pendBlockFreeResume c k waited) s = .next t ∧
      t = u.setDlv c.val (l % 16) []) ∧
  (∀ (s : State) (c : Cl) (k : Sl) (slot : Fin 16),
    (s.core (pcid c k)).closing.contains slot.val = true →
    posQueue (pcid c k) s = [] ∧ (s.cluster c.val).spill = [] ∧ s.net.outs = [] →
    ∃ t, exec (.pendCloseupEnd c k slot) s = .next t ∧
      t = s.setCore (pcid c k) { s.core (pcid c k) with closing := (s.core (pcid c k)).closing.filter (· != slot.val) })

/-- A core goes through its step in order: open, walk end, emission, done, close, commit; and gates its clock when idle. From the phase before it each command leads to the next: the taking of a held open of step t by a running core sets CORE_STEP to t; the walk's end finishes the updates; the emitter sends the event of the next fan-out entry to the cluster that holds its destination; done enters the halted state if HALT is set; close bastes; commit records the step, empties its delay-ring slot and goes idle; the command ends an epoch close that runs. A core with no work enters Idle. Rests on: R66, R67, R76, R79, R83, R110, R111, R191. -/
def Obligations.CoreStepPhasesFollowInOrder : Prop :=
  (∀ (s : State) (c : Cl) (k : Sl) (n : BitVec 48),
    (s.core (pcid c k)).phase = .idle ∧ (s.core (pcid c k)).heldOpens = [n.toNat] ∧ s.sramSyn = [] →
    coreState (pcid c k) s = stRun ∧ openable (pcid c k) n.toNat s = true →
    (ringSlot (pcid c k) (n.toNat % 16) s).n = 0 →
    ∃ t, exec (.coreStepOpen c k n) s = .next t ∧
      (t.core (pcid c k)).phase = .walked ∧
      cur (pcid c k) t = n.toNat ∧
      (t.core (pcid c k)).heldOpens = [] ∧
      t.cpl = s.cpl ∧ t.insts = s.insts) ∧
  (∀ (s : State) (c : Cl) (k : Sl) (feed held : Word),
    (s.core (pcid c k)).phase = .walked →
    s.faulted (pcid c k) = false →
    ∃ t, exec (.synapseWalkEnd c k feed held) s = .next t ∧
      (t.core (pcid c k)).phase = .updated) ∧
  (∀ (s : State) (c : Cl) (k : Sl) (d f i : Nat),
    s.faulted (pcid c k) = false ∧ (s.cluster c.val).noInject = false ∧ s.sramSyn = [] →
    0 < (s.core (pcid c k)).stgN ∧ s.clInst c.val = some i →
    s.segChk (pcid c k) (s.fv (CORE_FOD_BASE (pcid c k)) CORE_FOD_BASE.BASE + 2 * bits (stagedWord (pcid c k) s) 0 13) 32 32 false = (some d, s) →
    (s.core (pcid c k)).emitIdx < bits d 20 12 →
    s.segChk (pcid c k) (bits d 0 20 + 2 * (s.core (pcid c k)).emitIdx) 46 46 false = (some f, s) →
    bit f 44 = false ∧ s.ownsBlk i (bits f 0 12 / 16) = true ∧ s.fv (DNET_BLK (bits f 0 12 / 16)) DNET_BLK.CLNUM ≠ c.val →
    (s.cluster c.val).inj = [] ∧ s.net.outs = [] →
    ∃ t, exec (.emitterSend c k) s = .next t ∧
      t.out = evFlit (epCluster c.val) (evtHdr (epCluster (s.fv (DNET_BLK (bits f 0 12 / 16)) DNET_BLK.CLNUM)) (epCluster c.val) i (fanEvent f (bit (stagedWord (pcid c k) s) 13) (bits (stagedWord (pcid c k) s) 16 16)).2 (cur (pcid c k) s % 32) c.val false 0) (fanEvent f (bit (stagedWord (pcid c k) s) 13) (bits (stagedWord (pcid c k) s) 16 16)).1 :: s.out ∧
      t.rd64 (CORE_EVT_OUT (pcid c k)) = (s.rd64 (CORE_EVT_OUT (pcid c k)) + 1) % 2 ^ 64 ∧
      (t.mem = s.mem ∨ (s.core (pcid c k)).stgWait ≠ [])) ∧
  (∀ (s : State) (c : Cl) (k : Sl),
    (s.core (pcid c k)).phase = .updated ∧ (s.core (pcid c k)).stgN = 0 →
    s.faulted (pcid c k) = false →
    ∃ t, exec (.coreDone c k) s = .next t ∧
      (t.core (pcid c k)).phase = .done ∧
      halted (pcid c k) t = (halted (pcid c k) s || s.fb (CORE_CTRL (pcid c k)) CORE_CTRL.HALT) ∧
      t.mem = s.mem ∧ s.sameRegs t [CORE_STATE (pcid c k)]) ∧
  (∀ (s : State) (c : Cl) (k : Sl),
    (s.core (pcid c k)).phase = .done ∧ (s.core (pcid c k)).closeFor = some (cur (pcid c k) s) ∧ s.faulted (pcid c k) = false →
    closeDue (pcid c k) (cur (pcid c k) s) s = false →
    (basteClose (pcid c k) (s.setCore (pcid c k) { s.core (pcid c k) with closeFor := none })).faulted (pcid c k) = false →
    ∃ t, exec (.coreStepClose c k) s = .next t ∧
      (t.core (pcid c k)).phase = .closed ∧
      (t.core (pcid c k)).swept = false ∧
      t.mem = (basteClose (pcid c k) (s.setCore (pcid c k) { s.core (pcid c k) with closeFor := none })).mem) ∧
  (∀ (s : State) (c : Cl) (k : Sl) (x : Word),
    (s.core (pcid c k)).phase = .closed ∧ s.faulted (pcid c k) = false →
    lrnEn (pcid c k) s = false ∧ (s.cluster c.val).migrate = none →
    s.clParts c.val = [] ∧ (commitMirror (pcid c k) (cur (pcid c k) s) s).faulted (pcid c k) = false →
    (ringSlot (pcid c k) (cur (pcid c k) s % 16) s).later = 0 →
    ∃ t, exec (.coreStepCommit c k x) s = .next t ∧
      (t.core (pcid c k)).phase = .idle ∧
      (t.core (pcid c k)).lastCommit = some (cur (pcid c k) s) ∧
      ringSlot (pcid c k) (cur (pcid c k) s % 16) t = {} ∧
      t.mem = (commitMirror (pcid c k) (cur (pcid c k) s) s).mem) ∧
  (∀ (s : State) (c : Cl) (k : Sl) (x : Word),
    (s.core (pcid c k)).phase = .closing ∧ s.faulted (pcid c k) = false →
    ∃ t, exec (.coreStepCommit c k x) s = .next t ∧
      (t.core (pcid c k)).phase = .idle ∧
      t.fb (LRN_STAT (pcid c k)) LRN_STAT.CLOSING = false) ∧
  (∀ (s : State) (c : Cl) (k : Sl),
    coreState (pcid c k) s = stRun ∧ s.fb (CORE_CTRL (pcid c k)) CORE_CTRL.IDLE_DLY = true ∧ s.faulted (pcid c k) = false →
    (s.core (pcid c k)).phase = .idle ∧ posQueue (pcid c k) s = [] ∧ (s.core (pcid c k)).mac.job = none ∧ (s.core (pcid c k)).q.inBuf = [] ∧ (s.core (pcid c k)).q.taken = [] →
    ∃ t, exec (.coreIdleTimeout c k) s = .next t ∧
      coreState (pcid c k) t = stIdle ∧
      t = s.fs (CORE_STATE (pcid c k)) CORE_STATE.STATE stIdle)

/-- HALT, release, counter clear and pool formatting of a core, where its port is open to the requester. A write with HALT = 1 sets HALT and halts the core at once unless it is in the midst of its step work; HALT = 0 on a halted idle core whose checks pass makes it run (STATE Run, HALTED 0, no step committed since), on one whose checks fail answers BAD_ARG and leaves it halted, on a core that is not halted clears HALT alone; CORE_CNT_CLR zeroes the event counter and the high-water mark; INIT starts formatting, whose end completes the write and leaves N - 1 units free. Rests on: R74, R83, R86, R118. -/
def Obligations.CoreControlWritesComplete : Prop :=
  (∀ (s : State) (q : Req) (c : Cl) (k : Sl) (v : Word),
    s.coreOpen q (pcid c k) true = true →
    ∃ t, exec (.coreHalt q c k v) s = .next t ∧
      t.fb (CORE_CTRL (pcid c k)) CORE_CTRL.HALT = true ∧
      halted (pcid c k) t = (halted (pcid c k) s || (coreState (pcid c k) s != stOff && (s.core (pcid c k)).phase != .walked && (s.core (pcid c k)).phase != .updated)) ∧
      s.answered t q cOK [] false ∧
      t.mem = s.mem ∧ t.cores = s.cores) ∧
  (∀ (s : State) (q : Req) (c : Cl) (k : Sl) (v : Word),
    s.coreOpen q (pcid c k) true = true ∧ s.clPwr c.val ≠ 1 →
    coreState (pcid c k) s = stIdle ∧ halted (pcid c k) s = true ∧ s.faulted (pcid c k) = false ∧ lrnEn (pcid c k) s = false →
    (releaseChecks (pcid c k) s).1 = true ∧ (releaseChecks (pcid c k) s).2.faulted (pcid c k) = false →
    ∃ t, exec (.coreRelease q c k v) s = .next t ∧
      halted (pcid c k) t = false ∧
      coreState (pcid c k) t = stRun ∧
      t.fb (CORE_CTRL (pcid c k)) CORE_CTRL.HALT = false ∧
      (t.core (pcid c k)).lastCommit = none ∧
      s.answered t q cOK [] false) ∧
  (∀ (s : State) (q : Req) (c : Cl) (k : Sl) (v : Word),
    s.coreOpen q (pcid c k) true = true ∧ s.clPwr c.val ≠ 1 →
    halted (pcid c k) s = false ∧ s.faulted (pcid c k) = false →
    ∃ t, exec (.coreRelease q c k v) s = .next t ∧
      t.fb (CORE_CTRL (pcid c k)) CORE_CTRL.HALT = false ∧
      s.answered t q cOK [] false ∧
      s.sameRegs t [CORE_CTRL (pcid c k)] ∧
      t = { s with regs := t.regs, cpl := t.cpl, dev := t.dev }) ∧
  (∀ (s : State) (q : Req) (c : Cl) (k : Sl) (v : Word),
    s.coreOpen q (pcid c k) true = true ∧ s.clPwr c.val ≠ 1 →
    coreState (pcid c k) s = stIdle ∧ halted (pcid c k) s = true ∧ s.faulted (pcid c k) = false →
    (releaseChecks (pcid c k) s).1 = false ∧ (releaseChecks (pcid c k) s).2.faulted (pcid c k) = false →
    ∃ t, exec (.coreRelease q c k v) s = .next t ∧
      halted (pcid c k) t = true ∧
      s.answered t q cBAD_ARG [] false) ∧
  (∀ (s : State) (q : Req) (c : Cl) (k : Sl) (v : Word),
    s.coreOpen q (pcid c k) true = true →
    bit v.toNat 0 = true →
    ∃ t, exec (.coreCntClr q c k v) s = .next t ∧
      t.rd64 (CORE_EVT_IN (pcid c k)) = 0 ∧
      t.fv (CORE_PEND (pcid c k)) CORE_PEND.HWM = 0 ∧
      t.fv (Q_STAT (pcid c k) 63) Q_STAT.HWM = 0 ∧
      s.answered t q cOK [] false ∧
      t = { s with regs := t.regs, cpl := t.cpl, dev := t.dev }) ∧
  (∀ (s : State) (q : Req) (c : Cl) (k : Sl) (v : Word),
    s.coreOpen q (pcid c k) true = true →
    bit v.toNat 0 = true ∧ halted (pcid c k) s = true ∧ (s.core (pcid c k)).poolFmt = none →
    ∃ t, exec (.poolInit q c k v) s = .next t ∧
      (t.core (pcid c k)).poolFmt = some q ∧
      t.cpl = s.cpl ∧ t.mem = s.mem) ∧
  (∀ (s : State) (c : Cl) (k : Sl) (q : Req),
    (s.core (pcid c k)).poolFmt = some q →
    ∃ t, exec (.poolFormatDone c k) s = .next t ∧
      (t.core (pcid c k)).poolFmt = none ∧
      s.answered t q cOK [] false ∧
      t.fv (CORE_POOL_STAT (pcid c k)) CORE_POOL_STAT.BROKEN = 0 ∧
      t.fv (CORE_POOL_STAT (pcid c k)) CORE_POOL_STAT.FREE = (poolN (pcid c k) s - 1) % 2 ^ CORE_POOL_STAT.FREE.w)

/-- The MAC array takes and completes queued descriptors; a statistics reduction is started, captured and completed. A queued dense entry that meets the validation becomes the array's job with BUSY set; its completion frees the array. A write of SYNC_STAT_CTRL with GO starts the reduction of its instance; the capture records each cluster's trackers; when every cluster has answered the device maximum is written, TAG counts up and BUSY clears. Rests on: R171, R183, R184, R187, R248. -/
def Obligations.MacDescriptorsAndStatisticsReductions : Prop :=
  (∀ (s : State) (c : Cl) (k : Sl) (e : QTaken),
    s.unitStill (pcid c k) = true ∧ engTaken (pcid c k) .dense s = some e →
    (s.core (pcid c k)).mac.job = none ∧ s.fb (MAC_CTRL (pcid c k)) MAC_CTRL.HOLD = false →
    macAdmit (pcid c k) (bits (dw e.words 0) 4 4) true false (e.words.drop 4) s = cOK →
    ∃ t, exec (.macTakeQueued c k) s = .next t ∧
      (t.core (pcid c k)).mac.job = some (e.words.drop 4) ∧
      t.fv (MAC_STAT (pcid c k)) MAC_STAT.BUSY = 1 ∧
      s.sameRegs t [MAC_STAT (pcid c k)] ∧
      t = { s with regs := t.regs, cores := t.cores }) ∧
  (∀ (s : State) (c : Cl) (k : Sl) (feed held : Word) (d : List Nat) (e : QTaken),
    s.unitStill (pcid c k) = true ∧ (s.core (pcid c k)).mac.job = some d ∧ engTaken (pcid c k) .dense s = some e →
    bit (dw e.words 0) 18 = false ∧ bits (dw e.words 0) 8 8 = s.gen (bits (dw e.words 0) 4 4) →
    ∃ t, exec (.macDescComplete c k feed held) s = .next t ∧
      (t.core (pcid c k)).mac.job = none ∧
      t.fv (MAC_STAT (pcid c k)) MAC_STAT.BUSY = 0) ∧
  (∀ (s : State) (q : Req) (v : Word) (i : InstNo),
    s.gateOpen q 6 = true →
    (if isVf q then q = .vf i else bits v.toNat 4 4 = i.val) →
    bits v.toNat 1 2 ≤ 1 →
    s.fb (SYNC_STAT_CTRL (statCopy i.val)) SYNC_STAT_CTRL.BUSY = false →
    ∃ t, exec (.statReduceGo q v) s = .next t ∧
      t.fv (SYNC_STAT_CTRL (statCopy i.val)) SYNC_STAT_CTRL.BUSY = 1 ∧
      (t.inst i.val).stat = some ⟨bits v.toNat 1 2 == 0, bit v.toNat 3, none, []⟩ ∧
      s.answered t q cOK [] false ∧
      t.mem = s.mem) ∧
  (∀ (s : State) (i : InstNo) (b : Bool) (l : List Nat),
    (s.inst i.val).stat = some ⟨b, false, none, l⟩ →
    b = false ∨ atBoundary i.val s = true →
    ∃ t, exec (.statCapture i) s = .next t ∧
      (t.inst i.val).stat = some ⟨b, false, some (((s.instClusters i.val).filter fun c => !s.clGone c).map fun c => (statCap false i.val c s).1), l⟩ ∧
      t = { s with insts := t.insts }) ∧
  (∀ (s : State) (i : InstNo) (b c : Bool) (m : List (Nat × Nat × Nat × Nat × Nat)) (l : List Nat),
    (s.inst i.val).stat = some ⟨b, c, some m, l⟩ →
    m.all (fun r => l.contains r.1) = true ∧ m.all (fun r => decide (r.2.1 < 2 ^ 32)) = true →
    ∃ t, exec (.statReduceComplete i) s = .next t ∧
      (t.inst i.val).stat = none ∧
      t.fv (SYNC_STAT_CTRL (statCopy i.val)) SYNC_STAT_CTRL.BUSY = 0 ∧
      t.fv (SYNC_STAT_CTRL (statCopy i.val)) SYNC_STAT_CTRL.TAG = (s.fv (SYNC_STAT_CTRL (statCopy i.val)) SYNC_STAT_CTRL.TAG + 1) % 2 ^ 16 ∧
      t.rd (SYNC_MAXABS_I_DEV (statCopy i.val)) = (m.map (·.2.1)).foldl max 0 ∧
      t.mem = s.mem ∧ t.cpl = s.cpl)

/-- DONE messages combine, the complete barrier sends the next token, tokens reach the clusters, and the instance commits with its clusters. A good SYNC DONE of a cluster for the open step is recorded once, with the differences it carries. When all clusters are done, injected equals delivered, no child is missing and the remote difference is 0, the root opens the next step (STEP_CUR + 1) and sends a token with the close of the open step and its earliest open time; another device marks its report. A token is delivered to the clusters with participants; an open goes to the cores when TIME64 has reached its time, a close to every participant when all are done. The timeout sets BAR_TMO once per step while a condition is missing. When every cluster has committed, the instance commits, and stops if the run had ended. Rests on: R191, R192, R194, R195, R198, R203, R248, R440. -/
def Obligations.LockstepBarrierAndCommit : Prop :=
  (∀ (s : State) (w0 w1 : DWord) (c : Cl) (i : InstNo) (n a : Nat),
    syncRecv w0.toNat w1.toNat s = (some (1, i.val, n, a), s) →
    (s.inst i.val).opened = some n ∧ (s.inst i.val).doneCl.any (fun y => y.1 == c.val) = false ∧ (s.inst i.val).final = false →
    ∃ t, exec (.syncDone c w0 w1) s = .next t ∧
      (t.inst i.val).doneCl = (s.inst i.val).doneCl ++ [(c.val, a % 2 ^ 32, a / 2 ^ 32 % 2 ^ 32)] ∧
      t = { s with insts := t.insts, out := t.out }) ∧
  (∀ (s : State) (i : InstNo),
    barrierReady i.val s = true ∧ s.fb (STEP_SGRP i.val) STEP_SGRP.ROOT = true →
    (s.inst i.val).reports = [] ∧ remDiff i.val s = 0 →
    stepState i.val s = stRunning ∧ stepCur i.val s + 1 ≤ s.fv (STEP_LIMIT i.val) STEP_LIMIT.LIMIT ∧ stepCur i.val s + 1 ≠ anyStep →
    ∃ t, exec (.barrierComplete i) s = .next t ∧
      stepCur i.val t = stepCur i.val s + 1 ∧
      (t.inst i.val).opened = some (stepCur i.val s + 1) ∧
      (t.inst i.val).tokens = (s.inst i.val).tokens ++ [⟨(s.inst i.val).opened, some (stepCur i.val s + 1), s.rd64 (STEP_OPEN_T i.val) + s.fv (STEP_MINLEN i.val) STEP_MINLEN.NS⟩] ∧
      t = { s with regs := t.regs, insts := t.insts, out := t.out, dev := t.dev }) ∧
  (∀ (s : State) (i : InstNo),
    barrierReady i.val s = true ∧ s.fb (STEP_SGRP i.val) STEP_SGRP.ROOT = false →
    (s.inst i.val).reported ≠ some (stepCur i.val s) →
    ∃ t, exec (.barrierComplete i) s = .next t ∧
      (t.inst i.val).reported = some (stepCur i.val s) ∧
      stepCur i.val t = stepCur i.val s) ∧
  (∀ (s : State) (w0 w1 : DWord) (i : InstNo) (n e : Nat) (k : Token) (c o : Nat),
    syncRecv w0.toNat w1.toNat s = (some (2, i.val, n, e), s) →
    (s.inst i.val).tokens.find? (·.isFor n) = some k ∧ k.opn = some o →
    partCl i.val s = [c] →
    ∃ t, exec (.syncAdv false w0 w1) s = .next t ∧
      (t.inst i.val).tokens = (s.inst i.val).tokens.filter (· != k) ∧
      (t.cluster c).opens = (s.cluster c).opens ++ [(o, k.time)] ∧
      t = { s with insts := t.insts, clusters := t.clusters }) ∧
  (∀ (s : State) (w0 w1 : DWord) (i : InstNo) (n e : Nat),
    syncRecv w0.toNat w1.toNat s = (some (2, i.val, n, e), s) →
    stepState i.val s = stRunning ∧ timed i.val s = false ∧ s.fb (STEP_SGRP i.val) STEP_SGRP.ROOT = false →
    (s.inst i.val).final = false ∧ (s.inst i.val).reports = [] →
    n = stepCur i.val s + 1 ∧ n ≤ s.fv (STEP_LIMIT i.val) STEP_LIMIT.LIMIT ∧ n ≠ anyStep →
    ∃ t, exec (.syncAdv true w0 w1) s = .next t ∧
      stepCur i.val t = n ∧
      (t.inst i.val).tokens = [] ∧
      (t.inst i.val).opened = some n) ∧
  (∀ (s : State) (c : Cl) (n e p : Nat) (r : List (Nat × Nat)),
    (s.cluster c.val).opens = (n, e) :: r ∧ e ≤ s.now →
    s.clParts c.val = [p] →
    coreState p s ≠ stOff ∧ (s.core p).heldOpens = [] ∧ (s.core p).lastCommit = none ∧ (s.core p).phase = .idle →
    ∃ t, exec (.clusterOpenRelease c) s = .next t ∧
      (t.cluster c.val).opens = r ∧
      (t.core p).heldOpens = [n] ∧
      t = { s with regs := t.regs, cores := t.cores, clusters := t.clusters }) ∧
  (∀ (s : State) (c : Cl) (n : Nat) (r : List Nat),
    (s.cluster c.val).closes = n :: r ∧ clDone c.val n s = true →
    ∃ t, exec (.clusterCloseRelease c) s = .next t ∧
      (t.cluster c.val).closes = r ∧
      (∀ p, p ∈ s.clParts c.val → (t.core p).closeFor = some n) ∧
      t = { s with clusters := t.clusters, cores := t.cores }) ∧
  (∀ (s : State) (i : InstNo),
    (s.inst i.val).opened.isSome = true ∧ (s.inst i.val).final = false ∧ timed i.val s = false →
    s.fv (STEP_BAR_TMO i.val) STEP_BAR_TMO.US ≠ 0 ∧ (s.inst i.val).tmoStep ≠ (s.inst i.val).opened ∧ barrierMissing i.val s = true →
    ∃ t, exec (.barrierTimeout i) s = .next t ∧
      t.fv (STEP_STATUS i.val) STEP_STATUS.BAR_TMO = 1 ∧
      t.rd (STEP_TMO i.val) = satU 32 (s.rd (STEP_TMO i.val) + 1) ∧
      (t.inst i.val).tmoStep = (s.inst i.val).opened ∧
      t.mem = s.mem ∧ t.cpl = s.cpl) ∧
  (∀ (s : State) (i : InstNo) (c o : Nat),
    (s.inst i.val).opened = some o ∧ (s.inst i.val).final = false ∧ (s.inst i.val).committed = none →
    partCl i.val s = [c] ∧ (s.cluster c).committed = some o →
    ∃ t, exec (.instanceCommit i) s = .next t ∧
      (t.inst i.val).committed = some o ∧
      t = { s with insts := t.insts }) ∧
  (∀ (s : State) (i : InstNo) (c o : Nat),
    (s.inst i.val).opened = some o ∧ (s.inst i.val).final = true ∧ (s.inst i.val).committed = none →
    partCl i.val s = [c] ∧ (s.cluster c).committed = some o ∧ s.power.standbyPend = false →
    ∃ t, exec (.instanceCommit i) s = .next t ∧
      stepState i.val t = stStopped ∧
      (t.inst i.val).opened = none ∧
      t.mem = s.mem ∧ t.cpl = s.cpl) ∧
  (∀ (s : State) (w0 w1 : DWord) (c : Cl) (i : InstNo) (n a : Nat) (x : StatSt),
    syncRecv w0.toNat w1.toNat s = (some (0xA, i.val, n, a), s) →
    (s.inst i.val).stat = some x →
    (x.cap.getD []).any (fun r => r.1 == c.val) = true ∧ x.rsp.contains c.val = false →
    ∃ t, exec (.syncStatRsp c w0 w1) s = .next t ∧
      (t.inst i.val).stat = some { x with rsp := x.rsp ++ [c.val] } ∧
      t = { s with insts := t.insts })

/-- START makes a stopped instance run, STOP ends the run, and the Timed schedule opens each step at its tick or holds the tick under LAGMAX. START on a stopped instance in Lockstep sets STATE to running and, at the root, opens the next step; in Timed mode it arms the schedule. STOP on a running instance with an open step goes to stopping, with none to stopped. A due tick opens the next step and moves the schedule on; a held tick is sent when the lag allows and clears SLIP. Rests on: R199, R200, R202, R203, R204. -/
def Obligations.StepStartStopAndTimedSchedule : Prop :=
  (∀ (s : State) (q : Req) (i : InstNo) (v : Word),
    s.instOpen q i.val = true ∧ s.conf i.val = false ∧ s.fv (SEC_INST i.val) SEC_INST.STATE < 2 →
    stepState i.val s = stStopped →
    bit v.toNat 9 = false ∧ bit v.toNat 0 = false ∧ 1 ≤ bits v.toNat 16 4 ∧ bits v.toNat 16 4 ≤ 8 →
    stepCur i.val s + 1 ≤ s.fv (STEP_LIMIT i.val) STEP_LIMIT.LIMIT ∧ stepCur i.val s + 1 ≠ anyStep →
    ∃ t, exec (.stepStart q i v) s = .next t ∧
      stepState i.val t = stRunning ∧
      stepCur i.val t = (if s.fb (STEP_SGRP i.val) STEP_SGRP.ROOT then stepCur i.val s + 1 else stepCur i.val s) ∧
      (t.inst i.val).injected = 0 ∧ (t.inst i.val).delivered = 0 ∧
      s.answered t q cOK [] false ∧
      t.mem = s.mem) ∧
  (∀ (s : State) (q : Req) (i : InstNo) (v : Word),
    s.instOpen q i.val = true ∧ s.conf i.val = false ∧ s.fv (SEC_INST i.val) SEC_INST.STATE < 2 →
    stepState i.val s = stStopped →
    bit v.toNat 9 = false ∧ bit v.toNat 0 = true ∧ bit v.toNat 1 = false ∧ 1 ≤ bits v.toNat 16 4 ∧ bits v.toNat 16 4 ≤ 8 →
    stepCur i.val s + 1 ≤ s.fv (STEP_LIMIT i.val) STEP_LIMIT.LIMIT ∧ stepCur i.val s + 1 ≠ anyStep →
    (s.now : Int) + 10000 ≤ tickTime i.val (stepCur i.val s + 1) s →
    ∃ t, exec (.stepStart q i v) s = .next t ∧
      stepState i.val t = stRunning ∧
      stepCur i.val t = stepCur i.val s ∧
      (t.inst i.val).nextTick = stepCur i.val s + 1 ∧
      s.answered t q cOK [] false) ∧
  (∀ (s : State) (q : Req) (i : InstNo) (v : Word),
    s.instOpen q i.val = true ∧ s.conf i.val = false →
    stepState i.val s = stRunning →
    bit v.toNat 8 = false ∧ v.toNat &&& stepCtrlRw = s.rd (STEP_CTRL i.val) &&& stepCtrlRw ∧ 1 ≤ bits v.toNat 16 4 ∧ bits v.toNat 16 4 ≤ 8 →
    s.power.standbyPend = false →
    ∃ t, exec (.stepStop q i v) s = .next t ∧
      stepState i.val t = (if (s.inst i.val).opened.isSome then stStopping else stStopped) ∧
      s.answered t q cOK [] false ∧
      t.mem = s.mem) ∧
  (∀ (s : State) (i : InstNo),
    stepState i.val s = stRunning ∧ timed i.val s = true ∧ s.fb (STEP_CTRL i.val) STEP_CTRL.TSRC = false ∧ (s.inst i.val).final = false →
    tickTime i.val (s.inst i.val).nextTick s ≤ s.now →
    (s.inst i.val).ticks = [] ∧ lagFull i.val s = false →
    stepCur i.val s + 1 ≤ s.fv (STEP_LIMIT i.val) STEP_LIMIT.LIMIT ∧ stepCur i.val s + 1 ≠ anyStep →
    ∃ t, exec (.timedTick i) s = .next t ∧
      stepCur i.val t = stepCur i.val s + 1 ∧
      (t.inst i.val).nextTick = (s.inst i.val).nextTick + 1 ∧
      t.mem = s.mem ∧ t.cpl = s.cpl) ∧
  (∀ (s : State) (i : InstNo),
    stepState i.val s = stRunning ∧ timed i.val s = true ∧ s.fb (STEP_CTRL i.val) STEP_CTRL.TSRC = false ∧ (s.inst i.val).final = false →
    tickTime i.val (s.inst i.val).nextTick s ≤ s.now →
    lagFull i.val s = true →
    ∃ t, exec (.timedTick i) s = .next t ∧
      (t.inst i.val).ticks = (s.inst i.val).ticks ++ [((s.inst i.val).nextTick, (tickTime i.val (s.inst i.val).nextTick s).toNat)] ∧
      t.fv (STEP_STATUS i.val) STEP_STATUS.SLIP = 1 ∧
      stepCur i.val t = stepCur i.val s) ∧
  (∀ (s : State) (i : InstNo) (n e : Nat),
    (s.inst i.val).ticks = [(n, e)] ∧ lagFull i.val s = false ∧ stepState i.val s = stRunning →
    stepCur i.val s + 1 ≤ s.fv (STEP_LIMIT i.val) STEP_LIMIT.LIMIT ∧ stepCur i.val s + 1 ≠ anyStep →
    ∃ t, exec (.heldTickRelease i) s = .next t ∧
      stepCur i.val t = stepCur i.val s + 1 ∧
      (t.inst i.val).ticks = [] ∧
      t.fv (STEP_STATUS i.val) STEP_STATUS.SLIP = 0)

/-- An offset up to 1 ms slews, a larger one steps forward, a backward one is recorded; reference loss, rate, PPS and holdover set their bits. For a requester entitled to adjust: an offset within 1,000,000 ns becomes the slew still to apply; one beyond steps TIME64 by it and sets FWDSTEP; one below is recorded with BACKSTEP and BACKSEEN. A rate in range is stored. Loss and return of the reference set and clear REFLOSS; 4 s without offset go to holdover; a PPS_IN edge captures TIME64; PPS_OUT rises once TIME64 plus its offset has passed a further second, and falls. Rests on: R205, R207, R208, R209, R210, R211, R212. -/
def Obligations.TimeAdjustmentsAndReference : Prop :=
  (∀ (s : State) (q : Req) (v : DWord),
    s.gateOpen q 5 = true ∧ mayAdjust q s = true →
    -1000000 ≤ sx 64 v.toNat ∧ sx 64 v.toNat ≤ 1000000 →
    ∃ t, exec (.timeAdjWrite q v) s = .next t ∧
      t.dev.slewLeft = sx 64 v.toNat * 2 ^ 32 ∧
      t.fv TIME_STATUS TIME_STATUS.SLEWING = (if sx 64 v.toNat = 0 then 0 else 1) ∧
      t.fv TIME_STATUS TIME_STATUS.BACKSTEP = 0 ∧
      t.rd64 TIME64 = s.rd64 TIME64 ∧
      s.answered t q cOK [] false) ∧
  (∀ (s : State) (q : Req) (v : DWord),
    s.gateOpen q 5 = true ∧ mayAdjust q s = true →
    1000000 < sx 64 v.toNat →
    ∃ t, exec (.timeAdjWrite q v) s = .next t ∧
      t.rd64 TIME64 = (s.rd64 TIME64 + v.toNat) % 2 ^ 64 ∧
      t.fv TIME_STATUS TIME_STATUS.FWDSTEP = 1 ∧
      t.dev.slewLeft = 0 ∧
      s.answered t q cOK [] false ∧
      t.mem = s.mem) ∧
  (∀ (s : State) (q : Req) (v : DWord),
    s.gateOpen q 5 = true ∧ mayAdjust q s = true →
    sx 64 v.toNat < -1000000 →
    ∃ t, exec (.timeAdjWrite q v) s = .next t ∧
      t.fv TIME_STATUS TIME_STATUS.BACKSTEP = 1 ∧ t.fv TIME_STATUS TIME_STATUS.BACKSEEN = 1 ∧
      t.rd64 TIME_BACKSTEP_OFS = v.toNat ∧
      t.rd64 TIME64 = s.rd64 TIME64 ∧
      s.answered t q cOK [] false) ∧
  (∀ (s : State) (q : Req) (v : Word),
    s.gateOpen q 5 = true ∧ mayAdjust q s = true ∧ s.fb TIME_STATUS TIME_STATUS.BACKSTEP = false →
    -4294967 ≤ sx 32 v.toNat ∧ sx 32 v.toNat ≤ 4294967 →
    ∃ t, exec (.timeRateWrite q v) s = .next t ∧
      t.rd TIME_RATE = v.toNat ∧
      s.answered t q cOK [] false ∧
      s.sameRegs t [TIME_RATE] ∧
      t = { s with regs := t.regs, cpl := t.cpl, dev := t.dev }) ∧
  (∀ (s : State),
    s.dev.slewLeft = 0 →
    ∃ t, exec (.timeSlewDone) s = .next t ∧
      t.fv TIME_STATUS TIME_STATUS.SLEWING = 0 ∧
      t = s.fs TIME_STATUS TIME_STATUS.SLEWING 0) ∧
  (∀ (s : State),
    ∃ t, exec (.timeRefLoss) s = .next t ∧
      t.fv TIME_STATUS TIME_STATUS.REFLOSS = 1 ∧
      t.fv TIME_STATUS TIME_STATUS.LOCK = (if s.fv TIME_STATUS TIME_STATUS.LOCK = 0 then 0 else 3) ∧
      s.sameRegs t [TIME_STATUS] ∧
      t = { s with regs := t.regs }) ∧
  (∀ (s : State),
    ∃ t, exec (.timeRefReturn) s = .next t ∧
      t.fv TIME_STATUS TIME_STATUS.REFLOSS = 0 ∧
      t = s.fs TIME_STATUS TIME_STATUS.REFLOSS 0) ∧
  (∀ (s : State),
    s.fv TIME_STATUS TIME_STATUS.LOCK = 1 ∨ s.fv TIME_STATUS TIME_STATUS.LOCK = 2 →
    ∃ t, exec (.timeOffsetTimeout) s = .next t ∧
      t.fv TIME_STATUS TIME_STATUS.LOCK = 3 ∧
      s.sameRegs t [TIME_STATUS] ∧
      t = { s with regs := t.regs }) ∧
  (∀ (s : State),
    s.fv TIME_CTRL TIME_CTRL.SRC ≠ 4 ∧ s.dev.todWrites = [] →
    ∃ t, exec (.ppsInEdge) s = .next t ∧
      t.rd64 TIME_PPS_CAP = s.rd64 TIME64 ∧
      s.sameRegs t ([TIME_PPS_CAP, TIME_PPS_CAP + 4] ++ (List.range 8).map TMR_COUNT ++ (List.range 8).map fun n => TMR_COUNT n + 4) ∧
      t = { s with regs := t.regs, dev := t.dev }) ∧
  (∀ (s : State),
    s.fv TIME_CTRL TIME_CTRL.SRC = 4 ∧ s.dev.todWrites = [] →
    s.fv TIME_TOD TIME_TOD.SEC + 1 < 2 ^ 48 →
    (s.fv TIME_TOD TIME_TOD.SEC : Int) * 1000000000 - s.rd64 TIME64 ≤ 1000000 ∧ -1000000 ≤ (s.fv TIME_TOD TIME_TOD.SEC : Int) * 1000000000 - s.rd64 TIME64 →
    ∃ t, exec (.ppsInEdge) s = .next t ∧
      t.rd64 TIME_PPS_CAP = s.rd64 TIME64 ∧
      t.fv TIME_TOD TIME_TOD.SEC = s.fv TIME_TOD TIME_TOD.SEC + 1 ∧
      t.dev.slewLeft = ((s.fv TIME_TOD TIME_TOD.SEC : Int) * 1000000000 - s.rd64 TIME64) * 2 ^ 32) ∧
  (∀ (s : State),
    ∃ t, exec (.ppsMiss) s = .next t ∧
      t.fv TIME_STATUS TIME_STATUS.PPS_MISS = 1 ∧
      t = s.fs TIME_STATUS TIME_STATUS.PPS_MISS 1) ∧
  (∀ (s : State),
    s.fb TIME_CTRL TIME_CTRL.PPSO_EN = true ∧ s.pin pinPPS_OUT = false ∧ s.dev.ppsSec < ppsSecond s →
    ∃ t, exec (.ppsOutRise) s = .next t ∧
      t.pin pinPPS_OUT = true ∧
      t.out = .pin pinPPS_OUT true :: s.out ∧
      t = { s with dev := t.dev, out := t.out }) ∧
  (∀ (s : State),
    s.pin pinPPS_OUT = true →
    ∃ t, exec (.ppsOutFall) s = .next t ∧
      t.pin pinPPS_OUT = false ∧
      t.out = .pin pinPPS_OUT false :: s.out ∧
      t = { s with dev := t.dev, out := t.out })

/-- A running timer counts its source events, a compare that is reached sets HIT and moves on by its interval, CLR clears, and TMR_OWN assigns. With no prescaler an AONCLK cycle or a rising edge of SYNC_IN adds 1 to TMR_COUNT of each running timer of that source, with a prescaler it adds INC to the fraction and carries; a compare reached exactly with an interval moves by the interval and sets its HIT; CLR zeroes counter and fraction; TMR_COUNT and TMR_OWN are written while EN is 0. Rests on: R213, R214, R215, R217, R218. -/
def Obligations.TimersCountFireAndAreOwned : Prop :=
  (∀ (s : State) (n : Fin 8),
    tmrSrc n.val s = 0 ∧ tmrRunning 8 n.val s = true ∧ s.fv (TMR_PRE_INC n.val) TMR_PRE_INC.INC = 0 →
    ∃ t, exec (.timerSourceEvent .aonclk) s = .next t ∧
      t.rd64 (TMR_COUNT n.val) = (s.rd64 (TMR_COUNT n.val) + 1) % 2 ^ 64 ∧
      (∀ m : Fin 8, tmrSrc m.val s ≠ 0 → t.rd64 (TMR_COUNT m.val) = s.rd64 (TMR_COUNT m.val)) ∧
      t = { s with regs := t.regs, dev := t.dev }) ∧
  (∀ (s : State) (n : Fin 8),
    s.pin pinSYNC_IN = false ∧ tmrSrc n.val s = 2 →
    tmrRunning 8 n.val (s.setPin pinSYNC_IN true) = true ∧ s.fv (TMR_PRE_INC n.val) TMR_PRE_INC.INC = 0 →
    ∃ t, exec (.timerSourceEvent (.syncIn true)) s = .next t ∧
      t.rd64 (TMR_COUNT n.val) = (s.rd64 (TMR_COUNT n.val) + 1) % 2 ^ 64 ∧
      t.pin pinSYNC_IN = true ∧
      t = { s with regs := t.regs, dev := t.dev }) ∧
  (∀ (s : State) (n : Fin 8),
    tmrSrc n.val s = 0 ∧ tmrRunning 8 n.val s = true ∧ s.fv (TMR_PRE_INC n.val) TMR_PRE_INC.INC ≠ 0 →
    ∃ t, exec (.timerSourceEvent .aonclk) s = .next t ∧
      t.rd64 (TMR_COUNT n.val) = (s.rd64 (TMR_COUNT n.val) + (if 2 ^ 32 ≤ tmrFracAt n.val s + s.fv (TMR_PRE_INC n.val) TMR_PRE_INC.INC then 1 else 0)) % 2 ^ 64 ∧
      tmrFracAt n.val t = (tmrFracAt n.val s + s.fv (TMR_PRE_INC n.val) TMR_PRE_INC.INC) % 2 ^ 32 ∧
      t = { s with regs := t.regs, dev := t.dev }) ∧
  (∀ (s : State) (n : Fin 8) (c : Bool),
    s.rd64 (TMR_COUNT n.val) = s.rd64 (tmrCmp n.val c) ∧ s.rd64 (tmrInt n.val c) ≠ 0 →
    s.dev.tmrFired.contains (2 * n.val + b2n c) = false →
    ∃ t, exec (.timerCompareFire n c) s = .next t ∧
      t.fb (TMR_STATUS n.val) (if c then TMR_STATUS.CMP1_HIT else TMR_STATUS.CMP0_HIT) = true ∧
      t.rd64 (tmrCmp n.val c) = (s.rd64 (tmrCmp n.val c) + s.rd64 (tmrInt n.val c)) % 2 ^ 64 ∧
      t.mem = s.mem ∧ t.cpl = s.cpl) ∧
  (∀ (s : State) (q : Req) (n : Fin 8) (v : Word),
    s.timerOpen q n.val = true ∧ bits v.toNat 4 3 ≠ 7 ∧ bits v.toNat 13 2 = 0 →
    ∃ t, exec (.timerClr q n v) s = .next t ∧
      t.rd64 (TMR_COUNT n.val) = 0 ∧ tmrFracAt n.val t = 0 ∧
      s.answered t q cOK [] false ∧
      s.sameRegs t [TMR_CTRL n.val, TMR_COUNT n.val, TMR_COUNT n.val + 4, TMR_MISS n.val] ∧
      t = { s with regs := t.regs, cpl := t.cpl, dev := t.dev }) ∧
  (∀ (s : State) (q : Req) (n : Fin 8) (v : DWord),
    s.timerOpen q n.val = true ∧ s.fb (TMR_CTRL n.val) TMR_CTRL.EN = false →
    ∃ t, exec (.tmrCountWrite q n v) s = .next t ∧
      t.rd64 (TMR_COUNT n.val) = v.toNat ∧
      s.answered t q cOK [] false ∧
      s.sameRegs t [TMR_COUNT n.val, TMR_COUNT n.val + 4]) ∧
  (∀ (s : State) (q : Req) (n : Fin 8) (v : Word),
    s.gateOpen q 5 = true ∧ isVf q = false ∧ s.fb (TMR_CTRL n.val) TMR_CTRL.EN = false →
    s.fb (TMR_OWN n.val) TMR_OWN.VALID = false ∧ s.conf (bits v.toNat 0 4) = false →
    resetting (bits v.toNat 0 4) s = false ∧ loading (bits v.toNat 0 4) s = false →
    ∃ t, exec (.tmrOwnWrite q n v) s = .next t ∧
      t.rd (TMR_OWN n.val) = v.toNat % 32 ∧
      (bit v.toNat 4 = true → t.fv (SEC_INST (bits v.toNat 0 4)) SEC_INST.STATE ≠ 0) ∧
      s.answered t q cOK [] false ∧
      s.sameRegs t [TMR_OWN n.val, SEC_INST (bits v.toNat 0 4)])

/-- A MEASURE request becomes pending, the named moment captures every unit's counters into shadows, and the acknowledgements end it. GO in each mode with nothing pending sets PEND and sends the message of its mode with the next capture number; CANCEL clears PEND; the capture at its moment moves PEND to BUSY and copies the captured registers; each unit's acknowledgement is recorded once, the last one or the timeout ends it with LAST, MISS (how many have not acknowledged) and TMO. Rests on: R250, R494, R495, R497, R498. -/
def Obligations.MeasureCapturesOnce : Prop :=
  (∀ (s : State) (q : Req) (v : Word),
    s.devOpen q 6 = true →
    bit v.toNat 3 = false ∧ s.fb SYNC_MEAS_STAT SYNC_MEAS_STAT.PEND = false ∧ s.fb SYNC_MEAS_STAT SYNC_MEAS_STAT.BUSY = false →
    ∃ t, exec (.measureNow q v) s = .next t ∧
      t.fv SYNC_MEAS_STAT SYNC_MEAS_STAT.PEND = 1 ∧
      t.dev.meas = some (0, nextMeas s, s.rd64 SYNC_MEAS_TIME) ∧
      s.answered t q cOK [] false) ∧
  (∀ (s : State) (q : Req) (v : Word),
    s.devOpen q 6 = true →
    bit v.toNat 3 = false ∧ s.fb SYNC_MEAS_STAT SYNC_MEAS_STAT.PEND = false ∧ s.fb SYNC_MEAS_STAT SYNC_MEAS_STAT.BUSY = false →
    stepCur (bits v.toNat 4 4) s < s.fv SYNC_MEAS_STEP SYNC_MEAS_STEP.STEP →
    ∃ t, exec (.measureAtStep q v) s = .next t ∧
      t.fv SYNC_MEAS_STAT SYNC_MEAS_STAT.PEND = 1 ∧
      t.dev.meas = some (1, nextMeas s, s.fv SYNC_MEAS_STEP SYNC_MEAS_STEP.STEP) ∧
      s.answered t q cOK [] false) ∧
  (∀ (s : State) (q : Req) (v : Word),
    s.devOpen q 6 = true →
    bit v.toNat 3 = false ∧ s.fb SYNC_MEAS_STAT SYNC_MEAS_STAT.PEND = false ∧ s.fb SYNC_MEAS_STAT SYNC_MEAS_STAT.BUSY = false →
    s.rd64 SYNC_MEAS_TIME ≤ s.now + 2 ^ 47 →
    ∃ t, exec (.measureAtTime q v) s = .next t ∧
      t.fv SYNC_MEAS_STAT SYNC_MEAS_STAT.PEND = 1 ∧
      t.dev.meas = some (2, nextMeas s, s.rd64 SYNC_MEAS_TIME) ∧
      s.answered t q cOK [] false) ∧
  (∀ (s : State) (q : Req) (v : Word),
    s.devOpen q 6 = true ∧ s.fb SYNC_MEAS_STAT SYNC_MEAS_STAT.PEND = true ∧ bits v.toNat 1 2 ≠ 3 →
    ∃ t, exec (.measureCancel q v) s = .next t ∧
      t.fv SYNC_MEAS_STAT SYNC_MEAS_STAT.PEND = 0 ∧
      t.dev.meas = none ∧
      s.answered t q cOK [] false) ∧
  (∀ (s : State) (w0 w1 : DWord) (i st a n : Nat),
    syncRecv w0.toNat w1.toNat s = (some (3, i, st, a), s) →
    measDue 0 s = some n ∧ bits a 0 16 = n →
    ∃ t, exec (.syncMeasNow w0 w1) s = .next t ∧
      t.fv SYNC_MEAS_STAT SYNC_MEAS_STAT.PEND = 0 ∧ t.fv SYNC_MEAS_STAT SYNC_MEAS_STAT.BUSY = 1 ∧
      t.rd (0x100000 + 0xEFFC) = n ∧
      t.mem = s.mem ∧ t.cpl = s.cpl) ∧
  (∀ (s : State) (w0 w1 : DWord) (i st a n : Nat),
    syncRecv w0.toNat w1.toNat s = (some (4, i, st, a), s) →
    measDue 1 s = some n ∧ bits a 0 16 = n →
    ∃ t, exec (.syncMeasStep w0 w1) s = .next t ∧
      t.fv SYNC_MEAS_STAT SYNC_MEAS_STAT.PEND = 0 ∧ t.fv SYNC_MEAS_STAT SYNC_MEAS_STAT.BUSY = 1 ∧
      t.rd (0x100000 + 0xEFFC) = n ∧
      t.mem = s.mem ∧ t.cpl = s.cpl) ∧
  (∀ (s : State) (w0 w1 : DWord) (i st a n : Nat),
    syncRecv w0.toNat w1.toNat s = (some (5, i, st, a), s) →
    measDue 2 s = some n ∧ bits a 0 16 = n →
    ∃ t, exec (.syncMeasTime w0 w1) s = .next t ∧
      t.fv SYNC_MEAS_STAT SYNC_MEAS_STAT.PEND = 0 ∧ t.fv SYNC_MEAS_STAT SYNC_MEAS_STAT.BUSY = 1 ∧
      t.rd (0x100000 + 0xEFFC) = n ∧
      t.mem = s.mem ∧ t.cpl = s.cpl) ∧
  (∀ (s : State) (unit : SyncUnit) (w0 w1 : DWord) (i st a m n u : Nat),
    syncRecv w0.toNat w1.toNat s = (some (6, i, st, a), s) →
    s.dev.meas = some (m, n, u) ∧ s.fb SYNC_MEAS_STAT SYNC_MEAS_STAT.BUSY = true ∧ bits a 0 16 = n →
    measLeft s = [unit] →
    ∃ t, exec (.syncMeasAck unit w0 w1) s = .next t ∧
      t.fv SYNC_MEAS_STAT SYNC_MEAS_STAT.LAST = n ∧
      t.fv SYNC_MEAS_STAT SYNC_MEAS_STAT.BUSY = 0 ∧ t.fv SYNC_MEAS_STAT SYNC_MEAS_STAT.TMO = 0 ∧ t.fv SYNC_MEAS_STAT SYNC_MEAS_STAT.MISS = 0 ∧
      t.rd64 SYNC_MEAS_T = u % 2 ^ 64 ∧
      t.dev.meas = none) ∧
  (∀ (s : State) (unit : SyncUnit) (w0 w1 : DWord) (i st a m n u : Nat),
    syncRecv w0.toNat w1.toNat s = (some (6, i, st, a), s) →
    s.dev.meas = some (m, n, u) ∧ s.fb SYNC_MEAS_STAT SYNC_MEAS_STAT.BUSY = true ∧ bits a 0 16 = n →
    (measLeft s).contains unit = true ∧ (measLeft s).any (· != unit) = true →
    ∃ t, exec (.syncMeasAck unit w0 w1) s = .next t ∧
      t.dev.measAcks = s.dev.measAcks ++ [unit] ∧
      t.dev.meas = some (m, n, u) ∧
      t.regs = s.regs ∧ t.mem = s.mem ∧ t.cpl = s.cpl) ∧
  (∀ (s : State) (m n u : Nat),
    s.dev.meas = some (m, n, u) ∧ s.fb SYNC_MEAS_STAT SYNC_MEAS_STAT.BUSY = true ∧ n < 2 ^ 16 →
    ∃ t, exec (.measureAckTimeout) s = .next t ∧
      t.fv SYNC_MEAS_STAT SYNC_MEAS_STAT.LAST = n ∧
      t.fv SYNC_MEAS_STAT SYNC_MEAS_STAT.MISS = (measLeft s).length ∧ t.fv SYNC_MEAS_STAT SYNC_MEAS_STAT.TMO = 1 ∧
      t.fv SYNC_MEAS_STAT SYNC_MEAS_STAT.BUSY = 0 ∧
      t.dev.meas = none)

/-- Switches forward good packets and drop bad or repeated ones; the injecting edge checks the block table; a fence waits for the queues. A packet whose header has an uncorrectable error is dropped, counted and sends nothing; one with a clean or corrected header at an idle spine goes on to the leaf of its destination under its number; from an endpoint, an event is counted there and goes up to the spine its hash names, numbered and kept for replay; a request for a reserved endpoint is answered UNSUPPORTED when the physical function made it and REFUSED otherwise; at the receiving leaf a new flit goes to the endpoint and is counted there, a resent one that was delivered is dropped and counted. An event for a block that is not VALID is discarded, counted as unroutable and as delivered; one for another instance is counted as an instance error; a good one enters the network for its cluster. A fence packet at a cluster whose queues are empty is answered; behind events it waits for them. Rests on: R220, R222, R223, R224, R228, R232, R239, R249, R253. -/
def Obligations.NetworkPacketsAreForwardedOrDiscarded : Prop :=
  (∀ (s : State) (sw sp : Fin 16) (isSpine up : Bool) (seq : Byte) (resent : Option (Fin 16)) (phys : Bool) (hdr : DWord) (body : List DWord),
    (secDec 57 (hdr.toNat % 2 ^ 57) (bits hdr.toNat 57 7)).1 = none →
    ∃ t, exec (.switchPacketReceive sw isSpine up sp seq resent phys hdr body none) s = .next t ∧
      t.rd DNET_HDR_UE = min (s.rd DNET_HDR_UE + 1) (2 ^ 32 - 1) ∧
      t.out = s.out ∧ t.net = s.net ∧ t.mem = s.mem) ∧
  (∀ (s : State) (sw sp : Fin 16) (up : Bool) (seq : Byte) (resent : Option (Fin 16)) (phys : Bool) (hdr ev : DWord) (d : Nat) (fixed : Bool),
    secDec 57 (hdr.toNat % 2 ^ 57) (bits hdr.toNat 57 7) = (some d, fixed) →
    bits (hdrSeal d) 22 4 = 0 → s.net.outs = [] → 0 < flowWeight (unitOf (hdrSeal d) [ev.toNat] 0 0 0).flow s →
    ∃ t, exec (.switchPacketReceive sw true up sp seq resent phys hdr [ev] none) s = .next t ∧
      t.out = flitOut (512 + 16 * sw.val + leafOf (bits (hdrSeal d) 0 8)) (resent.getD sw).val seq.toNat (hdrSeal d + ev.toNat * 2 ^ 64) 1 :: s.out ∧
      t.regs = (if fixed then s.inc DNET_HDR_CE 1 else s).regs ∧ t.mem = s.mem ∧ t.cpl = s.cpl) ∧
  (∀ (s : State) (sw sp : Fin 16) (seq : Byte) (resent : Option (Fin 16)) (phys : Bool) (hdr ev : DWord) (d : Nat),
    secDec 57 (hdr.toNat % 2 ^ 57) (bits hdr.toNat 57 7) = (some d, false) →
    bits (hdrSeal d) 22 4 = 0 → bits (hdrSeal d) 16 2 = vcEVT → epGone (bits (hdrSeal d) 0 8) s = false →
    s.net.outs = [] → (s.netReplay (16 * sw.val + spineOf (hdrSeal d) s)).length < 64 →
    0 < flowWeight (unitOf (hdrSeal d) [ev.toNat] 0 0 0).flow s →
    ∃ t, exec (.switchPacketReceive sw false true sp seq resent phys hdr [ev] none) s = .next t ∧
      t.out = flitOut (32 * sw.val + spineOf (hdrSeal d) s) (spineOf (hdrSeal d) s) (sget (fun _ => 0) (16 * sw.val + spineOf (hdrSeal d) s) s.net.seqTx % 256) (hdrSeal d + ev.toNat * 2 ^ 64) 1 :: s.out ∧
      (t.netReplay (16 * sw.val + spineOf (hdrSeal d) s)).length = (s.netReplay (16 * sw.val + spineOf (hdrSeal d) s)).length + 1 ∧
      t.rd64 (DNET_EP_TXF (bits (hdrSeal d) 8 8)) = (s.rd64 (DNET_EP_TXF (bits (hdrSeal d) 8 8)) + 1) % 2 ^ 64 ∧
      s.sameRegs t [DNET_EP_TXF (bits (hdrSeal d) 8 8), DNET_EP_TXF (bits (hdrSeal d) 8 8) + 4] ∧ t.mem = s.mem) ∧
  (∀ (s : State) (sw sp : Fin 16) (seq : Byte) (resent : Option (Fin 16)) (phys : Bool) (hdr : DWord) (body : List DWord) (d : Nat),
    secDec 57 (hdr.toNat % 2 ^ 57) (bits hdr.toNat 57 7) = (some d, false) →
    bits (hdrSeal d) 22 4 = 1 → bits (hdrSeal d) 16 2 = vcREQ → bits (hdrSeal d) 8 8 ≠ 0 → 0xC0 ≤ bits (hdrSeal d) 0 8 →
    s.net.outs = [] →
    ∃ t, exec (.switchPacketReceive sw false true sp seq resent phys hdr body none) s = .next t ∧
      t.out = .packet (bits (hdrSeal d) 8 8) (bits (hdrSeal d) 0 8) pkRD_RSP (bits (hdrSeal d) 18 4) (bits (hdrSeal d) 32 8) (bits (hdrSeal d) 40 12)
        [if phys then cUNSUPPORTED else cREFUSED] :: s.out ∧
      t.rd DNET_UNROUTE = min (s.rd DNET_UNROUTE + 1) (2 ^ 32 - 1) ∧ t.mem = s.mem ∧ t.cpl = s.cpl) ∧
  (∀ (s : State) (sw sp : Fin 16) (seq : Byte) (phys : Bool) (hdr : DWord) (body : List DWord) (d : Nat) (u : NUnit),
    secDec 57 (hdr.toNat % 2 ^ 57) (bits hdr.toNat 57 7) = (some d, false) →
    u = unitOf (hdrSeal d) (body.map (·.toNat)) (inLeaf sw.val sp.val) sp.val seq.toNat → bits (hdrSeal d) 0 8 < 0xC0 →
    epRoom (bits (hdrSeal d) 0 8) u s = true → s.net.outs = [] → 0 < flowWeight u.flow s →
    ∃ t, exec (.switchPacketReceive sw false false sp seq none phys hdr body none) s = .next t ∧
      t.out = ((u.flits.zip (List.range u.n)).map fun f => flitOut (outOfEp (bits (hdrSeal d) 0 8) (hdrSeal d) s) sp.val ((seq.toNat + f.2) % 256) f.1.1 f.1.2).reverse ++ s.out ∧
      t.rd64 (DNET_EP_RXF (bits (hdrSeal d) 0 8)) = (s.rd64 (DNET_EP_RXF (bits (hdrSeal d) 0 8)) + u.n) % 2 ^ 64 ∧
      sget (fun _ => 0) (256 * sw.val + 16 * leafOf (bits (hdrSeal d) 8 8) + sp.val) t.net.seqRx = (seq.toNat + u.n - 1) % 256 + 1 ∧
      s.sameRegs t [DNET_EP_RXF (bits (hdrSeal d) 0 8), DNET_EP_RXF (bits (hdrSeal d) 0 8) + 4] ∧ t.mem = s.mem) ∧
  (∀ (s : State) (sw sp : Fin 16) (seq : Byte) (r : Fin 16) (phys : Bool) (hdr : DWord) (body : List DWord) (d n : Nat),
    secDec 57 (hdr.toNat % 2 ^ 57) (bits hdr.toNat 57 7) = (some d, false) →
    n = (unitOf (hdrSeal d) [] 0 0 0).n →
    sget (fun _ => 0) (256 * sw.val + 16 * leafOf (bits (hdrSeal d) 8 8) + r.val) s.net.seqRx = (seq.toNat + n - 1) % 256 + 1 →
    ∃ t, exec (.switchPacketReceive sw false false sp seq (some r) phys hdr body none) s = .next t ∧
      t = s.inc DNET_DUP n) ∧
  (∀ (s : State) (ep : Byte) (e : EvtIn),
    s.fb (DNET_BLK (bits e.ev.toNat 48 12 / 16)) DNET_BLK.VALID = true →
    s.fb (DNET_BLK (bits e.ev.toNat 48 12 / 16)) DNET_BLK.IVAL = true ∧ s.fv (DNET_BLK (bits e.ev.toNat 48 12 / 16)) DNET_BLK.INST = e.inst.toNat →
    sget (fun _ => []) ep.toNat s.net.edge = [] → s.net.outs = [] →
    ∃ t, exec (.edgeEventInject ep e) s = .next t ∧
      t.out = evFlit ep.toNat (evtHdr (epCluster (s.fv (DNET_BLK (bits e.ev.toNat 48 12 / 16)) DNET_BLK.CLNUM)) ep.toNat e.inst.toNat (b2n e.hpar) e.sstep5.toNat e.scl.toNat e.rem e.rank.toNat) e.ev.toNat :: s.out ∧
      t.regs = s.regs ∧ t.mem = s.mem ∧ t.cpl = s.cpl) ∧
  (∀ (s : State) (ep : Byte) (e : EvtIn),
    s.fb (DNET_BLK (bits e.ev.toNat 48 12 / 16)) DNET_BLK.VALID = false → e.rem = false ∧ bits e.ev.toNat 60 4 ≤ 1 →
    ∃ t, exec (.edgeEventInject ep e) s = .next t ∧
      t.rd DNET_UNROUTE = min (s.rd DNET_UNROUTE + 1) (2 ^ 32 - 1) ∧
      (t.inst e.inst.toNat).delivered = (s.inst e.inst.toNat).delivered + 1 ∧
      s.sameRegs t [DNET_UNROUTE] ∧
      t.out = s.out ∧ t.mem = s.mem ∧ t.cpl = s.cpl) ∧
  (∀ (s : State) (ep : Byte) (e : EvtIn),
    s.fb (DNET_BLK (bits e.ev.toNat 48 12 / 16)) DNET_BLK.VALID = true → s.fb (DNET_BLK (bits e.ev.toNat 48 12 / 16)) DNET_BLK.IVAL = false →
    e.rem = false ∧ bits e.ev.toNat 60 4 ≤ 1 →
    ∃ t, exec (.edgeEventInject ep e) s = .next t ∧
      t.rd DNET_INST_ERR = min (s.rd DNET_INST_ERR + 1) (2 ^ 32 - 1) ∧
      (t.inst e.inst.toNat).delivered = (s.inst e.inst.toNat).delivered + 1 ∧
      s.sameRegs t [DNET_INST_ERR] ∧
      t.out = s.out ∧ t.mem = s.mem ∧ t.cpl = s.cpl) ∧
  (∀ (s : State) (c : Cl) (frm : Byte) (j : InstNo),
    (s.cluster c.val).dlv = [] → (s.cluster c.val).spill = [] → (s.cluster c.val).fences = [] →
    ∃ t, exec (.fenceReceive (BitVec.ofNat 8 (0x40 + c.val)) frm j) s = .next t ∧
      t.out = .packet frm.toNat (0x40 + c.val) pkFENCE_ACK j.val (s.gen j.val) 0 [] :: s.out ∧
      t.regs = s.regs ∧ t.mem = s.mem ∧ t.cpl = s.cpl) ∧
  (∀ (s : State) (c : Cl) (frm : Byte) (j : InstNo) (k : Fin 16) (l : List EvtIn),
    (s.cluster c.val).dlv = [(k.val, l)] → l ≠ [] → (s.cluster c.val).spill = [] → (s.cluster c.val).fences = [] →
    ∃ t, exec (.fenceReceive (BitVec.ofNat 8 (0x40 + c.val)) frm j) s = .next t ∧
      (t.cluster c.val).fences = [⟨frm.toNat, j.val, [(k.val, l.length)]⟩] ∧
      t.out = s.out ∧ t.regs = s.regs ∧ t.mem = s.mem ∧ t.cpl = s.cpl)

/-- Eight failed resends remove a lane, a failed spine leaves the hash map, stalls and time-outs are counted. A flit whose CRC-16 is right ends the run of failures of its lane; a wrong one is counted, starts or lengthens the run and has the hop retry buffer resent; when the eighth resend has failed a cluster lane leaves service. A spine in service that fails leaves SPINE_OK, no hash of DNET_SPMAP names it afterwards, every other hash keeps its spine and the failure is counted. An acknowledgement drops exactly the delivered flits of its leaf pair from the replay buffer. A stall and a control time-out are counted, the time-out is completed TIMEOUT. The congestion map takes two steps of its sequence number and the time; a write of DNET_CNT_CLR with CLR zeroes the counters. Rests on: R237, R238, R239, R240, R243, R251, R253. -/
def Obligations.NetworkFailuresAreContained : Prop :=
  (∀ (s : State) (l : Lane) (up : Bool) (data : BitVec 256) (valid : BitVec 2) (crc : BitVec 16),
    flitCrc data.toNat valid.toNat = crc.toNat →
    ∃ t, exec (.hopRetryRequest l up data valid crc) s = .next t ∧
      t = s.setNet { s.net with lanes := s.net.lanes.filter fun x => x.1 != l }) ∧
  (∀ (s : State) (l : Lane) (up : Bool) (data : BitVec 256) (valid : BitVec 2) (crc : BitVec 16) (o : Nat) (f : Nat × Nat),
    flitCrc data.toNat valid.toNat ≠ crc.toNat → (s.net.lanes.find? fun x => x.1 == l) = none →
    outOfLane up l = some o → (s.net.hop.find? fun x => x.1 == (l, up)) = some ((l, up), [f]) →
    ∃ t, exec (.hopRetryRequest l up data valid crc) s = .next t ∧
      t.rd DNET_HOP_RETRY = min (s.rd DNET_HOP_RETRY + 1) (2 ^ 32 - 1) ∧
      (t.net.lanes.find? fun x => x.1 == l) = some (l, 1) ∧
      t.out = flitOut o 0 0 f.1 f.2 :: s.out ∧
      s.sameRegs t [DNET_HOP_RETRY] ∧
      t = { s with regs := t.regs, net := t.net, out := t.out }) ∧
  (∀ (s : State) (c : Cl) (n : Fin 2) (up : Bool) (data : BitVec 256) (valid : BitVec 2) (crc : BitVec 16),
    flitCrc data.toNat valid.toNat ≠ crc.toNat →
    (s.net.lanes.find? fun x => x.1 == Lane.cluster c n) = some (.cluster c n, 8) →
    s.net.lanesOut.contains (Lane.cluster c n) = false →
    ∃ t, exec (.hopRetryRequest (.cluster c n) up data valid crc) s = .next t ∧
      t.net.lanesOut.contains (Lane.cluster c n) = true ∧
      t.rd DNET_HOP_RETRY = s.rd DNET_HOP_RETRY ∧
      t.fv DNET_STATUS DNET_STATUS.SPINE_OK = s.fv DNET_STATUS DNET_STATUS.SPINE_OK ∧
      t.mem = s.mem ∧ t.cpl = s.cpl) ∧
  (∀ (s : State) (sp : Fin 16),
    (s.fv DNET_STATUS DNET_STATUS.SPINE_OK).testBit sp.val = true →
    s.fv DNET_STATUS DNET_STATUS.SPINE_OK = 0xFFFF →
    ∃ t, exec (.spineFailure sp) s = .next t ∧
      t.fv DNET_STATUS DNET_STATUS.SPINE_OK = 0xFFFF - 2 ^ sp.val ∧
      (∀ h : Fin 16, bits (t.rd64 DNET_SPMAP) (4 * h.val) 4 = (if bits (s.rd64 DNET_SPMAP) (4 * h.val) 4 = sp.val then (sp.val + 1) % 16 else bits (s.rd64 DNET_SPMAP) (4 * h.val) 4)) ∧
      t.rd DNET_SPINE_FAIL = min (s.rd DNET_SPINE_FAIL + 1) (2 ^ 32 - 1) ∧
      t.mem = s.mem ∧ t.cpl = s.cpl) ∧
  (∀ (s : State) (leaf sp dst : Fin 16) (seq : Byte),
    s.net.outs = [] →
    ∃ t, exec (.spineAck leaf sp dst seq) s = .next t ∧
      t.netReplay (16 * leaf.val + sp.val) = (s.netReplay (16 * leaf.val + sp.val)).filter (fun f => f.dst != dst.val || (seq.toNat + 256 - f.seq) % 256 ≥ 128) ∧
      (∀ k, k ≠ 16 * leaf.val + sp.val → t.netReplay k = s.netReplay k) ∧
      t = { s with net := t.net }) ∧
  (∀ (s : State) (o : Fin 832) (vc : Fin 4),
    ∃ t, exec (.dnetStallTimeout o vc) s = .next t ∧
      t.rd DNET_STALL = min (s.rd DNET_STALL + 1) (2 ^ 32 - 1) ∧
      t.net.stalls.contains o.val = true ∧
      t.out = .mgmt 0x37 [o.val, vc.val] :: s.out ∧
      t.mem = s.mem ∧ t.cpl = s.cpl) ∧
  (∀ (s : State) (q : Req),
    ∃ t, exec (.controlTimeout q) s = .next t ∧
      t.rd DNET_CTL_TMO = min (s.rd DNET_CTL_TMO + 1) (2 ^ 32 - 1) ∧
      s.answered t q cTIMEOUT [] false ∧
      t.mem = s.mem) ∧
  (∀ (s : State) (occ : List Byte),
    s.fb DNET_CMAP_CTRL DNET_CMAP_CTRL.EN = true →
    s.rd (DNET_CMAP 1) + 2 < 2 ^ 32 ∧ s.rd (DNET_CMAP 1) % 2 = 0 →
    ∃ t, exec (.cmapPeriodEnd occ) s = .next t ∧
      t.rd (DNET_CMAP 1) = s.rd (DNET_CMAP 1) + 2 ∧
      t.rd64 (DNET_CMAP 2) = s.now % 2 ^ 64 ∧
      (∀ w : Fin 192, t.rd (DNET_CMAP (4 + w.val)) % 32 = (if 4 * w.val < 512 ∧ 4 * w.val % 32 ≥ 30 then 0 else (occ.getD (4 * w.val) 0).toNat % 32)) ∧
      t.net.stalls = [] ∧
      t.mem = s.mem ∧ t.cpl = s.cpl) ∧
  (∀ (s : State) (q : Req) (v : Word),
    s.devOpen q 6 = true ∧ bit v.toNat 0 = true →
    ∃ t, exec (.dnetCntClr q v) s = .next t ∧
      (∀ k ∈ [DNET_STALL, DNET_UNROUTE, DNET_DUP, DNET_HOP_RETRY, DNET_HDR_UE], t.rd k = 0) ∧
      (∀ e : Fin 192, t.rd64 (DNET_EP_TXF e.val) = 0 ∧ t.rd64 (DNET_EP_RXF e.val) = 0) ∧
      s.answered t q cOK [] false ∧
      t.mem = s.mem)

/-- A rewind's sync messages void journal records, end the fence wait and release the cluster; a gather value counts in its round. SYNC RBK at a root with one cluster voids exactly the records of that source and step in the cluster's journal; the run of the notice waits for every unit it was sent to, and an egress port with nothing staged answers at once. The last SYNC RBK_ACK of the run of a cluster whose fences have returned lets the rewound cluster run again with injection open; an earlier one only shortens the run. The last FENCE_ACK of a rewind sends the rewind message, an earlier one only shortens the wait. A gather value for a core of another instance is counted as an instance error and changes nothing else. Rests on: R249, R295, R345, R441, R449, R451. -/
def Obligations.SyncMessagesCarryRewindsAndGathers : Prop :=
  (∀ (s : State) (w0 w1 : DWord) (i : InstNo) (n a : Nat),
    syncRecv w0.toNat w1.toNat s = (some (7, i.val, n, a), s) →
    rbkUnits i.val s = [.host] → argRem a = true → s.net.rbks = [] →
    ∃ t, exec (.syncRbk w0 w1) s = .next t ∧
      t.out = .sync 0x11 (syncWords 8 i.val n a).1 (syncWords 8 i.val n a).2 :: s.out ∧
      t.net.rbks = [⟨i.val, true, argRank a, argScl a, n, [.host]⟩] ∧
      t.regs = s.regs ∧ t.mem = s.mem ∧ t.cpl = s.cpl) ∧
  (∀ (s : State) (w0 w1 : DWord) (i : InstNo) (n a : Nat) (c : Cl) (r : JRec),
    syncRecv w0.toNat w1.toNat s = (some (7, i.val, n, a), s) →
    rbkUnits i.val s = [.cluster c, .host] → argRem a = false → argScl a ≠ c.val →
    (s.cluster c.val).journal = [r] ∧ r.rem = false ∧ r.srank = 0 ∧ r.scl = argScl a ∧ r.sstep5 = n % 32 →
    ∃ t, exec (.syncRbk w0 w1) s = .next t ∧
      (t.cluster c.val).journal = [{ r with void := true }]) ∧
  (∀ (s : State) (u v : SyncUnit) (w0 w1 : DWord) (i : InstNo) (n a : Nat),
    syncRecv w0.toNat w1.toNat s = (some (8, i.val, n, a), s) → u ≠ v → unitNode u = none →
    s.net.rbks = [⟨i.val, argRem a, argRank a, argScl a, n, [u, v]⟩] →
    ∃ t, exec (.syncRbkAck u w0 w1) s = .next t ∧
      t = s.setNet { s.net with rbks := [⟨i.val, argRem a, argRank a, argScl a, n, [v]⟩] }) ∧
  (∀ (s : State) (u : SyncUnit) (w0 w1 : DWord) (i : InstNo) (n a : Nat) (c : Cl) (r : RewSt),
    syncRecv w0.toNat w1.toNat s = (some (8, i.val, n, a), s) → argRem a = false → argScl a = c.val → unitNode u = none →
    s.net.rbks = [⟨i.val, false, argRank a, argScl a, n, [u]⟩] → s.net.outs = [] →
    (s.cluster c.val).rewind = some r ∧ r.fence = [] ∧ r.live = true ∧ r.wasOpen = false ∧ r.step = n →
    (s.cluster c.val).dlv = [] → (s.cluster c.val).spill = [] → (s.cluster c.val).fences = [] →
    ∃ t, exec (.syncRbkAck u w0 w1) s = .next t ∧
      (t.cluster c.val).noInject = false ∧ (t.cluster c.val).mask = [] ∧
      (t.cluster c.val).rewind = some { r with live := false } ∧
      (∀ k : Fin 16, t.fv (CLA_SLOTTAB c.val k.val) CLA_SLOTTAB.HOLD = 0) ∧
      t.out = .sync syRoot (syncWords 8 i.val n a).1 (syncWords 8 i.val n a).2 :: s.out ∧
      t.mem = s.mem) ∧
  (∀ (s : State) (c : Cl) (frm : Byte) (r : RewSt),
    (s.cluster c.val).rewind = some r ∧ r.fence = [frm.toNat] →
    ∃ t, exec (.fenceAckReceive (BitVec.ofNat 8 (0x40 + c.val)) frm) s = .next t ∧
      t.out = .sync (0x40 + c.val) (syncWords 7 ((s.clInst c.val).getD 0) r.step c.val).1 (syncWords 7 ((s.clInst c.val).getD 0) r.step c.val).2 :: s.out ∧
      (t.cluster c.val).rewind = some { r with fence := [] } ∧
      t.regs = s.regs ∧ t.mem = s.mem ∧ t.cpl = s.cpl) ∧
  (∀ (s : State) (c : Cl) (frm : Byte) (r : RewSt),
    (s.cluster c.val).rewind = some r ∧ r.fence.contains frm.toNat = true ∧ r.fence.filter (· != frm.toNat) ≠ [] →
    ∃ t, exec (.fenceAckReceive (BitVec.ofNat 8 (0x40 + c.val)) frm) s = .next t ∧
      (t.cluster c.val).rewind = some { r with fence := r.fence.filter (· != frm.toNat) } ∧
      t.regs = s.regs ∧ t.mem = s.mem ∧ t.cpl = s.cpl ∧ t.out = s.out) ∧
  (∀ (s : State) (w0 w1 : DWord) (i : InstNo) (n a p : Nat),
    syncRecv w0.toNat w1.toNat s = (some (0xB, i.val, n, a), s) →
    ownRank i.val s = some (bits n 18 12) →
    s.pcidOf (bits n 0 18 / 64) = some p ∧ qInst p s ≠ some i.val →
    ∃ t, exec (.syncGather w0 w1) s = .next t ∧
      t = s.inc (Q_INST_ERR p) 1)

/-- ENQ puts its entry at the tail, DOORBELL takes in written entries, HOLD and RELEASE set HELD; without room ENQ waits and DOORBELL answers FULL. For a packet that passes the tests of R259 with the input buffer empty: ENQ with room writes its 80 bytes, sealed with instance and generation, into the tail slot, moves TAIL and OCC by one and answers OK, and no byte outside the slot changes; with no room it waits in the input buffer and changes nothing else. DOORBELL moves TAIL and OCC by COUNT, or answers FULL and changes nothing. HOLD and RELEASE set and clear HELD. Rests on: R255, R258, R259, R260, R262. -/
def Obligations.QueueDescriptorsAreAdmitted : Prop :=
  (∀ (s : State) (c : Cl) (k : Sl) (d : QdescIn),
    s.unitStill (pcid c k) = true ∧ s.qAdmits (pcid c k) d = true ∧ d.count = 0 ∧ d.post = none ∧ d.words.length = 20 →
    bits (dw (d.words.map (·.toNat)) 0) 0 4 = qKind (pcid c k) (d.qid.toNat % 64) s →
    (s.core (pcid c k)).q.inBuf = [] ∧ qOcc (pcid c k) (d.qid.toNat % 64) s < qDepth (pcid c k) (d.qid.toNat % 64) s →
    ∃ t, exec (.qdescEnq c k d) s = .next t ∧
      scrWords (pcid c k) (qSlot (pcid c k) (d.qid.toNat % 64) (qTail (pcid c k) (d.qid.toNat % 64) s) s) 20 t = envSeal d.inst.toNat d.gen.toNat (d.words.map (·.toNat)) ∧
      qOcc (pcid c k) (d.qid.toNat % 64) t = qOcc (pcid c k) (d.qid.toNat % 64) s + 1 ∧
      qTail (pcid c k) (d.qid.toNat % 64) t = (qTail (pcid c k) (d.qid.toNat % 64) s + 1) % qDepth (pcid c k) (d.qid.toNat % 64) s ∧
      qHead (pcid c k) (d.qid.toNat % 64) t = qHead (pcid c k) (d.qid.toNat % 64) s ∧
      t.out = qAnswered (pcid c k) d cOK :: s.out ∧
      (∀ b, b < sramBase (pcid c k) + qSlot (pcid c k) (d.qid.toNat % 64) (qTail (pcid c k) (d.qid.toNat % 64) s) s ∨ sramBase (pcid c k) + qSlot (pcid c k) (d.qid.toNat % 64) (qTail (pcid c k) (d.qid.toNat % 64) s) s + 80 ≤ b → t.rdB b = s.rdB b) ∧
      s.sameRegs t [Q_PTR (pcid c k) (d.qid.toNat % 64), Q_STAT (pcid c k) (d.qid.toNat % 64), Q_ENQ (pcid c k), Q_ENQ (pcid c k) + 4]) ∧
  (∀ (s : State) (c : Cl) (k : Sl) (d : QdescIn),
    s.unitStill (pcid c k) = true ∧ s.qAdmits (pcid c k) d = true ∧ d.count = 0 →
    bits (dw (d.words.map (·.toNat)) 0) 0 4 = qKind (pcid c k) (d.qid.toNat % 64) s →
    (s.core (pcid c k)).q.inBuf = [] ∧ (s.core (pcid c k)).q.held = [] ∧ qDepth (pcid c k) (d.qid.toNat % 64) s ≤ qOcc (pcid c k) (d.qid.toNat % 64) s →
    ∃ t, exec (.qdescEnq c k d) s = .next t ∧
      t = s.setQ (pcid c k) { (s.core (pcid c k)).q with inBuf := [{ d with qop := 0 }] }) ∧
  (∀ (s : State) (c : Cl) (k : Sl) (d : QdescIn),
    s.unitStill (pcid c k) = true ∧ s.qAdmits (pcid c k) d = true ∧ d.post = none ∧ d.count ≠ 0 →
    (s.core (pcid c k)).q.inBuf = [] ∧ qOcc (pcid c k) (d.qid.toNat % 64) s + d.count.toNat ≤ qDepth (pcid c k) (d.qid.toNat % 64) s →
    ∃ t, exec (.qdescDoorbell c k d) s = .next t ∧
      qOcc (pcid c k) (d.qid.toNat % 64) t = qOcc (pcid c k) (d.qid.toNat % 64) s + d.count.toNat ∧
      qTail (pcid c k) (d.qid.toNat % 64) t = (qTail (pcid c k) (d.qid.toNat % 64) s + d.count.toNat) % qDepth (pcid c k) (d.qid.toNat % 64) s ∧
      t.out = qAnswered (pcid c k) d cOK :: s.out ∧
      s.sameRegs t [Q_PTR (pcid c k) (d.qid.toNat % 64), Q_STAT (pcid c k) (d.qid.toNat % 64), Q_ENQ (pcid c k), Q_ENQ (pcid c k) + 4]) ∧
  (∀ (s : State) (c : Cl) (k : Sl) (d : QdescIn),
    s.unitStill (pcid c k) = true ∧ s.qAdmits (pcid c k) d = true ∧ d.post = none ∧ d.count ≠ 0 →
    (s.core (pcid c k)).q.inBuf = [] ∧ qDepth (pcid c k) (d.qid.toNat % 64) s - qOcc (pcid c k) (d.qid.toNat % 64) s < d.count.toNat →
    ∃ t, exec (.qdescDoorbell c k d) s = .next t ∧
      t = s.emit (qAnswered (pcid c k) d cFULL)) ∧
  (∀ (s : State) (c : Cl) (k : Sl) (d : QdescIn),
    s.unitStill (pcid c k) = true ∧ s.qAdmits (pcid c k) d = true ∧ d.post = none ∧ d.count = 0 ∧ (s.core (pcid c k)).q.inBuf = [] →
    ∃ t, exec (.qdescHold c k d) s = .next t ∧
      t.fv (Q_STAT (pcid c k) (d.qid.toNat % 64)) Q_STAT.HELD = 1 ∧
      t = (s.fs (Q_STAT (pcid c k) (d.qid.toNat % 64)) Q_STAT.HELD 1).emit (qAnswered (pcid c k) d cOK)) ∧
  (∀ (s : State) (c : Cl) (k : Sl) (d : QdescIn),
    s.unitStill (pcid c k) = true ∧ s.qAdmits (pcid c k) d = true ∧ d.post = none ∧ d.count = 0 ∧ (s.core (pcid c k)).q.inBuf = [] →
    ∃ t, exec (.qdescRelease c k d) s = .next t ∧
      t.fv (Q_STAT (pcid c k) (d.qid.toNat % 64)) Q_STAT.HELD = 0 ∧
      t = (s.fs (Q_STAT (pcid c k) (d.qid.toNat % 64)) Q_STAT.HELD 0).emit (qAnswered (pcid c k) d cOK)) ∧
  (∀ (s : State) (c : Cl) (k : Sl) (d : QdescIn) (l : List QdescIn),
    (s.core (pcid c k)).q.inBuf = d :: l ∧ (s.core (pcid c k)).q.held = [] →
    s.unitStill (pcid c k) = true ∧ s.qAdmits (pcid c k) d = true ∧ d.qop = 0 ∧ d.count = 0 ∧ d.post = none →
    bits (dw (d.words.map (·.toNat)) 0) 0 4 = qKind (pcid c k) (d.qid.toNat % 64) s ∧ qOcc (pcid c k) (d.qid.toNat % 64) s < qDepth (pcid c k) (d.qid.toNat % 64) s →
    ∃ t, exec (.queueInputUnblock c k) s = .next t ∧
      (t.core (pcid c k)).q.inBuf = l ∧
      qOcc (pcid c k) (d.qid.toNat % 64) t = qOcc (pcid c k) (d.qid.toNat % 64) s + 1 ∧
      t.out = qAnswered (pcid c k) d cOK :: s.out) ∧
  (∀ (s : State) (c : Cl) (k : Sl) (j : Nat) (l : List (Nat × Nat)),
    (s.core (pcid c k)).q.events = (3 * 2 ^ 60 + 5 * 2 ^ 32 + 2, j) :: l ∧ qInst (pcid c k) s = some j ∧ j < 16 →
    1 ≤ qKind (pcid c k) 5 s ∧ qKind (pcid c k) 5 s ≤ 3 ∧ s.gen j < 256 ∧ s.dev.drainCl.contains (c.val) = false →
    ∃ t, exec (.tenantControlEvent c k) s = .next t ∧
      t.fv (Q_STAT (pcid c k) 5) Q_STAT.HELD = 1 ∧
      (t.core (pcid c k)).q.events = l ∧
      s.sameRegs t [Q_STAT (pcid c k) 5] ∧
      t.mem = s.mem ∧ t.out = s.out)

/-- An idle engine takes the head entry, a move copies its bytes, a completed entry frees its slot and writes its record; the watchdog reports. Taking appends the entry to those in work with the queue's next sequence number and counts it, an admitted move with its byte count. Completing an admitted move of at most 32 bytes copies its source bytes to its destination. Completing an entry of the current generation frees its slot (HEAD and OCC move by one) and writes the CREC128 record to its scratch target. An expiring watchdog sets STARVE or STALL and reports; a capture reads the head entry, zeros for an empty queue. Rests on: R257, R263, R264, R266. -/
def Obligations.QueueEntriesAreTakenAndCompleted : Prop :=
  (∀ (s : State) (c : Cl) (k : Sl) (n : Nat),
    s.unitStill (pcid c k) = true ∧ s.takes (pcid c k) .dense n = true →
    ∃ t, exec (.queueEntryTake c k .dense) s = .next t ∧
      (t.core (pcid c k)).q.taken = (s.core (pcid c k)).q.taken ++ [⟨n, qHead (pcid c k) n s, sget (fun _ => 0) n (s.core (pcid c k)).q.seq, cOK, 0, qHeadWords (pcid c k) n s⟩] ∧
      t.rd64 (Q_TAKE (pcid c k)) = (s.rd64 (Q_TAKE (pcid c k)) + 1) % 2 ^ 64 ∧
      s.sameRegs t [Q_TAKE (pcid c k), Q_TAKE (pcid c k) + 4] ∧
      t.mem = s.mem ∧ t.out = s.out ∧ t.cpl = s.cpl) ∧
  (∀ (s : State) (c : Cl) (k : Sl) (n i : Nat),
    s.unitStill (pcid c k) = true ∧ s.takes (pcid c k) .move n = true →
    i = bits (dw (qHeadWords (pcid c k) n s) 0) 4 4 ∧ moveAdmit (pcid c k) i ((qHeadWords (pcid c k) n s).drop 4) s = cOK →
    ∃ t, exec (.queueEntryTake c k .move) s = .next t ∧
      (t.core (pcid c k)).q.taken = (s.core (pcid c k)).q.taken ++ [⟨n, qHead (pcid c k) n s, sget (fun _ => 0) n (s.core (pcid c k)).q.seq, cOK, bits (dw (qHeadWords (pcid c k) n s) 7) 0 17, qHeadWords (pcid c k) n s⟩] ∧
      s.sameRegs t [Q_TAKE (pcid c k), Q_TAKE (pcid c k) + 4] ∧
      t.mem = s.mem ∧ t.out = s.out ∧ t.cpl = s.cpl) ∧
  (∀ (s : State) (c : Cl) (k : Sl) (e : QTaken),
    s.unitStill (pcid c k) = true ∧ engTaken (pcid c k) .move s = some e ∧ e.code = cOK ∧ e.q < 64 →
    bits (dw e.words 0) 8 8 = s.gen (bits (dw e.words 0) 4 4) ∧ bits (dw e.words 0) 16 2 = 0 ∧ bit (dw e.words 0) 18 = false →
    bits (dw e.words 4) 4 8 = 0 ∧ e.info ≤ 32 ∧ 0 < qOcc (pcid c k) e.q s ∧ 0 < qDepth (pcid c k) e.q s ∧ qDepth (pcid c k) e.q s ≤ 1024 →
    ∃ t, exec (.queueEntryComplete c k .move) s = .next t ∧
      t.rdN e.info (sramBase (pcid c k) + dw e.words 6) = s.rdN e.info (sramBase (pcid c k) + dw e.words 5) ∧
      (∀ b, b < sramBase (pcid c k) + dw e.words 6 ∨ sramBase (pcid c k) + dw e.words 6 + e.info ≤ b → t.rdB b = s.rdB b) ∧
      qOcc (pcid c k) e.q t = qOcc (pcid c k) e.q s - 1 ∧
      qHead (pcid c k) e.q t = (qHead (pcid c k) e.q s + 1) % qDepth (pcid c k) e.q s ∧
      s.sameRegs t [Q_PTR (pcid c k) e.q, Q_STAT (pcid c k) e.q] ∧
      t.out = s.out ∧ t.cpl = s.cpl) ∧
  (∀ (s : State) (c : Cl) (k : Sl) (e : QTaken),
    s.unitStill (pcid c k) = true ∧ engTaken (pcid c k) .move s = some e ∧ e.code ≠ cOK ∧ e.q < 64 →
    bits (dw e.words 0) 8 8 = s.gen (bits (dw e.words 0) 4 4) ∧ bits (dw e.words 0) 16 2 = 1 →
    inScr (pcid c k) (bits (dw e.words 2) 0 25) 16 s = true ∧ 0 < qOcc (pcid c k) e.q s →
    0 < qDepth (pcid c k) e.q s ∧ qDepth (pcid c k) e.q s ≤ 1024 →
    ∃ t, exec (.queueEntryComplete c k .move) s = .next t ∧
      t.rdN 16 (sramBase (pcid c k) + bits (dw e.words 2) 0 25) = wordBytes (crec e.code (bits (dw e.words 0) 4 4) (bits (dw e.words 0) 8 8) e.q e.seq e.info) ∧
      qOcc (pcid c k) e.q t = qOcc (pcid c k) e.q s - 1 ∧
      qHead (pcid c k) e.q t = (qHead (pcid c k) e.q s + 1) % qDepth (pcid c k) e.q s ∧
      (∀ x ∈ (t.core (pcid c k)).q.taken, x.q ≠ e.q) ∧
      (∀ b, b < sramBase (pcid c k) + bits (dw e.words 2) 0 25 ∨ sramBase (pcid c k) + bits (dw e.words 2) 0 25 + 16 ≤ b → t.rdB b = s.rdB b) ∧
      s.sameRegs t [Q_PTR (pcid c k) e.q, Q_STAT (pcid c k) e.q]) ∧
  (∀ (s : State) (c : Cl) (k : Sl) (n : Fin 64),
    s.fv (Q_WDOG (pcid c k)) Q_WDOG.CYC ≠ 0 ∧ qOcc (pcid c k) n.val s ≠ 0 →
    ∃ t, exec (.queueWatchdogExpire c k n true) s = .next t ∧
      t.fv (Q_STAT (pcid c k) n.val) Q_STAT.STARVE = 1 ∧
      t.out = .report (pcid c k) (0x200 + n.val) :: s.out ∧
      t.mem = s.mem ∧ t.cpl = s.cpl) ∧
  (∀ (s : State) (c : Cl) (k : Sl) (n : Fin 64) (d : QdescIn) (l : List QdescIn),
    s.fv (Q_WDOG (pcid c k)) Q_WDOG.CYC ≠ 0 ∧ (s.core (pcid c k)).q.inBuf = d :: l →
    ∃ t, exec (.queueWatchdogExpire c k n false) s = .next t ∧
      t.fv (Q_STAT (pcid c k) (d.qid.toNat % 64)) Q_STAT.STALL = 1 ∧
      t.rd (Q_STALL (pcid c k)) = min (s.rd (Q_STALL (pcid c k)) + 1) (2 ^ 32 - 1) ∧
      t.out = .report (pcid c k) (0x200 + d.qid.toNat % 64) :: s.out ∧
      t.mem = s.mem ∧ t.cpl = s.cpl) ∧
  (∀ (s : State) (q : Req) (c : Cl) (k : Sl) (v : Word),
    s.coreOpen q (pcid c k) true = true →
    ∃ t, exec (.qDbgCapture q c k v) s = .next t ∧
      (∀ i : Fin 20, t.rd (Q_DBG_ENT (pcid c k) i.val) = (if qOcc (pcid c k) (v.toNat % 64) s = 0 then 0 else s.sramW (pcid c k) (qSlot (pcid c k) (v.toNat % 64) (qHead (pcid c k) (v.toNat % 64) s) s + 4 * i.val))) ∧
      s.answered t q cOK [] false ∧
      s.sameRegs t ((List.range 20).map fun i => Q_DBG_ENT (pcid c k) i) ∧
      t.mem = s.mem ∧ t.out = s.out)

/-- A new contribution adds its value and marks its contributor, a repeated one is only counted; a time-out closes the round. A gathering message or event of the owning instance for an enabled one-element integer context, new in round BASE and not its last: the accumulator grows by the value as a signed 64-bit number, the contributor's bit is set, and no register but CNT changes; a repeated one only counts in Q_GATH_DUP. A round open past its time-out closes: BASE moves by one and Q_GATH_TMO counts. Rests on: R268, R269, R270, R271, R273. -/
def Obligations.GatheringAddsEachContributorOnce : Prop :=
  (∀ (s : State) (w0 w1 : DWord) (inst : InstNo) (n a p g : Nat),
    syncRecv w0.toNat w1.toNat s = (some (0xB, inst.val, n, a), s) →
    ownRank inst.val s = some (bits n 18 12) ∧ s.pcidOf (bits n 0 18 / 64) = some p ∧ qInst p s = some inst.val →
    gCtx p (bits n 0 18 % 64) s = some g ∧ bits a 44 16 = gBase p g s ∧ s.gOpen p g (bits a 32 12) = true →
    ∃ t, exec (.syncGather w0 w1) s = .next t ∧
      sx 64 (t.rdLE 8 (gAccAt p g (bits a 44 16) 0 s)) = sx 64 (tc 64 (sx 64 (s.rdLE 8 (gAccAt p g (bits a 44 16) 0 s)) + sx 32 (bits a 0 32))) ∧
      (gMap p g (bits a 44 16) t).testBit (bits a 32 12) = true ∧
      s.sameRegs t [Q_GRND p g] ∧
      t.out = s.out ∧ t.cpl = s.cpl) ∧
  (∀ (s : State) (w0 w1 : DWord) (inst : InstNo) (n a p g : Nat),
    syncRecv w0.toNat w1.toNat s = (some (0xB, inst.val, n, a), s) →
    ownRank inst.val s = some (bits n 18 12) ∧ s.pcidOf (bits n 0 18 / 64) = some p ∧ qInst p s = some inst.val →
    gCtx p (bits n 0 18 % 64) s = some g ∧ bits a 44 16 = gBase p g s ∧ gVlen p g s = 1 ∧ bits a 32 12 < gContrib p g s →
    (gMap p g (bits a 44 16) s).testBit (bits a 32 12) = true ∧ gContrib p g s ≤ 256 →
    ∃ t, exec (.syncGather w0 w1) s = .next t ∧
      t = s.inc (Q_GATH_DUP p) 1) ∧
  (∀ (s : State) (c : Cl) (k : Sl) (ev j : Nat) (l : List (Nat × Nat)) (g : Nat),
    (s.core (pcid c k)).q.events = (ev, j) :: l ∧ bits ev 60 4 = 4 ∧ qInst (pcid c k) s = some j →
    gCtx (pcid c k) (bits ev 32 16 % 64) s = some g ∧ gBase (pcid c k) g s % 16 = bits ev 28 4 ∧ s.gOpen (pcid c k) g (bits ev 38 10) = true →
    ∃ t, exec (.gatherEvent c k) s = .next t ∧
      sx 64 (t.rdLE 8 (gAccAt (pcid c k) g (gBase (pcid c k) g s) 0 s)) = sx 64 (tc 64 (sx 64 (s.rdLE 8 (gAccAt (pcid c k) g (gBase (pcid c k) g s) 0 s)) + sx 22 (bits ev 0 22))) ∧
      (gMap (pcid c k) g (gBase (pcid c k) g s) t).testBit (bits ev 38 10) = true ∧
      (t.core (pcid c k)).q.events = l ∧
      s.sameRegs t [Q_GRND (pcid c k) g]) ∧
  (∀ (s : State) (c : Cl) (k : Sl) (g : Fin 4),
    s.fb (Q_GCFG (pcid c k) g.val) Q_GCFG.EN = true ∧ s.fv (Q_GTMO (pcid c k) g.val) Q_GTMO.US ≠ 0 →
    gCount (pcid c k) g.val (gBase (pcid c k) g.val s) s ≠ 0 ∧ gVlen (pcid c k) g.val s = 1 →
    s.fb (Q_GCFG (pcid c k) g.val) Q_GCFG.RSP = true ∧ s.fb (Q_GCFG (pcid c k) g.val) Q_GCFG.FWD = false ∧ s.fb (Q_GCFG (pcid c k) g.val) Q_GCFG.CHAIN = false →
    gCount (pcid c k) g.val (gBase (pcid c k) g.val s + 1) s = 0 →
    ∃ t, exec (.gatherRoundTimeout c k g) s = .next t ∧
      gBase (pcid c k) g.val t = (gBase (pcid c k) g.val s + 1) % 65536 ∧
      gCount (pcid c k) g.val (gBase (pcid c k) g.val s) t = 0 ∧
      t.rd (Q_GATH_TMO (pcid c k)) = min (s.rd (Q_GATH_TMO (pcid c k)) + 1) (2 ^ 32 - 1) ∧
      t.out = s.out ∧ t.cpl = s.cpl)

/-- An admitted read, write or ATOMIC at an idle slice acts on its bytes alone and is answered OK; one not admitted is answered with its code. For a request that meets admission (slAdmit OK) at a slice with an empty arrival queue: a read answers its bytes, a write stores its bytes and answers, an ATOMIC answers the old value and stores old + operand (ADD32, ADD64), the f32 sum, the operand, or the swap by its kind; every other byte stays and the transfer is counted. A request of a foreign instance is answered REFUSED and changes no byte. A request that waits only joins the arrival queue. Rests on: R19, R274, R275, R276, R278, R279. -/
def Obligations.SharedSliceRequestsActAndAnswer : Prop :=
  (∀ (s : State) (r : SlReq) (n : Byte) (x : Nat),
    x = slSlice (r.addr.toNat - shmBase) ∧ (s.slice x).queue = [] ∧ slAdmit r (.rd n) s = cOK →
    ∃ t, exec (.sliceRdReq r n false) s = .next t ∧
      t.out = .packet r.sep.toNat (0x80 + x) pkRD_RSP ((r.who.map (·.val)).getD 0) r.gen.toNat r.tag.toNat (cOK :: (s.rdN (n.toNat + 1) r.addr.toNat).map (·.toNat)) :: s.out ∧
      t.rd64 (SHM_SL_RDB x) = (s.rd64 (SHM_SL_RDB x) + n.toNat + 1) % 2 ^ 64 ∧
      s.sameRegs t [SHM_SL_RDB x, SHM_SL_RDB x + 4] ∧
      t.mem = s.mem ∧ (t.slice x).queue = []) ∧
  (∀ (s : State) (r : SlReq) (d : List Byte) (x : Nat),
    x = slSlice (r.addr.toNat - shmBase) ∧ (s.slice x).queue = [] ∧ slAdmit r (.wr d) s = cOK →
    ∃ t, exec (.sliceWrReq r d false) s = .next t ∧
      t.rdN d.length r.addr.toNat = d ∧
      (∀ b, b < r.addr.toNat ∨ r.addr.toNat + d.length ≤ b → t.rdB b = s.rdB b) ∧
      t.out = .packet r.sep.toNat (0x80 + x) pkWR_CPL ((r.who.map (·.val)).getD 0) r.gen.toNat r.tag.toNat [cOK] :: s.out ∧
      t.rd64 (SHM_SL_WRB x) = (s.rd64 (SHM_SL_WRB x) + d.length) % 2 ^ 64 ∧
      s.sameRegs t [SHM_SL_WRB x, SHM_SL_WRB x + 4]) ∧
  (∀ (s : State) (r : SlReq) (k : BitVec 4) (v : DWord) (x : Nat),
    x = slSlice (r.addr.toNat - shmBase) ∧ (s.slice x).queue = [] ∧ slAdmit r (.atomic k v) s = cOK ∧ s.fb (SHM_SL_STAT x) SHM_SL_STAT.FAILED = false →
    ∃ t, exec (.sliceAtomic r k v false) s = .next t ∧
      (t.rdLE (if k = 1 ∨ k = 4 then 8 else 4) r.addr.toNat = atomicNew k.toNat (s.rdLE (if k = 1 ∨ k = 4 then 8 else 4) r.addr.toNat) v.toNat) ∧
      (∀ b, b < r.addr.toNat ∨ r.addr.toNat + 8 ≤ b → t.rdB b = s.rdB b) ∧
      (t.out = .packet r.sep.toNat (0x80 + x) pkRD_RSP ((r.who.map (·.val)).getD 0) r.gen.toNat r.tag.toNat [cOK, s.rdLE (if k = 1 ∨ k = 4 then 8 else 4) r.addr.toNat] :: s.out) ∧
      t.rd (SHM_SL_ATOM x) = min (s.rd (SHM_SL_ATOM x) + 1) (2 ^ 32 - 1)) ∧
  (∀ (s : State) (r : SlReq) (d : List Byte) (x : Nat) (j : InstNo),
    x = slSlice (r.addr.toNat - shmBase) ∧ (s.slice x).queue = [] ∧ r.who = some j ∧ ownsSlice j.val x s = false →
    shmBase ≤ r.addr.toNat ∧ r.addr.toNat < shmBase + 0x2000000 ∧ 0 < d.length ∧ (r.addr.toNat - shmBase) % 256 + d.length ≤ 256 →
    ∃ t, exec (.sliceWrReq r d false) s = .next t ∧
      t.out = .packet r.sep.toNat (0x80 + x) pkWR_CPL j.val r.gen.toNat r.tag.toNat [cREFUSED] :: s.out ∧
      t.mem = s.mem ∧ t.regs = s.regs) ∧
  (∀ (s : State) (r : SlReq) (n : Byte) (x : Nat),
    x = slSlice (r.addr.toNat - shmBase) ∧ (s.slice x).queue.length < 64 →
    ∃ t, exec (.sliceRdReq r n true) s = .next t ∧
      (t.slice x).queue = (s.slice x).queue ++ [(r, .rd n)] ∧
      t = { s with slices := t.slices })

/-- The line test moves on and repairs a bad bank with the spare, the copy ends, and a clear zeroes exactly its range. A good line moves the slice's test to its next line and counts waits; a first bad line starts a copy to the spare for its bank; the end of the copy sets SPARE_USED and writes a fault record of class 4. A GO write with a 256-byte aligned range sets BUSY and answers OK; at its end the range reads 0, no byte outside it changed, BUSY is 0 and CODE is OK. CLR zeroes the slice counters. Rests on: R280, R281, R282, R283, R459. -/
def Obligations.SharedSliceTestAndClear : Prop :=
  (∀ (s : State) (sl : Fin 64) (wait : Word) (fetch : Option (BitVec 25)),
    s.fb SHM_TEST SHM_TEST.EN = true ∧ s.fb (SHM_SL_STAT sl.val) SHM_SL_STAT.FAILED = false ∧ s.fb SHM_XWIN SHM_XWIN.ACTIVE = false →
    ∃ t, exec (.shmLineTest sl false wait fetch) s = .next t ∧
      (t.slice sl.val).testLine = ((s.slice sl.val).testLine + 1) % 16384 ∧
      t.rd (SHM_SL_TWAIT sl.val) = min (s.rd (SHM_SL_TWAIT sl.val) + wait.toNat) (2 ^ 32 - 1) ∧
      s.sameRegs t [SHM_SL_TWAIT sl.val] ∧
      t.mem = s.mem ∧ t.out = s.out) ∧
  (∀ (s : State) (sl : Fin 64) (wait : Word) (fetch : Option (BitVec 25)),
    s.fb SHM_TEST SHM_TEST.EN = true ∧ s.fb (SHM_SL_STAT sl.val) SHM_SL_STAT.FAILED = false ∧ s.fb SHM_XWIN SHM_XWIN.ACTIVE = false →
    s.fb (SHM_SL_STAT sl.val) SHM_SL_STAT.COPYING = false ∧ s.fb (SHM_SL_STAT sl.val) SHM_SL_STAT.SPARE_USED = false →
    bit (s.fv (SHM_SL_STAT sl.val) SHM_SL_STAT.BANKOK) (slBank (slLine sl.val (s.slice sl.val).testLine)) = true →
    ∃ t, exec (.shmLineTest sl true wait fetch) s = .next t ∧
      t.fv (SHM_SL_STAT sl.val) SHM_SL_STAT.COPYING = 1 ∧
      t.fv (SHM_SL_STAT sl.val) SHM_SL_STAT.SPARE_FOR = slBank (slLine sl.val (s.slice sl.val).testLine) ∧
      t.fv (SHM_SL_STAT sl.val) SHM_SL_STAT.BANKOK = s.fv (SHM_SL_STAT sl.val) SHM_SL_STAT.BANKOK ∧
      t.rd (SHM_SL_TFAIL sl.val) = min (s.rd (SHM_SL_TFAIL sl.val) + 1) (2 ^ 32 - 1)) ∧
  (∀ (s : State) (sl : Fin 64),
    s.fb (SHM_SL_STAT sl.val) SHM_SL_STAT.COPYING = true ∧ s.logRoom 1 →
    ∃ t, exec (.shmSpareCopyDone sl) s = .next t ∧
      t.fv (SHM_SL_STAT sl.val) SHM_SL_STAT.COPYING = 0 ∧ t.fv (SHM_SL_STAT sl.val) SHM_SL_STAT.SPARE_USED = 1 ∧
      s.sameRegs t [SHM_SL_STAT sl.val, RAS_FREC_CNT, RAS_CNT_MASKED] ∧
      bits ((t.dev.frecs.headD []).headD 0) 0 10 = 4 ∧ t.logIn.length = s.logIn.length + 1 ∧
      t = { s with regs := t.regs, dev := t.dev, logIn := t.logIn, fresh := t.fresh } ∧ t.dev = { s.dev with frecs := t.dev.frecs }) ∧
  (∀ (s : State) (q : Req) (v : Word),
    s.devOpen q 8 = true ∧ bit v.toNat 0 = true ∧ s.fb SHM_XWIN SHM_XWIN.ACTIVE = false ∧ s.fb SHM_CLR_CTRL SHM_CLR_CTRL.BUSY = false →
    ∀ x : Fin 64, confSlice x.val s = false →
    s.fv SHM_CLR_BASE SHM_CLR_BASE.BASE % 256 = 0 ∧ s.fv SHM_CLR_LEN SHM_CLR_LEN.LEN % 256 = 0 ∧ s.fv SHM_CLR_BASE SHM_CLR_BASE.BASE + s.fv SHM_CLR_LEN SHM_CLR_LEN.LEN ≤ 0x2000000 →
    ∃ t, exec (.shmClrGo q v) s = .next t ∧
      t.dev.shmClr = some (s.fv SHM_CLR_BASE SHM_CLR_BASE.BASE, s.fv SHM_CLR_LEN SHM_CLR_LEN.LEN) ∧
      t.fv SHM_CLR_CTRL SHM_CLR_CTRL.BUSY = 1 ∧
      s.answered t q cOK [] false ∧
      s.sameRegs t [SHM_CLR_CTRL] ∧
      t.mem = s.mem) ∧
  (∀ (s : State) (b n : Nat),
    s.dev.shmClr = some (b, n) →
    ∃ t, exec (.shmClrDone) s = .next t ∧
      (∀ a, t.rdB a = if shmBase + b ≤ a ∧ a < shmBase + b + n then 0 else s.rdB a) ∧
      t.fv SHM_CLR_CTRL SHM_CLR_CTRL.BUSY = 0 ∧ t.fv SHM_CLR_CTRL SHM_CLR_CTRL.CODE = cOK ∧
      t.dev.shmClr = none ∧
      s.sameRegs t [SHM_CLR_CTRL]) ∧
  (∀ (s : State) (q : Req) (v : Word),
    s.devOpen q 8 = true ∧ bit v.toNat 0 = true →
    ∃ t, exec (.shmCntClr q v) s = .next t ∧
      (∀ x : Fin 64, t.rd (SHM_SL_COLL x.val) = 0 ∧ t.rd64 (SHM_SL_RDB x.val) = 0 ∧ t.rd64 (SHM_SL_WRB x.val) = 0 ∧ t.rd (SHM_SL_TFAIL x.val) = 0) ∧
      s.answered t q cOK [] false ∧
      t.mem = s.mem)

/-- A port goes from Off through Dark, Train and Qualify to Up, sleeps and wakes, fails back to Dark, and a loss, a disable or a retrain takes it Down. EN = 1 takes an Off port to Dark; EN = 0 takes an untrained one to Off, an Up one to Down; RETRAIN takes an Up one to Down. A peer on six wavelengths starts training; training stores width, wavelengths, lane map and peer and goes to Qualify; a good qualification goes to Up with sequence numbers at 0, a bad one and a training time-out count a failure and go back to Dark. A link on which both ends ask for Sleep and nothing waits sleeps; a sleeping one sends the wake pattern on the wavelength of lane 0 and is Up. A lost link is Down: counted, rerouting, its fences ended. Rests on: R302, R303, R304, R305, R325, R326, R331. -/
def Obligations.JariskLinkStatesFollowEvents : Prop :=
  (∀ (s : State) (q : Req) (p : JPort) (v : Word),
    s.devOpen q 6 = true ∧ s.dev.fusedJlk.contains p.val = false →
    s.fb (JLK_CTRL p.val) JLK_CTRL.EN = false ∧ jState p.val s = jsOff →
    ∃ t, exec (.jlkEnable q p v) s = .next t ∧
      jState p.val t = jsDark ∧ t.fb (JLK_CTRL p.val) JLK_CTRL.EN = true ∧
      s.answered t q cOK [] false ∧
      s.sameRegs t [JLK_CTRL p.val, JLK_STATUS p.val] ∧
      t.mem = s.mem ∧ t.out = .jlk p.val 0 [0x1FF] :: s.out) ∧
  (∀ (s : State) (q : Req) (p : JPort) (v : Word),
    s.devOpen q 6 = true ∧ s.dev.fusedJlk.contains p.val = false →
    s.fb (JLK_CTRL p.val) JLK_CTRL.EN = true ∧ jState p.val s = jsDark →
    ∃ t, exec (.jlkDisable q p v) s = .next t ∧
      jState p.val t = jsOff ∧ t.fb (JLK_CTRL p.val) JLK_CTRL.EN = false ∧
      t.fv (JLK_STATUS p.val) JLK_STATUS.WIDTH = 0 ∧ t.rd (JLK_LANEMAP p.val) = 0xFFFFFFFF ∧
      s.answered t q cOK [] false ∧
      s.sameRegs t [JLK_CTRL p.val, JLK_STATUS p.val, JLK_LANEMAP p.val]) ∧
  (∀ (s : State) (q : Req) (p : JPort) (v : Word),
    s.devOpen q 6 = true ∧ s.dev.fusedJlk.contains p.val = false →
    s.fb (JLK_CTRL p.val) JLK_CTRL.EN = true ∧ jState p.val s = jsUp →
    ∃ t, exec (.jlkDisable q p v) s = .next t ∧
      jState p.val t = jsDown ∧ t.fb (JLK_CTRL p.val) JLK_CTRL.EN = false ∧ t.fb (JLK_STATUS p.val) JLK_STATUS.REROUTING = true ∧
      t.rd (JLK_DOWN p.val) = min (s.rd (JLK_DOWN p.val) + 1) (2 ^ 32 - 1) ∧
      s.answered t q cOK [] false ∧
      t.mem = s.mem) ∧
  (∀ (s : State) (q : Req) (p : JPort) (v : Word),
    s.devOpen q 6 = true ∧ s.dev.fusedJlk.contains p.val = false →
    jState p.val s = jsUp ∧ bit v.toNat 0 = true →
    ∃ t, exec (.jlkRetrain q p v) s = .next t ∧
      jState p.val t = jsDown ∧ t.fb (JLK_STATUS p.val) JLK_STATUS.REROUTING = true ∧
      t.rd (JLK_DOWN p.val) = min (s.rd (JLK_DOWN p.val) + 1) (2 ^ 32 - 1) ∧
      s.answered t q cOK [] false ∧
      t.mem = s.mem) ∧
  (∀ (s : State) (p : JPort) (wls : BitVec 9),
    jState p.val s = jsDark ∧ (s.jp p.val).holdoff = false ∧ s.dev.fusedJlk.contains p.val = false →
    6 ≤ popcount wls.toNat 9 →
    ∃ t, exec (.peerDetected p wls) s = .next t ∧
      jState p.val t = jsTrain ∧ t.fb (JLK_PEER p.val) JLK_PEER.VALID = false ∧
      s.sameRegs t [JLK_STATUS p.val, JLK_PEER p.val] ∧
      t = { s with regs := t.regs }) ∧
  (∀ (s : State) (p : JPort) (good peer : BitVec 9) (faddr : BitVec 16) (port : BitVec 4),
    jState p.val s = jsTrain →
    ∃ t, exec (.trainComplete p good peer faddr port) s = .next t ∧
      jState p.val t = jsQualify ∧
      t.fv (JLK_STATUS p.val) JLK_STATUS.WIDTH = min (popcount good.toNat 9) 8 ∧ t.fv (JLK_STATUS p.val) JLK_STATUS.WLOK = good.toNat ∧
      t.fv (JLK_STATUS p.val) JLK_STATUS.SPARE = (wlList good.toNat).getD 8 15 ∧ t.fv (JLK_STATUS p.val) JLK_STATUS.TXWIDTH = min (popcount peer.toNat 9) 8 ∧
      t.rd (JLK_PEER p.val) = faddr.toNat + port.toNat * 2 ^ 16 + 2 ^ 31 ∧
      (t.jp p.val).txLanes = (wlList peer.toNat).take 8 ∧ (t.jp p.val).txSpare = (wlList peer.toNat)[8]? ∧
      (∀ l : Fin 8, bits (t.rd (JLK_LANEMAP p.val)) (4 * l.val) 4 = (if l.val < popcount good.toNat 9 then (wlList good.toNat).getD l.val 15 else 15)) ∧
      s.sameRegs t [JLK_STATUS p.val, JLK_PEER p.val, JLK_LANEMAP p.val]) ∧
  (∀ (s : State) (p : JPort),
    jState p.val s = jsTrain →
    ∃ t, exec (.trainTimeout p) s = .next t ∧
      jState p.val t = jsDark ∧ t.fv (JLK_STATUS p.val) JLK_STATUS.WIDTH = 0 ∧
      t.rd (JLK_QUAL_FAIL p.val) = min (s.rd (JLK_QUAL_FAIL p.val) + 1) (2 ^ 32 - 1) ∧
      t.out = .jlk p.val 0 [0x1FF] :: s.out ∧
      s.sameRegs t [JLK_STATUS p.val, JLK_QUAL_FAIL p.val, JLK_LANEMAP p.val]) ∧
  (∀ (s : State) (p : JPort),
    jState p.val s = jsQualify ∧ 6 ≤ s.fv (JLK_STATUS p.val) JLK_STATUS.WIDTH ∧ qualLanes p.val s = true →
    (s.jp p.val).qualErr = false ∧ (s.jp p.val).held = [] →
    ∃ t, exec (.qualifyEnd p) s = .next t ∧
      jState p.val t = jsUp ∧
      (t.jp p.val).txSeq = 0 ∧ (t.jp p.val).rxExp = 0 ∧ (t.jp p.val).replay = [] ∧ (t.jp p.val).granted = [] ∧
      t.mem = s.mem ∧ t.out = s.out ∧ t.cpl = s.cpl) ∧
  (∀ (s : State) (p : JPort),
    jState p.val s = jsQualify ∧ (s.fv (JLK_STATUS p.val) JLK_STATUS.WIDTH < 6 ∨ qualLanes p.val s = false ∨ (s.jp p.val).qualErr = true) →
    ∃ t, exec (.qualifyEnd p) s = .next t ∧
      jState p.val t = jsDark ∧ (t.jp p.val).holdoff = true ∧
      t.rd (JLK_QUAL_FAIL p.val) = min (s.rd (JLK_QUAL_FAIL p.val) + 1) (2 ^ 32 - 1) ∧
      s.sameRegs t [JLK_STATUS p.val, JLK_QUAL_FAIL p.val, JLK_LANEMAP p.val] ∧ t.out = s.out) ∧
  (∀ (s : State) (p : JPort),
    ∃ t, exec (.retrainDelayEnd p) s = .next t ∧
      (t.jp p.val).holdoff = false ∧
      t = { s.setJp p.val { s.jp p.val with holdoff := false } with out := t.out } ∧
      t.out = (if (s.jp p.val).holdoff = true ∧ jState p.val s = jsDark then .jlk p.val 0 [0x1FF] :: s.out else s.out)) ∧
  (∀ (s : State) (p : JPort),
    jState p.val s = jsUp ∨ jState p.val s = jsSleep →
    ∃ t, exec (.jlkLosTimeout p) s = .next t ∧
      jState p.val t = jsDown ∧ t.fb (JLK_STATUS p.val) JLK_STATUS.REROUTING = true ∧ t.fb (JLK_CMAP p.val) JLK_CMAP.DOWN = true ∧
      t.rd (JLK_DOWN p.val) = min (s.rd (JLK_DOWN p.val) + 1) (2 ^ 32 - 1) ∧
      (t.jp p.val).fences = [] ∧
      t.mem = s.mem ∧ t.cpl = s.cpl) ∧
  (∀ (s : State) (p : JPort),
    jState p.val s = jsUp ∨ jState p.val s = jsSleep →
    ∃ t, exec (.jlkLcfTimeout p) s = .next t ∧
      jState p.val t = jsDown ∧ t.fb (JLK_STATUS p.val) JLK_STATUS.REROUTING = true ∧
      t.rd (JLK_DOWN p.val) = min (s.rd (JLK_DOWN p.val) + 1) (2 ^ 32 - 1) ∧
      t.mem = s.mem ∧ t.cpl = s.cpl) ∧
  (∀ (s : State) (p : JPort),
    jState p.val s = jsSleep →
    ∃ t, exec (.jlkRelockTimeout p) s = .next t ∧
      jState p.val t = jsDown ∧ t.fb (JLK_STATUS p.val) JLK_STATUS.REROUTING = true ∧
      t.rd (JLK_DOWN p.val) = min (s.rd (JLK_DOWN p.val) + 1) (2 ^ 32 - 1) ∧
      t.mem = s.mem ∧ t.cpl = s.cpl) ∧
  (∀ (s : State) (p : JPort),
    jState p.val s = jsUp ∧ s.fb (JLK_CTRL p.val) JLK_CTRL.SLEEP = true ∧ (s.jp p.val).sleepPeer = true →
    (s.jp p.val).replay = [] ∧ stgRecs (s.jp p.val) = 0 ∧ (s.jp p.val).txReq = [] ∧ (s.jp p.val).txMgt = [] ∧ (s.jp p.val).cur = none ∧ (s.jp p.val).held = [] →
    ∃ t, exec (.jlkSleepEnter p) s = .next t ∧
      jState p.val t = jsSleep ∧
      t = s.fs (JLK_STATUS p.val) JLK_STATUS.STATE jsSleep) ∧
  (∀ (s : State) (p : JPort),
    jState p.val s = jsSleep ∧ (s.jp p.val).held = [] →
    ∃ t, exec (.jlkWake p) s = .next t ∧
      jState p.val t = jsUp ∧
      (t.jp p.val).txSeq = 0 ∧ (t.jp p.val).rxExp = 0 ∧ (t.jp p.val).sleepPeer = false ∧
      t.out = .jlk p.val 2 [(s.jp p.val).txLanes.headD 0] :: s.out ∧
      t.mem = s.mem ∧ t.cpl = s.cpl) ∧
  (∀ (s : State) (p : JPort) (c : LCmd) (l : List LCmd),
    s.fb (JLK_CTRL p.val) JLK_CTRL.SLEEP = true → (s.jp p.val).lcmdIn = c :: l → c.cmd = 5 →
    ∃ t, exec (.lcmdSleepReq p) s = .next t ∧
      (t.jp p.val).sleepPeer = true ∧ (t.jp p.val).lcmdIn = l ∧
      (t.jp p.val).lcmds = (s.jp p.val).lcmds ++ [⟨6, 0, 0, 0⟩] ∧
      t.regs = s.regs ∧ t.mem = s.mem ∧ t.out = s.out ∧ t.cpl = s.cpl) ∧
  (∀ (s : State) (p : JPort) (c : LCmd) (l : List LCmd),
    (s.jp p.val).lcmdIn = c :: l → c.cmd = 6 →
    ∃ t, exec (.lcmdSleepAck p) s = .next t ∧
      (t.jp p.val).sleepAck = true ∧ (t.jp p.val).sleepPeer = true ∧ (t.jp p.val).lcmdIn = l ∧
      t.regs = s.regs ∧ t.mem = s.mem ∧ t.out = s.out ∧ t.cpl = s.cpl)

/-- A failing lane proposes a swap or a narrowing, both ends take it at the agreed codeword, a failed laser hands over, fitting moves one step. A lane of an Up link at which a failing condition holds proposes SWAP to a spare wavelength that is free, without one NARROW, at width 6 it takes the link Down; a condition that does not hold changes nothing. A command received is agreed and echoed, an acknowledgement fixes the codeword. At the codeword a swap puts the spare into the lane map, a narrowing removes the lane from it. A laser whose partner is good switches its bank, one whose partner has failed too keeps it; each fitting tick changes TXH and RXH by at most one within 12 bits. Rests on: R299, R300, R301, R306, R307. -/
def Obligations.JariskLanesLasersAndFitting : Prop :=
  (∀ (s : State) (p : JPort) (lane : Fin 8) (why : LaneFault),
    jState p.val s = jsUp ∧ lane.val < s.fv (JLK_STATUS p.val) JLK_STATUS.WIDTH ∧ s.fv (JLK_STATUS p.val) JLK_STATUS.SPARE ≠ 15 →
    laneBad p.val (bits (s.rd (JLK_LANEMAP p.val)) (4 * lane.val) 4) s why = true → (s.jp p.val).change = [] →
    ∃ t, exec (.laneFailing p lane why) s = .next t ∧
      (t.jp p.val).change = [⟨true, true, lane.val, s.fv (JLK_STATUS p.val) JLK_STATUS.SPARE, (rxCtr (s.jp p.val) + 32) % 4096⟩] ∧
      (t.jp p.val).lcmds = (s.jp p.val).lcmds ++ [⟨1, lane.val, s.fv (JLK_STATUS p.val) JLK_STATUS.SPARE, (rxCtr (s.jp p.val) + 32) % 4096⟩] ∧
      t.regs = s.regs ∧ t.mem = s.mem ∧ t.out = s.out ∧ t.cpl = s.cpl) ∧
  (∀ (s : State) (p : JPort) (lane : Fin 8) (why : LaneFault),
    laneBad p.val (bits (s.rd (JLK_LANEMAP p.val)) (4 * lane.val) 4) s why = false →
    exec (.laneFailing p lane why) s = .next s) ∧
  (∀ (s : State) (p : JPort) (lane : Fin 8) (why : LaneFault),
    jState p.val s = jsUp ∧ lane.val < s.fv (JLK_STATUS p.val) JLK_STATUS.WIDTH ∧ s.fv (JLK_STATUS p.val) JLK_STATUS.SPARE = 15 →
    laneBad p.val (bits (s.rd (JLK_LANEMAP p.val)) (4 * lane.val) 4) s why = true → (s.jp p.val).change = [] →
    6 < s.fv (JLK_STATUS p.val) JLK_STATUS.WIDTH →
    ∃ t, exec (.laneFailing p lane why) s = .next t ∧
      (t.jp p.val).change = [⟨true, false, lane.val, 0, (rxCtr (s.jp p.val) + 32) % 4096⟩] ∧
      (t.jp p.val).lcmds = (s.jp p.val).lcmds ++ [⟨2, lane.val, 0, (rxCtr (s.jp p.val) + 32) % 4096⟩] ∧
      t.regs = s.regs ∧ t.mem = s.mem ∧ t.out = s.out ∧ t.cpl = s.cpl) ∧
  (∀ (s : State) (p : JPort) (lane : Fin 8) (why : LaneFault),
    jState p.val s = jsUp ∧ lane.val < s.fv (JLK_STATUS p.val) JLK_STATUS.WIDTH ∧ s.fv (JLK_STATUS p.val) JLK_STATUS.SPARE = 15 →
    laneBad p.val (bits (s.rd (JLK_LANEMAP p.val)) (4 * lane.val) 4) s why = true → (s.jp p.val).change = [] →
    s.fv (JLK_STATUS p.val) JLK_STATUS.WIDTH ≤ 6 →
    ∃ t, exec (.laneFailing p lane why) s = .next t ∧
      jState p.val t = jsDown ∧ t.rd (JLK_DOWN p.val) = min (s.rd (JLK_DOWN p.val) + 1) (2 ^ 32 - 1) ∧ t.mem = s.mem) ∧
  (∀ (s : State) (p : JPort) (c : LCmd) (l : List LCmd),
    jState p.val s = jsUp → (s.jp p.val).lcmdIn = c :: l → c.cmd = 1 →
    ∃ t, exec (.lcmdSwap p) s = .next t ∧
      (t.jp p.val).change = (s.jp p.val).change ++ [⟨false, true, c.lane, c.wl, echoCwn (s.jp p.val) c.cwn⟩] ∧
      (t.jp p.val).lcmds = (s.jp p.val).lcmds ++ [⟨3, c.lane, c.wl, echoCwn (s.jp p.val) c.cwn⟩] ∧
      (t.jp p.val).lcmdIn = l ∧
      t.regs = s.regs ∧ t.mem = s.mem ∧ t.out = s.out ∧ t.cpl = s.cpl) ∧
  (∀ (s : State) (p : JPort) (c : LCmd) (l : List LCmd),
    jState p.val s = jsUp → (s.jp p.val).lcmdIn = c :: l → c.cmd = 2 →
    ∃ t, exec (.lcmdNarrow p) s = .next t ∧
      (t.jp p.val).change = (s.jp p.val).change ++ [⟨false, false, c.lane, c.wl, echoCwn (s.jp p.val) c.cwn⟩] ∧
      (t.jp p.val).lcmds = (s.jp p.val).lcmds ++ [⟨4, c.lane, c.wl, echoCwn (s.jp p.val) c.cwn⟩] ∧
      (t.jp p.val).lcmdIn = l ∧
      t.regs = s.regs ∧ t.mem = s.mem ∧ t.out = s.out ∧ t.cpl = s.cpl) ∧
  (∀ (s : State) (p : JPort) (d : LCmd) (l : List LCmd) (c : LaneChg),
    (s.jp p.val).change = [c] ∧ c.rx = true ∧ c.swap = true ∧ c.lane = d.lane →
    (s.jp p.val).lcmdIn = d :: l → d.cmd = 3 →
    ∃ t, exec (.lcmdSwapAck p) s = .next t ∧
      (t.jp p.val).change = [{ c with cwn := d.cwn }] ∧ (t.jp p.val).lcmdIn = l ∧
      t.regs = s.regs ∧ t.mem = s.mem ∧ t.out = s.out ∧ t.cpl = s.cpl) ∧
  (∀ (s : State) (p : JPort) (d : LCmd) (l : List LCmd) (c : LaneChg),
    (s.jp p.val).change = [c] ∧ c.rx = true ∧ c.swap = false ∧ c.lane = d.lane →
    (s.jp p.val).lcmdIn = d :: l → d.cmd = 4 →
    ∃ t, exec (.lcmdNarrowAck p) s = .next t ∧
      (t.jp p.val).change = [{ c with cwn := d.cwn }] ∧ (t.jp p.val).lcmdIn = l ∧
      t.regs = s.regs ∧ t.mem = s.mem ∧ t.out = s.out ∧ t.cpl = s.cpl) ∧
  (∀ (s : State) (p : JPort) (c : LaneChg),
    jState p.val s = jsUp ∧ (s.jp p.val).change = [c] ∧ c.cwn = (s.jp p.val).rxN % 4096 ∧ c.rx = true ∧ c.swap = true ∧ c.lane < 8 ∧ c.wl < 9 →
    ∃ t, exec (.laneChangeAtCwn p) s = .next t ∧
      bits (t.rd (JLK_LANEMAP p.val)) (4 * c.lane) 4 = c.wl ∧
      t.fv (JLK_STATUS p.val) JLK_STATUS.SPARE = 15 ∧ t.fv (JLK_STATUS p.val) JLK_STATUS.WIDTH = s.fv (JLK_STATUS p.val) JLK_STATUS.WIDTH ∧
      t.rd (JLK_LANE_SWAP p.val) = min (s.rd (JLK_LANE_SWAP p.val) + 1) (2 ^ 32 - 1) ∧
      (t.jp p.val).change = [] ∧
      t.mem = s.mem ∧ t.out = s.out) ∧
  (∀ (s : State) (p : JPort) (c : LaneChg),
    jState p.val s = jsUp ∧ (s.jp p.val).change = [c] ∧ c.cwn = (s.jp p.val).rxN % 4096 ∧ c.rx = true ∧ c.swap = false ∧ c.lane < 8 →
    0 < s.fv (JLK_STATUS p.val) JLK_STATUS.WIDTH →
    ∃ t, exec (.laneChangeAtCwn p) s = .next t ∧
      t.fv (JLK_STATUS p.val) JLK_STATUS.WIDTH = s.fv (JLK_STATUS p.val) JLK_STATUS.WIDTH - 1 ∧ t.fv (JLK_STATUS p.val) JLK_STATUS.DEGRADED = 1 ∧
      (∀ l : Fin 8, bits (t.rd (JLK_LANEMAP p.val)) (4 * l.val) 4 = (if l.val < c.lane then bits (s.rd (JLK_LANEMAP p.val)) (4 * l.val) 4 else if l.val = 7 then 15 else bits (s.rd (JLK_LANEMAP p.val)) (4 * l.val + 4) 4)) ∧
      t.rd (JLK_NARROW p.val) = min (s.rd (JLK_NARROW p.val) + 1) (2 ^ 32 - 1) ∧
      t.mem = s.mem ∧ t.out = s.out) ∧
  (∀ (s : State) (w : Fin 9),
    bit (s.fv JLK_LASER (if bit (s.fv JLK_LASER JLK_LASER.BANK) w.val then JLK_LASER.AFAULT else JLK_LASER.BFAULT)) w.val = false →
    ∃ t, exec (.laserTakeover w) s = .next t ∧
      bit (t.fv JLK_LASER JLK_LASER.BANK) w.val = !bit (s.fv JLK_LASER JLK_LASER.BANK) w.val ∧
      bit (t.fv JLK_LASER (if bit (s.fv JLK_LASER JLK_LASER.BANK) w.val then JLK_LASER.BFAULT else JLK_LASER.AFAULT)) w.val = true ∧
      t.rd JLK_LASER_SW = min (s.rd JLK_LASER_SW + 1) (2 ^ 32 - 1) ∧
      t.mem = s.mem ∧ t.out = s.out) ∧
  (∀ (s : State) (w : Fin 9),
    bit (s.fv JLK_LASER (if bit (s.fv JLK_LASER JLK_LASER.BANK) w.val then JLK_LASER.AFAULT else JLK_LASER.BFAULT)) w.val = true →
    ∃ t, exec (.laserTakeover w) s = .next t ∧
      t.fv JLK_LASER JLK_LASER.BANK = s.fv JLK_LASER JLK_LASER.BANK ∧ t.rd JLK_LASER_SW = s.rd JLK_LASER_SW ∧
      bit (t.fv JLK_LASER (if bit (s.fv JLK_LASER JLK_LASER.BANK) w.val then JLK_LASER.BFAULT else JLK_LASER.AFAULT)) w.val = true ∧
      t.mem = s.mem) ∧
  (∀ (s : State) (p : JPort) (tx rx : List (Fin 3)),
    s.fb (JLK_FIT p.val) JLK_FIT.EN = true →
    ∃ t, exec (.fittingTick p tx rx) s = .next t ∧
      (∀ w : Fin 9, t.fv (JLK_RING p.val w.val) JLK_RING.TXH = heat (s.fv (JLK_RING p.val w.val) JLK_RING.TXH) (tx.getD w.val 1).val ∧ t.fv (JLK_RING p.val w.val) JLK_RING.RXH = heat (s.fv (JLK_RING p.val w.val) JLK_RING.RXH) (rx.getD w.val 1).val) ∧
      s.sameRegs t ((List.range 9).map fun w => JLK_RING p.val w) ∧
      t = { s with regs := t.regs })

/-- Codewords and groups are accepted in order, flits are kept until acknowledged, remote events and records turn into each other, table commands act on one entry. A codeword is counted: an alignment codeword sets the number of the next one to 0, another adds its ten slots to the group that is open; a bad group is counted and owes a NAK. A good empty group in order frees the acknowledged flits; an event flit in order leaves its records in the receive buffer. Staged records make a flit, which stays in the replay buffer under the next sequence number once it is sent. A remote event toward a peer reached by this port is staged as a record; a good record for this device enters the network as an event. Rank and route commands read or write exactly their entry with its check, out of range answers FULL. CLR zeroes the port's counters. Rests on: R288, R289, R291, R294, R295, R296, R309, R310, R312, R313, R314, R315. -/
def Obligations.JariskGroupsRecordsAndTables : Prop :=
  (∀ (s : State) (p : JPort) (cws : List (List (List (Fin 4)))),
    jState p.val s ≠ jsUp ∧ jState p.val s ≠ jsQualify →
    exec (.lcfReceive p cws) s = .next s) ∧
  (∀ (s : State) (p : JPort) (cws : List (List (List (Fin 4)))),
    exec (.lcfReceive p cws) s = .next (cws.foldl (rxCodeword p.val) s)) ∧
  (∀ (s : State) (p : JPort) (cw : List (List (Fin 4))) (w : Nat) (raw : List Nat),
    jState p.val s = jsUp ∧ s.fv (JLK_STATUS p.val) JLK_STATUS.WIDTH = w ∧ w ≠ 0 ∧ (s.jp p.val).change = [] →
    raw = collect w (s.jp p.val).rxPos ((List.range w).map fun l => symsOfPam ((cw.getD (bits (s.rd (JLK_LANEMAP p.val)) (4 * l) 4) []).map (·.val))) →
    raw = alignCw w (s.jp p.val).rxPos →
    ∃ t, exec (.lcfReceive p [cw]) s = .next t ∧
      (t.jp p.val).rxN = 0 ∧ (t.jp p.val).rxPos = ((s.jp p.val).rxPos + 544) % w ∧
      t.rd64 (JLK_CW p.val) = (s.rd64 (JLK_CW p.val) + 1) % 2 ^ 64 ∧
      s.sameRegs t [JLK_CW p.val, JLK_CW p.val + 4] ∧ t.mem = s.mem ∧ t.out = s.out) ∧
  (∀ (s : State) (p : JPort) (cw : List (List (Fin 4))) (w : Nat) (raw syms fixed : List Nat),
    jState p.val s = jsUp ∧ s.fv (JLK_STATUS p.val) JLK_STATUS.WIDTH = w ∧ w ≠ 0 ∧ (s.jp p.val).change = [] →
    raw = collect w (s.jp p.val).rxPos ((List.range w).map fun l => symsOfPam ((cw.getD (bits (s.rd (JLK_LANEMAP p.val)) (4 * l) 4) []).map (·.val))) →
    raw ≠ alignCw w (s.jp p.val).rxPos → rsDecode raw = some (syms, fixed) → (s.jp p.val).rxN % 2 = 1 →
    ∃ t, exec (.lcfReceive p [cw]) s = .next t ∧
      (t.jp p.val).rxN = (s.jp p.val).rxN + 1 ∧
      (t.jp p.val).rxSlots = (s.jp p.val).rxSlots ++ cwSlots (descramble (s.jp p.val).rxScr (symsMsg syms)).1 ∧
      (t.jp p.val).rxExp = (s.jp p.val).rxExp ∧
      t.rd64 (JLK_CW p.val) = (s.rd64 (JLK_CW p.val) + 1) % 2 ^ 64 ∧
      t.rd64 (JLK_CW_CORR p.val) = (s.rd64 (JLK_CW_CORR p.val) + b2n (fixed != [])) % 2 ^ 64 ∧
      t.mem = s.mem ∧ t.out = s.out) ∧
  (∀ (s : State) (p : JPort) (cw : List (List (Fin 4))) (w : Nat) (raw syms fixed : List Nat),
    jState p.val s = jsUp ∧ s.fv (JLK_STATUS p.val) JLK_STATUS.WIDTH = w ∧ w ≠ 0 ∧ (s.jp p.val).change = [] →
    raw = collect w (s.jp p.val).rxPos ((List.range w).map fun l => symsOfPam ((cw.getD (bits (s.rd (JLK_LANEMAP p.val)) (4 * l) 4) []).map (·.val))) →
    raw ≠ alignCw w (s.jp p.val).rxPos → rsDecode raw = some (syms, fixed) → (s.jp p.val).rxN % 2 = 0 →
    (s.jp p.val).rxSync = true → groupOk (s.jp p.val).rxSlots ((cwSlots (descramble (s.jp p.val).rxScr (symsMsg syms)).1).headD (0, [])) = false →
    ∃ t, exec (.lcfReceive p [cw]) s = .next t ∧
      (t.jp p.val).nakOwed = true ∧ (t.jp p.val).rxNext = none ∧ (t.jp p.val).rxExp = (s.jp p.val).rxExp ∧
      (t.jp p.val).rxSlots = (cwSlots (descramble (s.jp p.val).rxScr (symsMsg syms)).1).tail ∧
      t.rd (JLK_GRP_ERR p.val) = min (s.rd (JLK_GRP_ERR p.val) + 1) (2 ^ 32 - 1) ∧
      t.mem = s.mem ∧ t.out = s.out) ∧
  (∀ (s : State) (p : JPort) (l : List (Nat × List Byte)) (lcf : Nat × List Byte),
    jState p.val s = jsUp ∧ (s.jp p.val).rxSync = true ∧ (s.jp p.val).rxBad = false ∧ (s.jp p.val).nakOwed = false →
    groupOk l lcf = true ∧ l.all (fun y => y.1 == slIdle) = true ∧ (s.jp p.val).rxNext = some (s.jp p.val).rxExp →
    bit (leNat (lcf.2.take 4)) 24 = false →
    ∃ t, rxLcf p.val true l lcf s = t ∧
      (t.jp p.val).replay = (s.jp p.val).replay.filter (fun f => decide ((bits (leNat (lcf.2.take 4)) 12 12 + 4096 - f.seq) % 4096 ≥ 2048)) ∧
      (t.jp p.val).rxNext = some (bits (leNat (lcf.2.take 4)) 0 12) ∧
      (t.jp p.val).rxExp = (s.jp p.val).rxExp ∧ (t.jp p.val).rxEv = (s.jp p.val).rxEv ∧
      t.mem = s.mem ∧ t.out = s.out) ∧
  (∀ (s : State) (p : JPort) (b : List Byte),
    (s.jp p.val).nakOwed = false →
    ∃ t, rxGroup p.val (some (s.jp p.val).rxExp) [(slEvent, b)] s = t ∧
      (t.jp p.val).rxExp = ((s.jp p.val).rxExp + 1) % 4096 ∧
      (t.jp p.val).rxEv = (s.jp p.val).rxEv ++ flitRecs b ∧
      t.mem = s.mem ∧ t.out = s.out) ∧
  (∀ (s : State) (p : JPort),
    (s.jp p.val).evStage ≠ [] →
    exec (.eventFlitSend p) s = .next (s.setJp p.val { s.jp p.val with evStage := (s.jp p.val).evStage.drop 4, evOut := (s.jp p.val).evOut ++ [(s.jp p.val).evStage.take 4] })) ∧
  (∀ (s : State) (p : JPort) (l : List LRec) (m : List (List LRec)),
    (s.jp p.val).evOut = l :: m ∧ l.all (fun r => r.src == none) = true ∧ (s.jp p.val).replay.length < 2048 ∧ jCredit p.val chEVT s ≠ 0 →
    (s.jp p.val).cur = none ∧ (s.jp p.val).txMgt = [] ∧ (s.jp p.val).txReq = [] ∧ (s.jp p.val).fenceIn = [] →
    ∃ t, txNew p.val s = some t ∧
      t.1 = (slEvent, contBytes (.ev l) 0) ∧
      (t.2.jp p.val).evOut = m ∧
      (t.2.jp p.val).replay = (s.jp p.val).replay ++ [⟨(s.jp p.val).txSeq, .ev (l.map fun r => { r with src := none }), 0, (s.jp p.val).txSeq⟩] ∧
      (t.2.jp p.val).txSeq = ((s.jp p.val).txSeq + 1) % 4096 ∧
      t.2.regs = s.regs ∧ t.2.mem = s.mem) ∧
  (∀ (s : State) (p : JPort) (w0 w1 d e : Nat) (last fixed : Bool) (l : List (Nat × Nat × Bool)),
    (s.jp p.val).rxEv = (w0, w1, last) :: l ∧ secDec 57 (w0 % 2 ^ 57) (bits w0 57 7) = (some d, fixed) ∧ bit d 56 = true ∧ isMine (bits d 0 16) s = true →
    rdRank (bits d 28 4) (bits d 16 12) s = (e, s) ∧ rkValid e = true ∧ (ownRank (bits d 28 4) s).isSome = true →
    s.fb (DNET_BLK (bits w1 48 12 / 16)) DNET_BLK.VALID = true ∧ s.fb (DNET_BLK (bits w1 48 12 / 16)) DNET_BLK.IVAL = true ∧ s.fv (DNET_BLK (bits w1 48 12 / 16)) DNET_BLK.INST = bits d 28 4 ∧ w1 < 2 ^ 64 →
    sget (fun _ => []) (epJlk p.val) s.net.edge = [] ∧ s.net.outs = [] →
    ∃ t, exec (.jlkRecordReceive p 2 none) s = .next t ∧
      (t.jp p.val).rxEv = l ∧
      t.out = evFlit (epJlk p.val) (evtHdr (epCluster (s.fv (DNET_BLK (bits w1 48 12 / 16)) DNET_BLK.CLNUM)) (epJlk p.val) (bits d 28 4) (b2n (bit d 54)) (bits d 38 5) (bits d 32 6) true (bits d 16 12)) w1 :: s.out ∧
      t.regs = s.regs ∧ t.mem = s.mem) ∧
  (∀ (s : State) (p : JPort) (w0 w1 : Nat) (last : Bool) (l : List (Nat × Nat × Bool)),
    (s.jp p.val).rxEv = (w0, w1, last) :: l ∧ (secDec 57 (w0 % 2 ^ 57) (bits w0 57 7)).1 = none →
    ∃ t, exec (.jlkRecordReceive p 2 none) s = .next t ∧
      (t.jp p.val).rxEv = l ∧
      t.rd (JLK_RX_CHKERR p.val) = min (s.rd (JLK_RX_CHKERR p.val) + 1) (2 ^ 32 - 1) ∧
      t.out = s.out ∧ t.mem = s.mem) ∧
  (∀ (s : State) (p : JPort) (e : EvtIn) (w k : Nat),
    heldOn (s.jp p.val) chEVT = [] ∧ recRoom p.val s = true ∧ (s.jp p.val).evStage.length < 3 ∧ rdRank e.inst.toNat e.rank.toNat s = (w, s) ∧ rkValid w = true ∧ ownRank e.inst.toNat s = some k →
    rkFaddr w ≠ myFaddr s ∧ quenched e.inst.toNat (rkFaddr w) s = none ∧ routeTo (rkFaddr w) s = (some p.val, s) →
    ∃ t, exec (.jlkRemoteEventTx p e) s = .next t ∧
      (t.jp p.val).evStage.length = (s.jp p.val).evStage.length + 1 ∧
      ((t.jp p.val).evStage.getLast?.map fun r => (r.w1, r.src)) = some (e.ev.toNat, some (e.inst.toNat, e.rank.toNat, e.sstep5.toNat)) ∧
      ((t.jp p.val).evStage.getLast?.map fun r => (bits r.w0 0 16, bits r.w0 28 4, bits r.w0 32 6, bits r.w0 54 1, bits r.w0 56 1)) = some (rkFaddr w, rkInst w, e.scl.toNat, b2n e.hpar, 1) ∧
      ((t.jp p.val).evStage.getLast?.map fun r => bits r.w0 57 7) = ((t.jp p.val).evStage.getLast?.map fun r => secEnc 57 (r.w0 % 2 ^ 57)) ∧
      t.regs = s.regs ∧ t.mem = s.mem ∧ t.out = s.out) ∧
  (∀ (s : State) (q : Req) (v : Word) (w : Nat),
    s.devOpen q 6 = true ∧ bits v.toNat 0 16 < 4096 ∧ rdRank (bits v.toNat 16 4) (bits v.toNat 0 16) s = (w, s) →
    ∃ t, exec (.jlkRankRead q v) s = .next t ∧
      t.fv (JLK_RANK_DATA (reqIx q)) JLK_RANK_DATA.ENTRY = w % 2 ^ 21 ∧
      t.fv (JLK_RANK_CMD (reqIx q)) JLK_RANK_CMD.CODE = cOK ∧
      s.answered t q cOK [] false ∧
      s.sameRegs t [JLK_RANK_CMD (reqIx q), JLK_RANK_DATA (reqIx q)] ∧
      t.jdev = s.jdev ∧ t.mem = s.mem) ∧
  (∀ (s : State) (q : Req) (v : Word),
    s.devOpen q 6 = true ∧ 4096 ≤ bits v.toNat 0 16 →
    ∃ t, exec (.jlkRankRead q v) s = .next t ∧
      t.fv (JLK_RANK_CMD (reqIx q)) JLK_RANK_CMD.CODE = cFULL ∧
      t.fv (SEC_EXH_SRC (bits v.toNat 16 4)) SEC_EXH_SRC.RANK = 1 ∧
      s.answered t q cFULL [] false ∧
      t.jdev = s.jdev ∧ t.mem = s.mem) ∧
  (∀ (s : State) (q : Req) (v : Word) (w : Nat),
    s.devOpen q 6 = true ∧ bits v.toNat 0 16 < 4096 ∧ rdRank (bits v.toNat 16 4) (bits v.toNat 0 16) s = (w, s) ∧ rkValid w = false →
    s.conf (bits v.toNat 16 4) = false ∧ resetting (bits v.toNat 16 4) s = false ∧ loading (bits v.toNat 16 4) s = false →
    ∃ t, exec (.jlkRankWrite q v) s = .next t ∧
      sget (fun _ => 0) (4096 * bits v.toNat 16 4 + bits v.toNat 0 16) t.jdev.ranks = s.fv (JLK_RANK_DATA (reqIx q)) JLK_RANK_DATA.ENTRY + secEnc 21 (s.fv (JLK_RANK_DATA (reqIx q)) JLK_RANK_DATA.ENTRY) * 2 ^ 21 ∧
      (∀ k, k ≠ 4096 * bits v.toNat 16 4 + bits v.toNat 0 16 → sget (fun _ => 0) k t.jdev.ranks = sget (fun _ => 0) k s.jdev.ranks) ∧
      t.fv (JLK_RANK_CMD (reqIx q)) JLK_RANK_CMD.CODE = cOK ∧
      s.answered t q cOK [] false ∧
      t.jdev.routes = s.jdev.routes ∧ t.mem = s.mem) ∧
  (∀ (s : State) (q : Req) (v : Word) (w : Nat),
    s.devOpen q 6 = true ∧ rdRoute (bits v.toNat 0 16) s = (w, s) →
    ∃ t, exec (.jlkRouteRead q v) s = .next t ∧
      t.fv (JLK_ROUTE_DATA (reqIx q)) JLK_ROUTE_DATA.ENTRY = w % 2 ^ 17 ∧
      s.answered t q cOK [] false ∧
      s.sameRegs t [JLK_ROUTE_CMD (reqIx q), JLK_ROUTE_DATA (reqIx q)] ∧
      t.jdev = s.jdev ∧ t.mem = s.mem) ∧
  (∀ (s : State) (q : Req) (v : Word),
    s.devOpen q 6 = true →
    ∃ t, exec (.jlkRouteWrite q v) s = .next t ∧
      sget (fun _ => 0) (bits v.toNat 0 16) t.jdev.routes = s.fv (JLK_ROUTE_DATA (reqIx q)) JLK_ROUTE_DATA.ENTRY + secEnc 17 (s.fv (JLK_ROUTE_DATA (reqIx q)) JLK_ROUTE_DATA.ENTRY) * 2 ^ 17 ∧
      (∀ k, k ≠ bits v.toNat 0 16 → sget (fun _ => 0) k t.jdev.routes = sget (fun _ => 0) k s.jdev.routes) ∧
      s.answered t q cOK [] false ∧
      s.sameRegs t [JLK_ROUTE_CMD (reqIx q)] ∧
      t.jdev.ranks = s.jdev.ranks ∧ t.mem = s.mem) ∧
  (∀ (s : State) (q : Req) (p : JPort) (v : Word),
    s.devOpen q 6 = true ∧ s.dev.fusedJlk.contains p.val = false ∧ bit v.toNat 0 = true →
    ∃ t, exec (.jlkCntClr q p v) s = .next t ∧
      (∀ k ∈ [JLK_CW p.val, JLK_DOWN p.val, JLK_GRP_ERR p.val, JLK_REPLAY p.val, JLK_RX_CHKERR p.val, JLK_NARROW p.val], t.rd k = 0) ∧
      s.answered t q cOK [] false ∧
      s.sameRegs t ((List.range 22).map fun k => base_jlk p.val + 0x100 + 4 * k) ∧
      t.mem = s.mem ∧ t.jports = s.jports)

/-- Remote writes are sent and landed, fences get a tag and end by answer or time-out, fabric-manager and source-routed records are answered or passed on. A write of the die to a rank over this port is staged as its packet, which completes OK when its last flit has entered the replay buffer; a malformed one answers BAD_ARG; a Down port holds it. A landed write of an instance with landing enabled writes its bytes at base + offset; disabled it is only counted. A fence takes the lowest free place; its answer or time-out completes it with the code and frees the place of the port that its tag names. A DISCOVER record is answered with GLB_ID; a source-routed packet goes on one hop with its header as it came. Rests on: R321, R322, R323, R324, R326. -/
def Obligations.JariskRemoteRequestsAndManagement : Prop :=
  (∀ (s : State) (p : JPort) (r : SlReq) (d : List Byte) (w : Nat),
    jState p.val s ≠ jsDown ∧ rawBad r d = false ∧ reqWay p.val r s = (.to w p.val, s) →
    heldOn (s.jp p.val) chREQ = [] ∧ canStage p.val chREQ (pkFlits d.length) s = true →
    ∃ t, exec (.jlkRawSend p r d) s = .next t ∧
      (t.jp p.val).txReq = (s.jp p.val).txReq ++ [⟨mkPk (rkFaddr w) jkRAW (rkInst w) (d.length - 1) (bits r.addr.toNat 0 35) d s, (r.who.map (·.val)).getD 0, some (ansOf r)⟩] ∧
      t.regs = s.regs ∧ t.mem = s.mem ∧ t.out = s.out ∧ t.cpl = s.cpl) ∧
  (∀ (s : State) (p : JPort) (c : JCur) (a : JAns),
    c.pkt.ans = some a ∧ c.k + 1 = contFlits c.pkt.c →
    ∃ t, txPacket p.val c s = t ∧
      t.2.out = .packet a.sep (0x14 + p.val) pkWR_CPL a.inst a.gen a.tag [cOK] :: s.out ∧
      (t.2.jp p.val).cur = none ∧
      ((t.2.jp p.val).replay.map (·.seq)) = ((s.jp p.val).replay.map (·.seq)) ++ [(s.jp p.val).txSeq] ∧
      t.2.regs = s.regs ∧ t.2.mem = s.mem) ∧
  (∀ (s : State) (p : JPort) (r : SlReq) (d : List Byte),
    jState p.val s = jsDown ∧ s.dev.fusedJlk.contains p.val = false ∧ heldOn (s.jp p.val) chREQ = [] →
    ∃ t, exec (.jlkRawSend p r d) s = .next t ∧
      heldOn (t.jp p.val) chREQ = [.raw r d] ∧
      t = { s with jports := t.jports }) ∧
  (∀ (s : State) (p : JPort) (r : SlReq) (d : List Byte),
    jState p.val s ≠ jsDown ∧ heldOn (s.jp p.val) chREQ = [] ∧ 256 < r.addr.toNat % 256 + d.length →
    exec (.jlkRawSend p r d) s = .next (s.emit (.packet r.sep.toNat (0x14 + p.val) pkWR_CPL ((r.who.map (·.val)).getD 0) r.gen.toNat r.tag.toNat [cBAD_ARG]))) ∧
  (∀ (s : State) (p : JPort) (w0 w1 : Nat) (b : List Byte) (j : InstNo) (a : Nat),
    rxMine p.val 2 jkRAW s = some (w0, w1, b) ∧ bits w0 41 4 = j.val ∧ s.fb (JLK_LAND_EN j.val) JLK_LAND_EN.EN = true ∧ (ownRank j.val s).isSome = true →
    bits w0 46 8 + 1 ≤ b.length ∧ bits w1 0 35 + bits w0 46 8 + 1 ≤ s.fv (JLK_LAND_LEN j.val) JLK_LAND_LEN.LEN * 4096 →
    a = s.fv (JLK_LAND_BASE j.val) JLK_LAND_BASE.BASE * 4096 + bits w1 0 35 ∧ a < 0x2000000000 ∧ s.memOpen (.vf j) a (.wr (b.take (bits w0 46 8 + 1))) = true →
    ∃ t, exec (.jlkRawReceive p) s = .next t ∧
      (∀ i, i < bits w0 46 8 + 1 → modByte (a + i) t = b.getD i 0) ∧
      (∀ x, x < a ∨ a + bits w0 46 8 + 1 ≤ x → modByte x t = modByte x s) ∧
      (t.jp p.val).rxReq = (s.jp p.val).rxReq.tail ∧
      t.mem = s.mem ∧ t.out = s.out ∧
      s.sameRegs t [MEMC_WR_B, MEMC_WR_B + 4]) ∧
  (∀ (s : State) (p : JPort) (w0 w1 : Nat) (b : List Byte),
    rxMine p.val 2 jkRAW s = some (w0, w1, b) ∧ s.fb (JLK_LAND_EN (bits w0 41 4)) JLK_LAND_EN.EN = false →
    ∃ t, exec (.jlkRawReceive p) s = .next t ∧
      t.rd (JLK_RAW_REFUSED p.val) = min (s.rd (JLK_RAW_REFUSED p.val) + 1) (2 ^ 32 - 1) ∧
      (t.jp p.val).rxReq = (s.jp p.val).rxReq.tail ∧
      t.mem = s.mem ∧ t.memc = s.memc ∧ t.out = s.out) ∧
  (∀ (s : State) (p : JPort) (r : SlReq) (w : Nat) (n : Fin 32),
    jState p.val s ≠ jsDown ∧ bit r.addr.toNat 35 = true ∧ reqWay p.val r s = (.to w p.val, s) →
    heldOn (s.jp p.val) chREQ = [] ∧ canStage p.val chREQ 1 s = true →
    sget (fun _ => none) n.val (s.jp p.val).fences = none ∧ (∀ k : Fin 32, k < n → (sget (fun _ => none) k.val (s.jp p.val).fences).isSome = true) →
    ∃ t, exec (.jlkRemoteFence p r) s = .next t ∧
      sget (fun _ => none) n.val (t.jp p.val).fences = some (ansOf r) ∧
      (t.jp p.val).txReq = (s.jp p.val).txReq ++ [⟨mkPk (rkFaddr w) jkRFENCE (rkInst w) 0 (32 * p.val + n.val) [] s, (r.who.map (·.val)).getD 0, none⟩] ∧
      t.regs = s.regs ∧ t.mem = s.mem ∧ t.out = s.out) ∧
  (∀ (s : State) (p q : JPort) (w0 w1 : Nat) (b : List Byte),
    rxMine p.val 2 jkRFENCE s = some (w0, w1, b) ∧ routeTo (bits w0 16 16) (rxPop p.val 2 s) = (some q.val, rxPop p.val 2 s) →
    heldOn (s.jp q.val) chREQ = [] ∧ canStage q.val chREQ 1 s = true →
    ∃ t, exec (.jlkRfenceReceive p) s = .next t ∧
      (t.jp q.val).txReq = (s.jp q.val).txReq ++ [⟨mkPk (bits w0 16 16) jkRFDONE 0 0 (bits w1 0 12) [] s, flowTR, none⟩] ∧
      (t.jp p.val).rxReq = (s.jp p.val).rxReq.tail ∧
      t.regs = s.regs ∧ t.mem = s.mem ∧ t.out = s.out) ∧
  (∀ (s : State) (p k : JPort) (n : Fin 32) (w0 w1 : Nat) (b : List Byte) (a : JAns),
    rxMine p.val 2 jkRFDONE s = some (w0, w1, b) ∧ bits w1 0 12 = 32 * k.val + n.val ∧ sget (fun _ => none) n.val (s.jp k.val).fences = some a →
    ∃ t, exec (.jlkRfdoneReceive p) s = .next t ∧
      t.out = .packet a.sep (0x14 + k.val) pkRD_RSP a.inst a.gen a.tag [bits w1 12 8, 0] :: s.out ∧
      sget (fun _ => none) n.val (t.jp k.val).fences = none ∧
      t.regs = s.regs ∧ t.mem = s.mem) ∧
  (∀ (s : State) (p : JPort) (n : Fin 32) (a : JAns),
    sget (fun _ => none) n.val (s.jp p.val).fences = some a →
    ∃ t, exec (.jlkFenceTimeout p n) s = .next t ∧
      t.out = .packet a.sep (0x14 + p.val) pkRD_RSP a.inst a.gen a.tag [cTIMEOUT, 0] :: s.out ∧
      sget (fun _ => none) n.val (t.jp p.val).fences = none ∧
      t.regs = s.regs ∧ t.mem = s.mem) ∧
  (∀ (s : State) (p q : JPort) (w0 w1 : Nat) (b : List Byte),
    rxMine p.val 0 jkFM s = some (w0, w1, b) ∧ s.fb (JLK_CTRL p.val) JLK_CTRL.FM_EN = true ∧ b.length = 16 ∧ fmOk b = true ∧ bits (imgW b 0) 0 2 = 3 →
    routeTo (bits w0 16 16) (rxPop p.val 0 s) = (some q.val, rxPop p.val 0 s) →
    q ≠ p ∧ (s.jp q.val).txMgt = [] ∧ heldOn (s.jp q.val) chMGT = [] ∧ canStage q.val chMGT 1 s = true →
    ∃ t, exec (.fmReceive p) s = .next t ∧
      (t.jp q.val).txMgt = [⟨mkPk (bits w0 16 16) jkFM 0 0 0 (fmRecord 2 (bits (imgW b 0) 2 12) cOK (s.rd GLB_ID) (myFaddr s + p.val * 2 ^ 16)) s, flowTR, none⟩] ∧
      t.regs = s.regs ∧ t.mem = s.mem ∧ t.out = s.out) ∧
  (∀ (s : State) (p : JPort) (w0 w1 : Nat) (b : List Byte),
    rxMine p.val 0 jkFM s = some (w0, w1, b) ∧ s.fb (JLK_CTRL p.val) JLK_CTRL.FM_EN = false →
    ∃ t, exec (.fmReceive p) s = .next t ∧
      t.rd (JLK_RX_BAD p.val) = min (s.rd (JLK_RX_BAD p.val) + 1) (2 ^ 32 - 1) ∧
      (t.jp p.val).rxMgt = (s.jp p.val).rxMgt.tail ∧
      t.mem = s.mem ∧ t.out = s.out ∧ t.cpl = s.cpl) ∧
  (∀ (s : State) (p q : JPort) (w0 w1 : Nat) (b : List Byte),
    rxMine p.val 0 jkSRM s = some (w0, w1, b) ∧ s.fb (JLK_CTRL p.val) JLK_CTRL.FM_EN = true ∧ 32 ≤ b.length ∧ pkFlits b.length = 1 →
    bits (imgW b 0) 0 4 = 2 ∧ bits (imgW b 0) 4 4 = 0 ∧ bits (imgW b 0) 8 4 = q.val ∧ s.dev.fusedJlk.contains q.val = false →
    q ≠ p ∧ (s.jp q.val).txMgt = [] ∧ heldOn (s.jp q.val) chMGT = [] ∧ canStage q.val chMGT 1 s = true →
    ∃ t, exec (.srmReceive p) s = .next t ∧
      (t.jp p.val).rxMgt = (s.jp p.val).rxMgt.tail ∧
      (t.jp q.val).txMgt = [⟨.pk w0 w1 (leBytes 8 (setBits (imgW b 0 + imgW b 4 * 2 ^ 32) 4 4 1) ++ leBytes 8 (setBits (imgW b 8 + imgW b 12 * 2 ^ 32) 8 4 p.val) ++ b.drop 16), flowTR, none⟩] ∧
      t.regs = s.regs ∧ t.mem = s.mem ∧ t.out = s.out)

/-- A sync record reaches the root, a late rollback is answered and counted, quenches set and end, a Down port reroutes and leaves for Dark. A GATHER record for a core of another instance is counted there, one with a bad check is counted. A rollback time-out counts the ranks that did not answer and answers the root. A QUENCH of an instance is in force until its release or lease end. A notice of a link down takes the local port that faces it Down. After the wait the replay buffer is empty and rerouted, then staging is empty and the port Dark, or Off when disabled. Rests on: R318, R319, R320, R325, R326, R327. -/
def Obligations.JariskSyncQuenchAndReroute : Prop :=
  (∀ (s : State) (p : JPort) (w0 w1 i n a c : Nat) (b : List Byte),
    rxMine p.val 0 jkSYNC s = some (w0, w1, b) →
    syncRecv (leNat (b.take 8)) (leNat ((b.drop 8).take 8)) s = (some (0xB, i, n, a), s) →
    ownRank (bits w0 41 4) s = some (bits n 18 12) ∧ s.pcidOf (bits n 0 18 / 64) = some c ∧ qInst c s ≠ some (bits w0 41 4) →
    ∃ t, exec (.jlkSyncReceive p) s = .next t ∧
      t.rd (Q_INST_ERR c) = min (s.rd (Q_INST_ERR c) + 1) (2 ^ 32 - 1) ∧
      (t.jp p.val).rxMgt = (s.jp p.val).rxMgt.tail ∧
      s.sameRegs t [Q_INST_ERR c] ∧ t.mem = s.mem ∧ t.out = s.out) ∧
  (∀ (s : State) (p : JPort) (w0 w1 : Nat) (b : List Byte),
    rxMine p.val 0 jkSYNC s = some (w0, w1, b) →
    (secDec 120 (leNat (b.take 8) % 2 ^ 56 + leNat ((b.drop 8).take 8) % 2 ^ 64 * 2 ^ 56) (bits (leNat (b.take 8)) 56 8)).1 = none →
    ∃ t, exec (.jlkSyncReceive p) s = .next t ∧
      t.rd DNET_SYNC_UE = min (s.rd DNET_SYNC_UE + 1) (2 ^ 32 - 1) ∧
      (t.jp p.val).rxMgt = (s.jp p.val).rxMgt.tail ∧
      t.out = s.out ∧ t.mem = s.mem) ∧
  (∀ (s : State) (p : JPort) (j : InstNo) (t0 scl : Nat) (l : List Nat),
    (s.jp p.val).rbkOut = [(j.val, t0, scl, l)] ∧ (s.cluster scl).rewind = none →
    ∃ t, exec (.jlkRbkTimeout p j) s = .next t ∧
      t.rd (JLK_RBK_TMO p.val) = min (s.rd (JLK_RBK_TMO p.val) + l.length) (2 ^ 32 - 1) ∧
      (t.jp p.val).rbkOut = [] ∧
      t.out = .sync (0x14 + p.val) (syncWords 8 j.val t0 (rbkArg false 0 scl)).1 (syncWords 8 j.val t0 (rbkArg false 0 scl)).2 :: s.out ∧
      t.mem = s.mem ∧ t.cpl = s.cpl) ∧
  (∀ (s : State) (p : JPort) (w0 w1 : Nat) (b : List Byte),
    rxMine p.val 0 jkQUENCH s = some (w0, w1, b) ∧ s.fb (JLK_CTRL p.val) JLK_CTRL.FM_EN = true ∧ bits (leNat (b.take 4)) 16 2 = 0 → (∀ k : JPort, (s.jp k.val).held = []) →
    ∃ t, exec (.quenchReceive p) s = .next t ∧
      sget (fun _ => (0, 0)) (bits w0 41 4) t.jdev.qInst = (1 + bits (leNat (b.take 4)) 18 1, leNat ((b.drop 4).take 2)) ∧
      t.jdev.qTgt = s.jdev.qTgt ∧ t.mem = s.mem) ∧
  (∀ (s : State) (j : InstNo) (v l : Nat),
    sget (fun _ => (0, 0)) j.val s.jdev.qInst = (v, l) ∧ v ≠ 0 ∧ l ≠ 0 → (∀ k : JPort, (s.jp k.val).held = []) →
    ∃ t, exec (.quenchLeaseExpire none j) s = .next t ∧
      sget (fun _ => (0, 0)) j.val t.jdev.qInst = (0, 0) ∧
      t.jdev.qTgt = s.jdev.qTgt ∧ t.mem = s.mem) ∧
  (∀ (s : State) (a : BitVec 16) (j : InstNo),
    s.jdev.qTgt.any (fun y => y.1 == a.toNat && y.2.2 != 0) = true → (∀ k : JPort, (s.jp k.val).held = []) →
    ∃ t, exec (.quenchLeaseExpire (some a) j) s = .next t ∧
      t.jdev.qTgt = s.jdev.qTgt.filter (fun y => y.1 != a.toNat) ∧
      t.jdev.qInst = s.jdev.qInst ∧ t.mem = s.mem) ∧
  (∀ (s : State) (p q : JPort) (w0 w1 : Nat) (b : List Byte),
    rxMine p.val 0 jkLDN s = some (w0, w1, b) ∧ jState q.val s = jsUp →
    s.fb (JLK_PEER q.val) JLK_PEER.VALID = true ∧ s.fv (JLK_PEER q.val) JLK_PEER.FADDR = bits w0 16 16 ∧ s.fv (JLK_PEER q.val) JLK_PEER.PORT = bits (leNat (b.take 2)) 12 4 →
    (∀ k : JPort, k < q → (s.fb (JLK_PEER k.val) JLK_PEER.VALID && s.fv (JLK_PEER k.val) JLK_PEER.FADDR == bits w0 16 16 && s.fv (JLK_PEER k.val) JLK_PEER.PORT == bits (leNat (b.take 2)) 12 4) = false) →
    ∃ t, exec (.jlkLdnReceive p) s = .next t ∧
      jState q.val t = jsDown ∧ (t.jp q.val).replay = [] ∧ (t.jp q.val).rerouted = true ∧
      t.rd (JLK_DOWN q.val) = min (s.rd (JLK_DOWN q.val) + 1) (2 ^ 32 - 1) ∧
      t.mem = s.mem ∧ t.cpl = s.cpl) ∧
  (∀ (s : State) (p : JPort),
    jState p.val s = jsDown ∧ (s.jp p.val).rerouted = false →
    ∃ t, exec (.rerouteWaitTimeout p) s = .next t ∧
      (t.jp p.val).replay = [] ∧ (t.jp p.val).rerouted = true ∧ jState p.val t = jsDown ∧
      t.mem = s.mem ∧ t.cpl = s.cpl) ∧
  (∀ (s : State) (p : JPort),
    jState p.val s = jsDown ∧ (s.jp p.val).rerouted = true ∧ (s.jp p.val).held = [] →
    ∃ t, exec (.rerouteComplete p) s = .next t ∧
      jState p.val t = (if s.fb (JLK_CTRL p.val) JLK_CTRL.EN then jsDark else jsOff) ∧
      (t.jp p.val).evStage = [] ∧ (t.jp p.val).evOut = [] ∧ (t.jp p.val).txReq = [] ∧ (t.jp p.val).txMgt = [] ∧
      t.fb (JLK_STATUS p.val) JLK_STATUS.REROUTING = false ∧ t.fv (JLK_STATUS p.val) JLK_STATUS.WIDTH = 0 ∧
      t.mem = s.mem ∧ t.cpl = s.cpl)

/-- BAR2 reaches module memory, a good ring configuration starts empty, doorbells move or are counted, the timer signals, ring entries become events. A BAR2 access of the physical function within one 64-byte block of open module memory performs it; one of a function whose interface is in error is refused and recorded. A good CFG write with EN = 1 enables the ring with both indexes 0. A good doorbell moves the host index; one of another size or value is counted. The moderation timer signals the vector. A sound entry of an EV ring is injected with the open step and the device index moves; an entry of a reserved type is counted and passed. Rests on: R334, R338, R339, R340, R341, R364. -/
def Obligations.HostAccessesRingsAndIngress : Prop :=
  (∀ (s : State) (x : BitVec 39) (d : List Byte),
    bar2Log 0 s = 39 ∧ s.devState ≠ dsStandby ∧ s.devState ≠ dsBringup →
    d ≠ [] ∧ x.toNat % 64 + d.length ≤ 64 ∧ x.toNat < 0x2000000000 ∧ s.memOpen .pf x.toNat (.wr d) = true →
    ∃ t, exec (.bar2Tlp 0 x (.wr d) 0) s = .next t ∧
      (∀ k, k < d.length → modByte (x.toNat + k) t = d.getD k 0) ∧
      (∀ b, b < x.toNat ∨ x.toNat + d.length ≤ b → modByte b t = modByte b s) ∧
      t.mem = s.mem ∧ t.cpl = s.cpl ∧ t.out = s.out ∧
      s.sameRegs t [MEMC_WR_B, MEMC_WR_B + 4]) ∧
  (∀ (s : State) (x : BitVec 39) (n : Nat),
    bar2Log 0 s = 39 ∧ s.devState ≠ dsStandby ∧ s.devState ≠ dsBringup →
    n ≠ 0 ∧ x.toNat % 64 + n ≤ 64 ∧ x.toNat < 0x2000000000 ∧ s.memOpen .pf x.toNat (.rd n) = true →
    ∃ t, exec (.bar2Tlp 0 x (.rd n) 0) s = .next t ∧
      s.answered t .pf cOK ((modRead x.toNat n s).map (·.toNat)) false ∧
      t.mem = s.mem ∧ t.memc = s.memc ∧ t.out = s.out) ∧
  (∀ (s : State) (f : Fin 17) (x : BitVec 39) (n : Nat) (link : Fin 3),
    f ≠ 0 ∧ s.tdiErr f.val = true ∧ 0 < n ∧ x.toNat + n ≤ 2 ^ bar2Log f.val s →
    ∃ t, exec (.bar2Tlp f x (.rd n) link) s = .next t ∧
      t.fv (HOST_FN_STAT f.val) HOST_FN_STAT.LAST_MCODE = cREFUSED ∧
      s.answered t (fnReq f) cOK (List.replicate n 0) false ∧
      t.mem = s.mem ∧ t.memc = s.memc) ∧
  (∀ (s : State) (q : Req) (f : Fin 17) (k : Fin 8) (v : Word),
    s.fnOpen q f.val = true ∧ s.fb (RING_CFG f.val k.val) RING_CFG.EN = false ∧ (s.ring (8 * f.val + k.val)).pend = [] →
    1 ≤ bits v.toNat 1 3 ∧ bits v.toNat 1 3 ≤ 4 ∧ 6 ≤ bits v.toNat 4 5 ∧ bits v.toNat 4 5 ≤ 16 ∧ s.rd64 (RING_BASE f.val k.val) % 4096 = 0 ∧ bits v.toNat 16 6 ≤ 5 →
    ∃ t, exec (.ringEnable q f k v) s = .next t ∧
      t.fv (RING_CFG f.val k.val) RING_CFG.EN = 1 ∧ t.fv (RING_CFG f.val k.val) RING_CFG.TYPE = bits v.toNat 1 3 ∧ t.fv (RING_CFG f.val k.val) RING_CFG.LOG2SZ = bits v.toNat 4 5 ∧
      t.rd (RING_DIDX f.val k.val) = 0 ∧ t.rd (RING_HIDX f.val k.val) = 0 ∧
      s.answered t q cOK [] false ∧
      s.sameRegs t [RING_CFG f.val k.val, RING_DIDX f.val k.val, RING_HIDX f.val k.val] ∧
      t.mem = s.mem ∧ t.out = s.out) ∧
  (∀ (s : State) (f : Fin 17) (k : Fin 8) (v : Word),
    s.tdiErr f.val = false ∧ s.fv (RING_CFG f.val k.val) RING_CFG.TYPE = tyEV →
    (v.toNat + 2 ^ 32 - s.rd (RING_HIDX f.val k.val)) % 2 ^ 32 ≤ rgSize (8 * f.val + k.val) s ∧ (v.toNat + 2 ^ 32 - s.rd (RING_DIDX f.val k.val)) % 2 ^ 32 ≤ rgSize (8 * f.val + k.val) s →
    ∃ t, exec (.hostDoorbell f k 4 v) s = .next t ∧
      t.rd (RING_HIDX f.val k.val) = v.toNat ∧
      t = s.wr (RING_HIDX f.val k.val) v.toNat) ∧
  (∀ (s : State) (f : Fin 17) (k : Fin 8) (v : Word),
    s.tdiErr f.val = false ∧ rgSize (8 * f.val + k.val) s < (v.toNat + 2 ^ 32 - s.rd (RING_HIDX f.val k.val)) % 2 ^ 32 →
    ∃ t, exec (.hostDoorbell f k 4 v) s = .next t ∧
      t.fv (HOST_DB_ERR f.val) HOST_DB_ERR.DB = min (s.fv (HOST_DB_ERR f.val) HOST_DB_ERR.DB + 1) 65535 ∧
      t.fv (HOST_FN_STAT f.val) HOST_FN_STAT.DBERR = 1 ∧
      s.sameRegs t [HOST_DB_ERR f.val, HOST_FN_STAT f.val] ∧
      t = { s with regs := t.regs }) ∧
  (∀ (s : State) (f : Fin 17) (k : Fin 8),
    (s.ring (8 * f.val + k.val)).unsig ≠ 0 ∧ s.fv (RING_MOD f.val k.val) RING_MOD.CNT ≠ 0 ∧ s.fv (RING_MOD f.val k.val) RING_MOD.US ≠ 0 →
    ∃ t, exec (.ringModTimer f k) s = .next t ∧
      t.out = .msix f.val (s.fv (RING_CFG f.val k.val) RING_CFG.VEC) :: s.out ∧
      (t.ring (8 * f.val + k.val)).unsig = 0 ∧
      t.regs = s.regs ∧ t.mem = s.mem) ∧
  (∀ (s : State) (j : InstNo) (f : Fin 17) (k : Fin 8) (w0 w1 : DWord) (e : Nat),
    f.val = j.val + 1 ∧ rgOn (8 * f.val + k.val) tyEV s = true ∧ s.rd (RING_DIDX f.val k.val) ≠ s.rd (RING_HIDX f.val k.val) ∧ (s.ring (8 * f.val + k.val)).wait = none ∧ resetting j.val s = false →
    s.fv (STEP_STATUS j.val) STEP_STATUS.STATE = 1 ∧ bits w1.toNat 1 2 = 1 ∧ (bits w0.toNat 60 4 < 2 ∨ bits w0.toNat 60 4 = 3) →
    e = setBits w0.toNat 22 6 (evtChk w0.toNat) ∧ s.fb (DNET_BLK (bits e 48 12 / 16)) DNET_BLK.VALID = true ∧ s.fb (DNET_BLK (bits e 48 12 / 16)) DNET_BLK.IVAL = true ∧ s.fv (DNET_BLK (bits e 48 12 / 16)) DNET_BLK.INST = j.val →
    sget (fun _ => []) (epPort 12) s.net.edge = [] ∧ s.net.outs = [] →
    ∃ t, exec (.hostEvEntry f k w0 w1) s = .next t ∧
      t.out = .hostWrite f.val (s.rd64 (RING_IDXADDR f.val k.val)) (leBytes 16 ((s.rd (RING_DIDX f.val k.val) + 1) % 2 ^ 32)) :: evFlit (epPort 12) (evtHdr (epCluster (s.fv (DNET_BLK (bits e 48 12 / 16)) DNET_BLK.CLNUM)) (epPort 12) j.val (b2n ((evtChk w0.toNat).testBit 6)) (s.fv (STEP_CUR j.val) STEP_CUR.STEP % 32) 0 true (s.fv (JLK_OWNRANK j.val) JLK_OWNRANK.RANK)) e :: s.out ∧
      (t.inst j.val).injected = (s.inst j.val).injected + (if bits w0.toNat 60 4 < 2 then 1 else 0) ∧
      t.rd (RING_DIDX f.val k.val) = (s.rd (RING_DIDX f.val k.val) + 1) % 2 ^ 32 ∧
      s.sameRegs t [RING_DIDX f.val k.val] ∧
      t.mem = s.mem) ∧
  (∀ (s : State) (j : InstNo) (f : Fin 17) (k : Fin 8) (w0 w1 : Nat),
    f.val = j.val + 1 ∧ rgOn (8 * f.val + k.val) tyEV s = true ∧ (s.ring (8 * f.val + k.val)).wait = some (w0, w1) ∧ resetting j.val s = false →
    s.fv (STEP_STATUS j.val) STEP_STATUS.STATE = 1 ∧ bit w1 2 = false ∧ 5 ≤ bits w0 60 4 →
    ∃ t, exec (.hostEvRingResume f k) s = .next t ∧
      t.rd (HOST_EV_BAD f.val) = min (s.rd (HOST_EV_BAD f.val) + 1) (2 ^ 32 - 1) ∧
      (t.ring (8 * f.val + k.val)).wait = none ∧
      t.rd (RING_DIDX f.val k.val) = (s.rd (RING_DIDX f.val k.val) + 1) % 2 ^ 32 ∧
      s.sameRegs t [RING_DIDX f.val k.val, HOST_EV_BAD f.val]) ∧
  (∀ (s : State) (j : InstNo) (f : Fin 17) (k : Fin 8) (w0 w1 : Nat) (e : Nat),
    f.val = j.val + 1 ∧ rgOn (8 * f.val + k.val) tyEV s = true ∧ (s.ring (8 * f.val + k.val)).wait = some (w0, w1) ∧ resetting j.val s = false →
    s.fv (STEP_STATUS j.val) STEP_STATUS.STATE = 1 ∧ bits w1 1 2 = 1 ∧ bits w0 60 4 < 2 ∧ w0 < 2 ^ 64 →
    e = setBits w0 22 6 (evtChk w0) ∧ s.fb (DNET_BLK (bits e 48 12 / 16)) DNET_BLK.VALID = true ∧ s.fb (DNET_BLK (bits e 48 12 / 16)) DNET_BLK.IVAL = true ∧ s.fv (DNET_BLK (bits e 48 12 / 16)) DNET_BLK.INST = j.val →
    sget (fun _ => []) (epPort 12) s.net.edge = [] ∧ s.net.outs = [] →
    ∃ t, exec (.hostEvRingResume f k) s = .next t ∧
      t.out = .hostWrite f.val (s.rd64 (RING_IDXADDR f.val k.val)) (leBytes 16 ((s.rd (RING_DIDX f.val k.val) + 1) % 2 ^ 32)) :: evFlit (epPort 12) (evtHdr (epCluster (s.fv (DNET_BLK (bits e 48 12 / 16)) DNET_BLK.CLNUM)) (epPort 12) j.val (b2n ((evtChk w0).testBit 6)) (s.fv (STEP_CUR j.val) STEP_CUR.STEP % 32) 0 true (s.fv (JLK_OWNRANK j.val) JLK_OWNRANK.RANK)) e :: s.out ∧
      (t.inst j.val).injected = (s.inst j.val).injected + 1 ∧
      (t.ring (8 * f.val + k.val)).wait = none ∧
      s.sameRegs t [RING_DIDX f.val k.val]) ∧
  (∀ (s : State) (q : Req) (v : Word),
    s.devOpen q 6 = true ∧ bit v.toNat 0 = true →
    ∃ t, exec (.hostCntClr q v) s = .next t ∧
      (∀ f : Fin 17, t.rd (HOST_EV_BAD f.val) = 0 ∧ t.rd (HOST_EV_LATE f.val) = 0 ∧ t.rd (HOST_EGR_DROP f.val) = 0 ∧ t.rd (HOST_DB_ERR f.val) = 0) ∧
      s.answered t q cOK [] false ∧
      t.mem = s.mem ∧ t.host = s.host)

/-- A binding routes its rank to the port, an event at an egress port is staged, dropped or held, a closed committed step is released in order, a datagram is sent. A good host binding with VALID stores its fields and maps the instance's rank to the host port. An arriving event of a live instance below its limit joins the staging of its port and counts as delivered; at the limit it is dropped and counted, or held when HOLD is set. The oldest closed, committed step whose presentation time has come goes to its ring as one entry for each event and an index write. An open datagram is sent when its flush time has passed. Rests on: R342, R343, R344, R355, R356. -/
def Obligations.EgressIsBoundStagedAndReleased : Prop :=
  (∀ (s : State) (q : Req) (j : InstNo) (v : Word),
    s.instOpen q j.val = true ∧ isVf q = false ∧ bits v.toNat 16 8 ≠ 0 ∧ (otherKeys (some j.val) none s).contains (4096 * j.val + bits v.toNat 0 12) = false ∧ s.egrHeld 0 = [] →
    ∃ t, exec (.egressBind q (.host j) v) s = .next t ∧
      t.fv (HOST_EGR j.val) HOST_EGR.VALID = 1 ∧ t.fv (HOST_EGR j.val) HOST_EGR.RANK = bits v.toNat 0 12 ∧ t.fv (HOST_EGR j.val) HOST_EGR.RING = bits v.toNat 12 3 ∧ t.fv (HOST_EGR j.val) HOST_EGR.MAXK = bits v.toNat 16 8 ∧
      sget (fun _ => 15) (4096 * j.val + bits v.toNat 0 12) t.dev.rankMap = 12 ∧
      s.answered t q cOK [] false ∧
      s.sameRegs t [HOST_EGR j.val, SEC_INST j.val] ∧
      t.mem = s.mem ∧ t.out = s.out) ∧
  (∀ (s : State) (e : Fin 3) (x : EvtIn),
    s.egrHeld e.val = [] ∧ resetting x.inst.toNat s = false ∧ egrHolds e.val x.inst.toNat s < egrLimit e.val x.inst.toNat s ∧ (s.stage 0).length < 65536 →
    ∃ t, exec (.egressEventArrive e x) s = .next t ∧
      t.stage e.val = s.stage e.val ++ [⟨x.inst.toNat, bits x.ev.toNat 32 16, bits x.ev.toNat 0 22, bits x.ev.toNat 60 4 == 1, bits x.ev.toNat 48 12, x.sstep5.toNat, x.scl.toNat⟩] ∧
      (t.inst x.inst.toNat).delivered = (s.inst x.inst.toNat).delivered + 1 ∧
      t.regs = s.regs ∧ t.mem = s.mem ∧ t.out = s.out) ∧
  (∀ (s : State) (e : Fin 3) (x : EvtIn),
    s.egrHeld e.val = [] ∧ resetting x.inst.toNat s = false ∧ egrLimit e.val x.inst.toNat s ≤ egrHolds e.val x.inst.toNat s ∧ s.fb (HOST_EGR x.inst.toNat) HOST_EGR.HOLD = false →
    ∃ t, exec (.egressEventArrive e x) s = .next t ∧
      t.rd (egrDrop e.val x.inst.toNat s) = min (s.rd (egrDrop e.val x.inst.toNat s) + 1) (2 ^ 32 - 1) ∧
      (t.inst x.inst.toNat).delivered = (s.inst x.inst.toNat).delivered + 1 ∧
      t.host = s.host ∧ t.mem = s.mem ∧ t.out = s.out) ∧
  (∀ (s : State) (e : Fin 3) (x : EvtIn),
    s.egrHeld e.val = [] ∧ resetting x.inst.toNat s = false ∧ egrLimit e.val x.inst.toNat s ≤ egrHolds e.val x.inst.toNat s ∧ s.fb (HOST_EGR x.inst.toNat) HOST_EGR.HOLD = true →
    ∃ t, exec (.egressEventArrive e x) s = .next t ∧
      t = s.setEgrHeld e.val [x]) ∧
  (∀ (s : State) (j : InstNo) (n e c : Nat) (l : List (Nat × Nat)) (x : EgrEnt),
    (s.inst j.val).closeT = (n, e) :: l ∧ (s.inst j.val).committed = some c ∧ n ≤ c ∧ presentT2 j.val n s ≤ 2 * s.now + 1 →
    s.stage 0 = [x] ∧ x.inst = j.val ∧ x.sstep5 = n % 32 ∧ x.scl < 64 ∧ s.stage 1 = [] ∧ s.stage 2 = [] ∧ (s.inst j.val).late.contains n = false ∧ ∀ k : Fin 3, s.egrHeld k.val = [] →
    rgOn (egrRing j.val s) tyER s = true ∧ (s.ring (egrRing j.val s)).pend = [] ∧ s.fb (rgCfg (egrRing j.val s)) RING_CFG.MARK = false ∧ s.fv (RING_MOD (egrRing j.val s / 8) (egrRing j.val s % 8)) RING_MOD.CNT = 0 →
    s.rd (rgD (egrRing j.val s)) = s.rd (rgH (egrRing j.val s)) ∧ boundPorts j.val s = [] ∧ egrWord x < 2 ^ 52 →
    ∃ t, exec (.egressRelease j) s = .next t ∧
      t.stage 0 = [] ∧ (t.inst j.val).closeT = serase n ((n, e) :: l) ∧
      t.rd (rgD (egrRing j.val s)) = (s.rd (rgD (egrRing j.val s)) + 1) % 2 ^ 32 ∧
      t.out.length = s.out.length + 2 ∧
      t.out.drop 1 = .hostWrite (egrRing j.val s / 8) (s.rd64 (RING_BASE (egrRing j.val s / 8) (egrRing j.val s % 8)) + 16 * (s.rd (rgD (egrRing j.val s)) % rgSize (egrRing j.val s) s)) (leBytes 8 ((egrWord x + j.val * 2 ^ 52 + x.scl * 2 ^ 56) % 2 ^ 63 + b2n (s.rd (rgD (egrRing j.val s)) / rgSize (egrRing j.val s) s % 2 == 0) * 2 ^ 63) ++ leBytes 8 n) :: s.out ∧
      t.mem = s.mem) ∧
  (∀ (s : State) (p : EPort),
    s.fv (ETH_EGR p.val) ETH_EGR.FLUSH = 1 ∧ (s.eth p.val).recs ≠ [] ∧ (s.eth p.val).dgrams = [] ∧ ethCanSend p.val s = true →
    ∃ t, exec (.datagramFlushTimeout p) s = .next t ∧
      t.out = .frame p.val (dgram p.val (s.eth p.val).recs s) :: s.out ∧
      (t.eth p.val).recs = [] ∧ (t.eth p.val).dgrams = [] ∧ (t.eth p.val).seq = ((s.eth p.val).seq + 1) % 2 ^ 32 ∧
      t.rd64 (ETH_TX_DGRAM p.val) = (s.rd64 (ETH_TX_DGRAM p.val) + 1) % 2 ^ 64 ∧
      s.sameRegs t [ETH_TX_DGRAM p.val, ETH_TX_DGRAM p.val + 4] ∧
      t.mem = s.mem)

/-- Good frames that pass the filter are buffered, bad ones counted, pause follows the buffer and the peer, an enabled encoder turns a matched frame into events. A frame with a good FCS and length whose address passes joins the receive buffer and is counted; a bad FCS is counted alone, a filtered one is counted. Above XOFF a PAUSE goes out. PAUSED follows received quanta, their end and the link. An encoder with a program that passes its checks starts, one that fails answers BAD_ARG with its cause; a matched frame's program emits its events into the network, a frame without an owner's running step is counted and dropped. Rests on: R343, R346, R347, R349, R350, R352, R353, R364. -/
def Obligations.EthernetPortsReceiveAndEncode : Prop :=
  (∀ (s : State) (p : EPort) (b : List Byte) (ts : DWord),
    s.fb (ETH_CTRL p.val) ETH_CTRL.EN = true ∧ s.fb (ETH_STATUS p.val) ETH_STATUS.UP = true ∧ 60 ≤ b.length ∧ b.length ≤ 9212 ∧ ethPass p.val b s = true →
    rxLevel p.val s + b.length ≤ s.fv (ETH_PAUSE p.val) ETH_PAUSE.XOFF * 1024 ∧ rxLevel p.val s + b.length ≤ 524288 ∧ (s.eth p.val).xoff = false ∧ s.fv TIME_CTRL TIME_CTRL.SRC ≠ 1 + p.val →
    ∃ t, exec (.ethFrameReceive p b true ts) s = .next t ∧
      (t.eth p.val).rx = (s.eth p.val).rx ++ [(b, ts.toNat)] ∧
      t.rd64 (ETH_RX_FRAMES p.val) = (s.rd64 (ETH_RX_FRAMES p.val) + 1) % 2 ^ 64 ∧
      s.sameRegs t [ETH_RX_FRAMES p.val, ETH_RX_FRAMES p.val + 4] ∧
      t.out = s.out ∧ t.mem = s.mem) ∧
  (∀ (s : State) (p : EPort) (b : List Byte) (ts : DWord),
    s.fb (ETH_CTRL p.val) ETH_CTRL.EN = true ∧ s.fb (ETH_STATUS p.val) ETH_STATUS.UP = true →
    ∃ t, exec (.ethFrameReceive p b false ts) s = .next t ∧
      t = s.inc (ETH_RX_FCS p.val) 1) ∧
  (∀ (s : State) (p : EPort) (b : List Byte) (ts : DWord),
    s.fb (ETH_CTRL p.val) ETH_CTRL.EN = true ∧ s.fb (ETH_STATUS p.val) ETH_STATUS.UP = true ∧ 60 ≤ b.length ∧ b.length ≤ 9212 ∧ ethPass p.val b s = false →
    ∃ t, exec (.ethFrameReceive p b true ts) s = .next t ∧
      (t.eth p.val).rx = (s.eth p.val).rx ∧
      t.rd (ETH_RX_FILT p.val) = min (s.rd (ETH_RX_FILT p.val) + 1) (2 ^ 32 - 1) ∧
      t.mem = s.mem) ∧
  (∀ (s : State) (p : EPort) (b : List Byte) (ts : DWord),
    s.fb (ETH_CTRL p.val) ETH_CTRL.EN = true ∧ s.fb (ETH_STATUS p.val) ETH_STATUS.UP = true ∧ 60 ≤ b.length ∧ b.length ≤ 9212 ∧ ethPass p.val b s = true →
    s.fv (ETH_PAUSE p.val) ETH_PAUSE.XOFF * 1024 < rxLevel p.val s + b.length ∧ rxLevel p.val s + b.length ≤ 524288 ∧ (s.eth p.val).xoff = false ∧ s.fb (ETH_CTRL p.val) ETH_CTRL.PTX = true →
    ∃ t, exec (.ethFrameReceive p b true ts) s = .next t ∧
      t.out.head? = some (.pause p.val 0xFFFF) ∧
      (t.eth p.val).xoff = true ∧ (t.eth p.val).rx = (s.eth p.val).rx ++ [(b, ts.toNat)] ∧
      t.rd (ETH_PAUSE_TX p.val) = min (s.rd (ETH_PAUSE_TX p.val) + 1) (2 ^ 32 - 1)) ∧
  (∀ (s : State) (p : EPort) (n : BitVec 16),
    s.fb (ETH_CTRL p.val) ETH_CTRL.EN = true ∧ s.fb (ETH_CTRL p.val) ETH_CTRL.PRX = true ∧ n ≠ 0 →
    ∃ t, exec (.ethPauseReceive p n) s = .next t ∧
      t.fv (ETH_STATUS p.val) ETH_STATUS.PAUSED = 1 ∧
      t = s.fs (ETH_STATUS p.val) ETH_STATUS.PAUSED 1) ∧
  (∀ (s : State) (p : EPort),
    (s.eth p.val).dgrams = [] →
    ∃ t, exec (.pauseQuantaExpire p) s = .next t ∧
      t.fv (ETH_STATUS p.val) ETH_STATUS.PAUSED = 0 ∧
      t = s.fs (ETH_STATUS p.val) ETH_STATUS.PAUSED 0) ∧
  (∀ (s : State) (p : EPort),
    (s.eth p.val).xoff = true ∧ s.fv (ETH_PAUSE p.val) ETH_PAUSE.XON * 1024 ≤ rxLevel p.val s ∧ s.fb (ETH_CTRL p.val) ETH_CTRL.PTX = true →
    ∃ t, exec (.pauseRefresh p) s = .next t ∧
      t.out = .pause p.val 0xFFFF :: s.out ∧
      t.rd (ETH_PAUSE_TX p.val) = min (s.rd (ETH_PAUSE_TX p.val) + 1) (2 ^ 32 - 1) ∧
      s.sameRegs t [ETH_PAUSE_TX p.val] ∧
      t.mem = s.mem ∧ t.host = s.host) ∧
  (∀ (s : State) (p : EPort),
    s.fb (ETH_CTRL p.val) ETH_CTRL.EN = true ∧ sget (fun _ => 0) p.val s.mgmt.cage ≠ 2 ∧ (s.eth p.val).dgrams = [] →
    ∃ t, exec (.ethLinkUp p) s = .next t ∧
      t.fv (ETH_STATUS p.val) ETH_STATUS.UP = 1 ∧ t.fv (ETH_STATUS p.val) ETH_STATUS.PCSLOCK = 1 ∧
      s.sameRegs t [ETH_STATUS p.val] ∧
      t = { s with regs := t.regs }) ∧
  (∀ (s : State) (p : EPort),
    ∃ t, exec (.ethLinkDown p) s = .next t ∧
      t.fv (ETH_STATUS p.val) ETH_STATUS.UP = 0 ∧ t.fv (ETH_STATUS p.val) ETH_STATUS.PCSLOCK = 0 ∧
      s.sameRegs t [ETH_STATUS p.val] ∧
      t = { s with regs := t.regs }) ∧
  (∀ (s : State) (p : EPort) (b : List Byte) (ts : Nat) (l : List (List Byte × Nat)),
    (s.eth p.val).rx = (b, ts) :: l ∧ s.fb (ETH_OWN p.val) ETH_OWN.VALID = false ∧ (s.eth p.val).xoff = false ∧ s.fb (ETH_CTRL p.val) ETH_CTRL.PTX = false →
    ∃ t, exec (.encoderRun p) s = .next t ∧
      (t.eth p.val).rx = l ∧
      t.rd (ETH_RX_STOPPED p.val) = min (s.rd (ETH_RX_STOPPED p.val) + 1) (2 ^ 32 - 1) ∧
      t.out = s.out ∧ t.mem = s.mem) ∧
  (∀ (s : State) (p : EPort) (b : List Byte) (ts : Nat) (l : List (List Byte × Nat)) (j e : Nat) (xs : List Nat) (x : EncSt),
    (s.eth p.val).rx = (b, ts) :: l ∧ s.fb (ETH_OWN p.val) ETH_OWN.VALID = true ∧ j = s.fv (ETH_OWN p.val) ETH_OWN.INST ∧ s.fv (STEP_STATUS j) STEP_STATUS.STATE = 1 ∧ s.fb (ETH_ENC_CTRL p.val) ETH_ENC_CTRL.EN = true ∧ s.fb (ETH_CTRL p.val) ETH_CTRL.PTX = false →
    s.fb (ETH_MATCH p.val 0) ETH_MATCH.EN = true ∧ s.fv (ETH_MATCH p.val 0) ETH_MATCH.MASK = 0 ∧ s.fv (ETH_MATCH p.val 0) ETH_MATCH.VALUE = 0 →
    xs = (List.range 16).map (fun k => (extract p.val k b (frParse b) s).1) ∧ ((List.range 16).any (fun k => (extract p.val k b (frParse b) s).2)) = false →
    x = encRun (fun k => s.rd (ETH_PROG p.val k)) 64 (s.fv (ETH_MATCH p.val 0) ETH_MATCH.START) ⟨xs, List.replicate 8 0, false, [b.length, (frParse b).flags, ts % 2 ^ 32, ts / 2 ^ 32 % 2 ^ 32, p.val], [], false⟩ ∧ x.out = [e] ∧ x.excess = false ∧ e < 2 ^ 65 →
    s.fb (DNET_BLK (bits e 48 12 / 16)) DNET_BLK.VALID = true ∧ s.fb (DNET_BLK (bits e 48 12 / 16)) DNET_BLK.IVAL = true ∧ s.fv (DNET_BLK (bits e 48 12 / 16)) DNET_BLK.INST = j →
    bits e 60 4 ≤ 1 ∧ sget (fun _ => []) (epPort (13 + p.val)) s.net.edge = [] ∧ s.net.outs = [] →
    ∃ t, exec (.encoderRun p) s = .next t ∧
      t.out = evFlit (epPort (13 + p.val)) (evtHdr (epCluster (s.fv (DNET_BLK (bits e 48 12 / 16)) DNET_BLK.CLNUM)) (epPort (13 + p.val)) j (b2n (e.testBit 64)) (s.fv (STEP_CUR j) STEP_CUR.STEP % 32) 0 true (s.fv (JLK_OWNRANK j) JLK_OWNRANK.RANK)) (e % 2 ^ 64) :: s.out ∧
      (t.eth p.val).rx = l ∧ (t.inst j).injected = (s.inst j).injected + 1 ∧
      t.rd64 (ETH_EV_OUT p.val) = (s.rd64 (ETH_EV_OUT p.val) + 1) % 2 ^ 64 ∧
      s.sameRegs t [ETH_EV_OUT p.val, ETH_EV_OUT p.val + 4]) ∧
  (∀ (s : State) (q : Req) (p : EPort) (v : Word),
    s.ethOpen q p.val = true ∧ encCheck p.val s = none →
    ∃ t, exec (.encEnable q p v) s = .next t ∧
      t.fv (ETH_ENC_CTRL p.val) ETH_ENC_CTRL.EN = 1 ∧ t.fv (ETH_ENC_CTRL p.val) ETH_ENC_CTRL.CAUSE = 0 ∧
      s.answered t q cOK [] false ∧
      s.sameRegs t [ETH_ENC_CTRL p.val] ∧
      t.mem = s.mem ∧ t.host = s.host) ∧
  (∀ (s : State) (q : Req) (p : EPort) (v : Word) (m c : Nat),
    s.ethOpen q p.val = true ∧ encCheck p.val s = some (m, c) ∧ m < 4 ∧ c < 8 →
    ∃ t, exec (.encEnable q p v) s = .next t ∧
      t.fv (ETH_ENC_CTRL p.val) ETH_ENC_CTRL.EN = 0 ∧ t.fv (ETH_ENC_CTRL p.val) ETH_ENC_CTRL.CAUSE = c ∧ t.fv (ETH_ENC_CTRL p.val) ETH_ENC_CTRL.MIDX = m ∧
      s.answered t q cBAD_ARG [] false ∧
      s.sameRegs t [ETH_ENC_CTRL p.val, GLB_CFG_ERR (reqIx q)]) ∧
  (∀ (s : State) (q : Req) (p : EPort) (v : Word),
    s.ethOpen q p.val = true ∧ bit v.toNat 0 = true →
    ∃ t, exec (.ethCntClr q p v) s = .next t ∧
      t.rd64 (ETH_RX_FRAMES p.val) = 0 ∧ t.rd (ETH_RX_FCS p.val) = 0 ∧ t.rd (ETH_RX_FILT p.val) = 0 ∧ t.rd64 (ETH_EV_OUT p.val) = 0 ∧ t.rd (ETH_PAUSE_TX p.val) = 0 ∧
      s.answered t q cOK [] false ∧
      t.mem = s.mem ∧ t.host = s.host)

/-- A window write assigns a range of module memory with a new key, a scrub leaves it zero, a descriptor is admitted or answered, a fill writes its pattern. A good write of MEMC_WIN with EN on a closed window stores base and length and gives the window a new key; a scrub that ends leaves every byte of its window 0. A descriptor fetched while engines are free and nothing else waits occupies an engine when it is admitted; one that fails posts its completion. A running fill within one block writes its pattern bytes and no other, and frees its engine. Rests on: R358, R360, R361, R362, R363. -/
def Obligations.ModuleMemoryWindowsAndBulkMoves : Prop :=
  (∀ (s : State) (q : Req) (j : InstNo) (v : Word),
    s.gateOpen q 10 = true ∧ isVf q = false ∧ s.conf j.val = false ∧ resetting j.val s = false ∧ loading j.val s = false ∧ s.dev.srcLock = none →
    s.fb (MEMC_WIN j.val) MEMC_WIN.EN = false ∧ bit v.toNat 31 = true ∧ bits v.toNat 16 10 ≠ 0 ∧ bits v.toNat 0 10 + bits v.toNat 16 10 ≤ 512 →
    (∀ k : InstNo, k ≠ j → s.fb (MEMC_WIN k.val) MEMC_WIN.EN = false) →
    ∃ t, exec (.memcWinWrite q j v) s = .next t ∧
      t.fv (MEMC_WIN j.val) MEMC_WIN.EN = 1 ∧ t.fv (MEMC_WIN j.val) MEMC_WIN.BASE = bits v.toNat 0 10 ∧ t.fv (MEMC_WIN j.val) MEMC_WIN.LEN = bits v.toNat 16 10 ∧
      sget (fun _ => 0) j.val t.memc.keys = s.memc.nextKey ∧ t.memc.nextKey = s.memc.nextKey + 1 ∧ t.memc.cells = s.memc.cells ∧
      s.answered t q cOK [] false ∧
      s.sameRegs t [MEMC_WIN j.val, SEC_INST j.val] ∧
      t.mem = s.mem) ∧
  (∀ (s : State) (q : Req) (j : InstNo) (v : Word),
    s.gateOpen q 10 = true ∧ isVf q = false ∧ s.conf j.val = false ∧ s.fb (MEMC_WIN j.val) MEMC_WIN.EN = true ∧ s.fb (MEMC_SCRUB j.val) MEMC_SCRUB.BUSY = false →
    ∃ t, exec (.memcScrubGo q j v) s = .next t ∧
      t.fv (MEMC_SCRUB j.val) MEMC_SCRUB.BUSY = 1 ∧
      s.answered t q cOK [] false ∧
      s.sameRegs t [MEMC_SCRUB j.val] ∧
      t.memc = s.memc ∧ t.mem = s.mem) ∧
  (∀ (s : State) (j : InstNo),
    s.fb (MEMC_SCRUB j.val) MEMC_SCRUB.BUSY = true →
    ∃ t, exec (.memcScrubDone j) s = .next t ∧
      t.fv (MEMC_SCRUB j.val) MEMC_SCRUB.BUSY = 0 ∧ t.fv (MEMC_SCRUB j.val) MEMC_SCRUB.CODE = cOK ∧
      (∀ a, memWin a s = some j.val → modByte a t = 0) ∧
      s.sameRegs t [MEMC_SCRUB j.val] ∧
      t.mem = s.mem) ∧
  (∀ (s u : State) (j : InstNo) (f : Fin 17) (k : Fin 8) (w : List Word),
    f.val = j.val + 1 ∧ rgOn (8 * f.val + k.val) tyBK s = true ∧ s.rd (RING_DIDX f.val k.val) ≠ s.rd (RING_HIDX f.val k.val) ∧ s.host.jobs.length < 16 →
    s.host.bkq = [] ∧ s.host.bkDfc = [] ∧ 0 < flowWeight j.val s ∧ bit ((w.map (·.toNat)).getD 0 0) 7 = false →
    u = { rgTake (8 * f.val + k.val) s with host := { s.host with bkLast := j.val } } ∧ bkAdmit j (s.gen j.val) (w.map (·.toNat)) u = cOK →
    ∃ t, exec (.bulkDescStart f k w) s = .next t ∧
      t.host.jobs = s.host.jobs ++ [⟨f.val, k.val, j.val, s.gen j.val, w.map (·.toNat)⟩] ∧ t.host.bkq = [] ∧
      t.rd (RING_DIDX f.val k.val) = (s.rd (RING_DIDX f.val k.val) + 1) % 2 ^ 32 ∧
      t.out = .hostWrite f.val (s.rd64 (RING_IDXADDR f.val k.val)) (leBytes 16 ((s.rd (RING_DIDX f.val k.val) + 1) % 2 ^ 32)) :: s.out ∧
      s.sameRegs t [RING_DIDX f.val k.val] ∧
      t.mem = s.mem ∧ t.memc = s.memc) ∧
  (∀ (s u : State) (j : InstNo) (f : Fin 17) (k : Fin 8) (w : List Word) (c : Nat),
    f.val = j.val + 1 ∧ rgOn (8 * f.val + k.val) tyBK s = true ∧ s.rd (RING_DIDX f.val k.val) ≠ s.rd (RING_HIDX f.val k.val) ∧ s.host.jobs.length < 16 →
    s.host.bkq = [] ∧ s.host.bkDfc = [] ∧ 0 < flowWeight j.val s ∧ bit ((w.map (·.toNat)).getD 0 0) 7 = false →
    u = { rgTake (8 * f.val + k.val) s with host := { s.host with bkLast := j.val } } ∧ bkAdmit j (s.gen j.val) (w.map (·.toNat)) u = c ∧ c ≠ cOK →
    rgOn (8 * f.val + s.fv (RING_CFG f.val k.val) RING_CFG.CRING) tyER s = false ∧ rgOn (8 * f.val + s.fv (RING_CFG f.val k.val) RING_CFG.CRING) tyBC s = false →
    ∃ t, exec (.bulkDescStart f k w) s = .next t ∧
      t.host.jobs = s.host.jobs ∧ t.host.bkq = [] ∧
      (t.ring (8 * f.val + s.fv (RING_CFG f.val k.val) RING_CFG.CRING)).pend = (s.ring (8 * f.val + s.fv (RING_CFG f.val k.val) RING_CFG.CRING)).pend ++ [⟨c + j.val * 2 ^ 8 + s.gen j.val * 2 ^ 12 + k.val * 2 ^ 20 + bits ((w.map (·.toNat)).getD 0 0) 16 16 * 2 ^ 32, 0, none⟩] ∧
      t.mem = s.mem ∧ t.memc = s.memc) ∧
  (∀ (s : State) (n : Fin 16) (host : List Byte) (x : BulkJob) (j : InstNo),
    s.host.jobs[n.val]? = some x ∧ s.host.bkq = [] ∧ x.inst = j.val ∧ x.gen = s.gen j.val ∧ bkOp x.words = 2 ∧ bkDevDst x.words = true ∧ bit (x.words.getD 0 0) 6 = false →
    0 < bkLen x.words ∧ bkDst x.words % 256 + bkLen x.words ≤ 256 ∧ bkDst x.words < 0x2000000000 ∧ s.memOpen (.vf j) (bkDst x.words) (.wr (List.replicate (bkLen x.words) 0)) = true →
    ∃ t, exec (.bulkDescComplete n host none 0) s = .next t ∧
      (∀ k, k < bkLen x.words → modByte (bkDst x.words + k) t = BitVec.ofNat 8 (x.words.getD 7 0 / 2 ^ (8 * (k % 4)))) ∧
      (∀ b, b < bkDst x.words ∨ bkDst x.words + bkLen x.words ≤ b → modByte b t = modByte b s) ∧
      t.host.jobs = s.host.jobs.eraseIdx n.val ∧
      t.mem = s.mem ∧ t.out = s.out)

/-- A GO write queues its request; the idle loader serves it: slots empty, instances unload, images are verified, loaded or await their signature. An admitted GO write while the loader works joins the queue in arrival order with QUEUED set and answers OK. The idle loader serves at once: ERASE empties the slot, UNLOAD of a stopped instance leaves it Empty without blocks, VERIFY of a good unsigned image ends OK and changes no other register, LOAD of a good unsigned full image for an instance without blocks leaves the instance loading, its sections to follow, and when the last is done it is Loaded with the image's PID, STORE of a good signed image waits for the thimble; a bad header fails CHECK_FAIL with cause 0x01. Rests on: R373, R374, R377, R378, R382, R384, R465. -/
def Obligations.PatternRequestsAreQueuedAndServed : Prop :=
  (∀ (s : State) (q : Req) (v : Word),
    s.devOpen q 0 = true ∧ s.devState ≠ dsDraining ∧ s.devState ≠ dsFaultHold ∧ patBusy (patCopy q) s = false →
    s.pat.cur.isSome = true →
    s.rd64 (PAT_SRC (patCopy q)) % 64 = 0 →
    ∃ t, exec (.patLoad q v) s = .next t ∧
      t.pat.queue = s.pat.queue ++ [⟨some (patCopy q), 0, bits v.toNat 4 4, bits v.toNat 8 2, bit v.toNat 10, bit v.toNat 11, s.rd64 (PAT_SRC (patCopy q)), s.rd (PAT_LEN (patCopy q))⟩] ∧
      t.fv (PAT_STAT (patCopy q)) PAT_STAT.QUEUED = 1 ∧
      s.answered t q cOK [] false ∧
      s.sameRegs t [PAT_CTRL (patCopy q), PAT_STAT (patCopy q)] ∧
      t.mem = s.mem ∧ t.memc = s.memc ∧ t.pat.cur = s.pat.cur) ∧
  (∀ (s : State) (q : Req) (v : Word),
    s.devOpen q 0 = true ∧ s.devState ≠ dsDraining ∧ s.devState ≠ dsFaultHold ∧ patBusy (patCopy q) s = false →
    s.pat.cur.isSome = true →
    s.rd64 (PAT_SRC (patCopy q)) % 64 = 0 →
    ∃ t, exec (.patVerify q v) s = .next t ∧
      t.pat.queue = s.pat.queue ++ [⟨some (patCopy q), 1, bits v.toNat 4 4, bits v.toNat 8 2, false, bit v.toNat 11, s.rd64 (PAT_SRC (patCopy q)), s.rd (PAT_LEN (patCopy q))⟩] ∧
      t.fv (PAT_STAT (patCopy q)) PAT_STAT.QUEUED = 1 ∧
      s.answered t q cOK [] false ∧
      s.sameRegs t [PAT_CTRL (patCopy q), PAT_STAT (patCopy q)] ∧
      t.mem = s.mem ∧ t.memc = s.memc ∧ t.pat.cur = s.pat.cur) ∧
  (∀ (s : State) (q : Req) (v : Word),
    s.devOpen q 0 = true ∧ s.devState ≠ dsDraining ∧ s.devState ≠ dsFaultHold ∧ patBusy (patCopy q) s = false →
    s.pat.cur.isSome = true →
    s.rd64 (PAT_SRC (patCopy q)) % 64 = 0 →
    ∃ t, exec (.patStore q v) s = .next t ∧
      t.pat.queue = s.pat.queue ++ [⟨some (patCopy q), 2, bits v.toNat 4 4, bits v.toNat 8 2, false, bit v.toNat 11, s.rd64 (PAT_SRC (patCopy q)), s.rd (PAT_LEN (patCopy q))⟩] ∧
      t.fv (PAT_STAT (patCopy q)) PAT_STAT.QUEUED = 1 ∧
      s.answered t q cOK [] false ∧
      s.sameRegs t [PAT_CTRL (patCopy q), PAT_STAT (patCopy q)] ∧
      t.mem = s.mem ∧ t.memc = s.memc ∧ t.pat.cur = s.pat.cur) ∧
  (∀ (s : State) (q : Req) (v : Word),
    s.devOpen q 0 = true ∧ s.devState ≠ dsDraining ∧ s.devState ≠ dsFaultHold ∧ patBusy (patCopy q) s = false →
    s.pat.cur.isSome = true →
    s.conf (bits v.toNat 4 4) = false →
    ∃ t, exec (.patUnload q v) s = .next t ∧
      t.pat.queue = s.pat.queue ++ [⟨some (patCopy q), 3, bits v.toNat 4 4, bits v.toNat 8 2, false, bit v.toNat 11, s.rd64 (PAT_SRC (patCopy q)), s.rd (PAT_LEN (patCopy q))⟩] ∧
      t.fv (PAT_STAT (patCopy q)) PAT_STAT.QUEUED = 1 ∧
      s.answered t q cOK [] false ∧
      s.sameRegs t [PAT_CTRL (patCopy q), PAT_STAT (patCopy q)] ∧
      t.mem = s.mem ∧ t.memc = s.memc ∧ t.pat.cur = s.pat.cur) ∧
  (∀ (s : State) (q : Req) (v : Word),
    s.devOpen q 0 = true ∧ s.devState ≠ dsDraining ∧ s.devState ≠ dsFaultHold ∧ patBusy (patCopy q) s = false →
    s.pat.cur.isSome = true →
    ∃ t, exec (.patErase q v) s = .next t ∧
      t.pat.queue = s.pat.queue ++ [⟨some (patCopy q), 4, bits v.toNat 4 4, bits v.toNat 8 2, false, bit v.toNat 11, s.rd64 (PAT_SRC (patCopy q)), s.rd (PAT_LEN (patCopy q))⟩] ∧
      t.fv (PAT_STAT (patCopy q)) PAT_STAT.QUEUED = 1 ∧
      s.answered t q cOK [] false ∧
      s.sameRegs t [PAT_CTRL (patCopy q), PAT_STAT (patCopy q)] ∧
      t.mem = s.mem ∧ t.memc = s.memc ∧ t.pat.cur = s.pat.cur) ∧
  (∀ (s : State) (q : Req) (v : Word),
    s.devOpen q 0 = true ∧ s.devState ≠ dsDraining ∧ s.devState ≠ dsFaultHold ∧ patBusy (patCopy q) s = false →
    s.pat.cur = none ∧ s.pat.queue = [] ∧ s.mgmt.mgtrPend = false ∧ s.mgmt.actWait = false →
    ∃ t, exec (.patErase q v) s = .next t ∧
      sget (fun _ => none) (bits v.toNat 8 2) t.pers.slots = none ∧
      t.rd (PAT_STAT (patCopy q)) = 0 ∧ t.pat.cur = none ∧ t.pat.queue = [] ∧
      s.answered t q cOK [] false ∧
      t.mem = s.mem ∧ t.memc = s.memc) ∧
  (∀ (s : State) (q : Req) (v : Word),
    s.devOpen q 0 = true ∧ s.devState ≠ dsDraining ∧ s.devState ≠ dsFaultHold ∧ patBusy (patCopy q) s = false →
    s.pat.cur = none ∧ s.pat.queue = [] ∧ s.mgmt.mgtrPend = false ∧ s.mgmt.actWait = false →
    s.conf (bits v.toNat 4 4) = false ∧ resetting (bits v.toNat 4 4) s = false ∧ stepState (bits v.toNat 4 4) s = stStopped →
    ∃ t, exec (.patUnload q v) s = .next t ∧
      t.fv (PAT_INST (bits v.toNat 4 4)) PAT_INST.STATE = 0 ∧ t.rd64 (PAT_INST_PID (bits v.toNat 4 4)) = 0 ∧
      (∀ n : Fin 256, t.ownsBlk (bits v.toNat 4 4) n.val = false) ∧
      t.rd (PAT_STAT (patCopy q)) = 0 ∧ t.pat.cur = none ∧
      s.answered t q cOK [] false) ∧
  (∀ (s : State) (q : Req) (v : Word) (r : PatReq) (b : List Byte),
    s.devOpen q 0 = true ∧ s.devState ≠ dsDraining ∧ s.devState ≠ dsFaultHold ∧ patBusy (patCopy q) s = false →
    s.pat.cur = none ∧ s.pat.queue = [] ∧ s.mgmt.mgtrPend = false ∧ s.mgmt.actWait = false →
    s.rd64 (PAT_SRC (patCopy q)) % 64 = 0 ∧ r = ⟨some (patCopy q), 1, bits v.toNat 4 4, bits v.toNat 8 2, false, bit v.toNat 11, s.rd64 (PAT_SRC (patCopy q)), s.rd (PAT_LEN (patCopy q))⟩ →
    resetting r.inst s = false ∧ b = patImage r s ∧ verify b r.len r.inst s = none ∧ imgSigned b = false ∧ signatureOk b r.inst s = true →
    ∃ t, exec (.patVerify q v) s = .next t ∧
      t.rd (PAT_STAT (patCopy q)) = 0 ∧ t.rd (PAT_DONE (patCopy q)) = imgLen b ∧ t.pat.cur = none ∧
      s.answered t q cOK [] false ∧
      s.sameRegs t [PAT_CTRL (patCopy q), PAT_STAT (patCopy q), PAT_FAIL (patCopy q), PAT_DONE (patCopy q), MEMC_RD_B, MEMC_RD_B + 4] ∧
      t.mem = s.mem ∧ t.memc = s.memc) ∧
  (∀ (s : State) (q : Req) (v : Word) (r : PatReq) (b : List Byte),
    s.devOpen q 0 = true ∧ s.devState ≠ dsDraining ∧ s.devState ≠ dsFaultHold ∧ patBusy (patCopy q) s = false →
    s.pat.cur = none ∧ s.pat.queue = [] →
    s.rd64 (PAT_SRC (patCopy q)) % 64 = 0 ∧ bit v.toNat 10 = false ∧ r = ⟨some (patCopy q), 0, bits v.toNat 4 4, bits v.toNat 8 2, false, bit v.toNat 11, s.rd64 (PAT_SRC (patCopy q)), s.rd (PAT_LEN (patCopy q))⟩ →
    resetting r.inst s = false ∧ b = patImage r s ∧ verify b r.len r.inst s = none ∧ imgSigned b = false ∧ signatureOk b r.inst s = true ∧ imgPartial b = false →
    stepState r.inst s = stStopped ∧ patBlocks b r.inst s = [] ∧ (∀ n : Fin 256, s.ownsBlk r.inst n.val = false) →
    ∃ t, exec (.patLoad q v) s = .next t ∧
      t.fv (PAT_INST r.inst) PAT_INST.STATE = 1 ∧ t.pat.cur = some r ∧ t.pat.todo = some 0 ∧ t.pat.image = b ∧
      t.fv (PAT_STAT (patCopy q)) PAT_STAT.BUSY = 1 ∧ t.fv (PAT_STAT (patCopy q)) PAT_STAT.PHASE = 4 ∧ t.fv (SEC_INST r.inst) SEC_INST.STATE ≠ 0 ∧
      s.answered t q cOK [] false ∧
      t.mem = s.mem ∧ t.memc = s.memc) ∧
  (∀ (s : State) (r : PatReq) (n : Fin 19) (k : Nat),
    s.pat.cur = some r ∧ r.who = some n.val ∧ s.pat.todo = some k ∧ (imgSects s.pat.image).length ≤ k →
    patMark r.inst s = s.pat.mark ∧ r.inst < 16 ∧ s.mgmt.mgtrPend = false ∧ s.mgmt.actWait = false →
    ∃ t, patTick s = t ∧
      t.fv (PAT_INST r.inst) PAT_INST.STATE = 2 ∧ t.rd64 (PAT_INST_PID r.inst) = imgPid s.pat.image ∧
      t.rd PAT_LOADS = min (s.rd PAT_LOADS + 1) (2 ^ 32 - 1) ∧
      t.rd (PAT_STAT n.val) = 0 ∧ t.pat.cur = none ∧ t.mem = s.mem ∧ t.memc = s.memc) ∧
  (∀ (s : State) (q : Req) (v : Word) (r : PatReq) (b : List Byte),
    s.devOpen q 0 = true ∧ s.devState ≠ dsDraining ∧ s.devState ≠ dsFaultHold ∧ patBusy (patCopy q) s = false →
    s.pat.cur = none ∧ s.pat.queue = [] ∧ s.mgmt.mgtrPend = false ∧ s.mgmt.actWait = false →
    s.rd64 (PAT_SRC (patCopy q)) % 64 = 0 ∧ r = ⟨some (patCopy q), 2, bits v.toNat 4 4, bits v.toNat 8 2, false, bit v.toNat 11, s.rd64 (PAT_SRC (patCopy q)), s.rd (PAT_LEN (patCopy q))⟩ →
    resetting r.inst s = false ∧ b = patImage r s ∧ verify b r.len r.inst s = none ∧ imgSigned b = true →
    ∃ t, exec (.patStore q v) s = .next t ∧
      t.pat.image = b ∧ t.pat.cur = some r ∧
      t.fv (PAT_STAT (patCopy q)) PAT_STAT.BUSY = 1 ∧ t.fv (PAT_STAT (patCopy q)) PAT_STAT.PHASE = 2 ∧
      s.answered t q cOK [] false ∧
      t.pers = s.pers ∧ t.mem = s.mem ∧ t.memc = s.memc) ∧
  (∀ (s : State) (r : PatReq) (n : Fin 19),
    s.pat.cur = none ∧ s.pat.queue = [r] ∧ r.who = some n.val ∧ r.op = opErase ∧ s.mgmt.mgtrPend = false ∧ s.mgmt.actWait = false →
    ∃ t, exec (.patRequestStart) s = .next t ∧
      sget (fun _ => none) r.slot t.pers.slots = none ∧
      t.rd (PAT_STAT n.val) = 0 ∧ t.pat.cur = none ∧ t.pat.queue = [] ∧
      t.mem = s.mem ∧ t.cpl = s.cpl) ∧
  (∀ (s : State) (r : PatReq) (n : Fin 19),
    s.pat.cur = none ∧ s.pat.queue = [r] ∧ r.who = some n.val ∧ r.op = opVerify ∧ r.fromSlot = false ∧ resetting r.inst s = false ∧ s.mgmt.mgtrPend = false ∧ s.mgmt.actWait = false →
    imgW (patImage r s) 0 ≠ 0x54504D4C →
    ∃ t, exec (.patRequestStart) s = .next t ∧
      t.fv (PAT_STAT n.val) PAT_STAT.CODE = cCHECK_FAIL ∧ t.fv (PAT_FAIL n.val) PAT_FAIL.CAUSE = 1 ∧
      t.pat.cur = none ∧ t.pat.queue = [] ∧ t.dev.srcLock = none ∧
      t.mem = s.mem ∧ t.memc = s.memc ∧ t.cpl = s.cpl) ∧
  (∀ (s : State) (r : PatReq) (n : Fin 19),
    s.pat.cur = some r ∧ r.who = some n.val ∧ r.op = opStore ∧ s.pat.image ≠ [] ∧ s.pat.todo = none ∧ imgSigned s.pat.image = true ∧ signatureOk s.pat.image r.inst s = true →
    areaUsed r.slot s + s.pat.image.length ≤ 896 * 2 ^ 20 ∧ s.mgmt.mgtrPend = false ∧ s.mgmt.actWait = false →
    ∃ t, exec (.patSignatureDone) s = .next t ∧
      sget (fun _ => none) r.slot t.pers.slots = some ⟨s.pat.image, r.inst⟩ ∧
      t.rd (PAT_STAT n.val) = 0 ∧ t.pat.cur = none ∧
      t.mem = s.mem ∧ t.cpl = s.cpl) ∧
  (∀ (s : State) (r : PatReq) (n : Fin 19),
    s.pat.cur = some r ∧ r.who = some n.val ∧ s.pat.image ≠ [] ∧ s.pat.todo = none ∧ signatureOk s.pat.image r.inst s = false ∧ s.mgmt.mgtrPend = false ∧ s.mgmt.actWait = false →
    ∃ t, exec (.patSignatureDone) s = .next t ∧
      t.fv (PAT_STAT n.val) PAT_STAT.CODE = cREFUSED ∧ t.fv (PAT_FAIL n.val) PAT_FAIL.CAUSE = 4 ∧
      t.pers = s.pers ∧ t.pat.cur = none ∧ t.mem = s.mem) ∧
  (∀ (s : State) (q : Req) (v : Nat),
    s.pat.autoWr = some (q, v) ∧ v < 2 ^ 32 →
    ∃ t, exec (.patAutoWrite) s = .next t ∧
      t.rd PAT_AUTO = v ∧ t.pat.autoWr = none ∧
      s.answered t q cOK [] false ∧
      s.sameRegs t [PAT_AUTO] ∧
      t.mem = s.mem) ∧
  (∀ (s : State) (e : Fin 4) (x : PatSlot),
    s.devState = dsReady ∧ autoBusy s = false ∧ s.pat.cur.isSome = true ∧ s.pat.auto = [e.val] ∧ bit (s.rd PAT_AUTO) (11 + 4 * e.val) = false →
    sget (fun _ => none) (bits (s.rd PAT_AUTO) (8 + 4 * e.val) 2) s.pers.slots = some x →
    ∃ t, exec (.autoLoadStart) s = .next t ∧
      t.pat.queue = s.pat.queue ++ [⟨none, opLoad, x.inst, bits (s.rd PAT_AUTO) (8 + 4 * e.val) 2, true, bit (s.rd PAT_AUTO) 1, 0, 0⟩] ∧ t.pat.auto = [] ∧
      t.regs = s.regs ∧ t.mem = s.mem ∧ t.memc = s.memc)

/-- A core, cluster, partition or management reset, and a runtime repair, returns its unit to reset or mends it, and is counted or recorded. Core reset: BUSY, its position held, the core Idle and halted, its SRAM 0, its own registers the software's, and nothing outside its port, SRAM, slot table and the CLA_RST pair changes. Cluster reset: the same for each slot, no injection and the journal empty; a second one gets RETRY. At the end BUSY and HOLD are 0, CODE OK and a RESET record is posted. Partition reset: BUSY, seam closed and answered OK; the drain timeout absorbs; the fourth half-row report ends BUSY with a RESET record. Management reset and the device-reset request; the exception; repair takes a spare, copies, counts. Rests on: R27, R398, R399, R400, R401, R403, R404, R409, R410, R414, R459. -/
def Obligations.ResetsOfCoresClustersAndPartitions : Prop :=
  (∀ (s : State) (q : Req) (c : Cl) (k : Sl) (v : Word),
    s.clRight q c.val = true ∧ v.toNat % 2 ^ 20 = 2 ^ k.val →
    s.slotGone (pcid c k) = false ∧ (s.lcid (pcid c k)).isSome = true ∧ coreState (pcid c k) s ≠ stOff ∧ s.clPwr c.val = 0 →
    (s.cluster c.val).rst = none ∧ lrnEn (pcid c k) s = false →
    (s.core (pcid c k)).q.inBuf = [] ∧ (s.core (pcid c k)).q.held = [] ∧ (s.core (pcid c k)).q.taken = [] →
    ∃ t, exec (.coreReset q c v) s = .next t ∧
      t.fv (CORE_STATE (pcid c k)) CORE_STATE.STATE = stIdle ∧ t.fv (CORE_STATE (pcid c k)) CORE_STATE.HALTED = 1 ∧
      t.rd (CORE_ID (pcid c k)) = s.rd (CORE_ID (pcid c k)) ∧ t.rd (CORE_NCOMP (pcid c k)) = s.rd (CORE_NCOMP (pcid c k)) ∧
      (∀ o, o < 0x28000 → t.rdB (sramBase (pcid c k) + o) = 0) ∧
      s.sameMemOut t (sramBase (pcid c k)) 0x28000 ∧
      t.fv (CLA_RST c.val) CLA_RST.BUSY = 1 ∧ (t.cluster c.val).rst = some (1600, [k.val], false) ∧
      (∀ n : Fin 16, t.fv (CLA_SLOTTAB c.val n.val) CLA_SLOTTAB.HOLD = (if n.val ∈ positions c.val [k.val] s then 1 else s.fv (CLA_SLOTTAB c.val n.val) CLA_SLOTTAB.HOLD)) ∧
      s.sameRegsOut t (base_core (pcid c k)) 0x2000 ([CLA_RST c.val, CLA_RST_DROP c.val] ++ (List.range 16).map (CLA_SLOTTAB c.val)) ∧
      s.answered t q cOK [] false ∧
      t.memc = s.memc ∧ t.pers = s.pers ∧ t.out = s.out ∧ t.logIn = s.logIn) ∧
  (∀ (s : State) (q : Req) (c : Cl) (k : Sl) (v : Word),
    s.clRight q c.val = true ∧ isVf q = false ∧ bit v.toNat k.val = true ∧ s.slotGone (pcid c k) = true →
    ∃ t, exec (.coreReset q c v) s = .next t ∧
      s.answered t q cUNSUPPORTED [] false ∧
      s.sameRegs t [GLB_CFG_ERR (reqIx q)] ∧ t.mem = s.mem) ∧
  (∀ (s : State) (q : Req) (c : Cl) (v : Word),
    s.clRight q c.val = true ∧ isVf q = false ∧ bits v.toNat 19 1 = 0 ∧ (s.cluster c.val).rst = none →
    (s.cluster c.val).rewind = none ∧ s.fb (CLA_PWR_CTRL c.val) CLA_PWR_CTRL.SPARE_OFF = false ∧ s.clPwr c.val = 0 →
    (clSlots c.val).all (fun p => lrnEn p s == false && (s.core p).q.inBuf.isEmpty && (s.core p).q.held.isEmpty && (s.core p).q.taken.isEmpty) = true →
    ∃ t, exec (.clusterReset q c v false) s = .next t ∧
      (∀ k : Sl, s.slotGone (pcid c k) = true ∨ (t.fv (CORE_STATE (pcid c k)) CORE_STATE.STATE = (if coreState (pcid c k) s = stOff then stOff else stIdle) ∧ t.rd (CORE_ID (pcid c k)) = s.rd (CORE_ID (pcid c k)))) ∧
      (∀ (k : Sl) (o : Nat), s.slotGone (pcid c k) = false → o < 0x28000 → t.rdB (sramBase (pcid c k) + o) = 0) ∧
      (t.cluster c.val).journal = [] ∧ (t.cluster c.val).migrate = none ∧ (t.cluster c.val).noInject = true ∧ t.rd (CLA_JRN_OCC c.val) = 0 ∧
      t.fv (CLA_RST c.val) CLA_RST.BUSY = 1 ∧ (t.cluster c.val).rst = some (1600, List.range 17, true) ∧
      (∀ k : Fin 16, t.fv (CLA_SLOTTAB c.val k.val) CLA_SLOTTAB.HOLD = (if k.val ∈ positions c.val (List.range 17) s then 1 else 0)) ∧
      s.answered t q cOK [] false ∧
      t.memc = s.memc ∧ t.pers = s.pers) ∧
  (∀ (s : State) (q : Req) (c : Cl) (v : Word),
    s.clRight q c.val = true ∧ isVf q = false ∧ bits v.toNat 17 1 = 1 ∧ (s.cluster c.val).rst.isSome = true →
    ∃ t, exec (.clusterReset q c v false) s = .next t ∧
      s.answered t q cRETRY [] false ∧
      s.sameRegs t [GLB_CFG_ERR (reqIx q)] ∧ t.mem = s.mem ∧ t.clusters = s.clusters) ∧
  (∀ (s : State) (c : Cl) (n : Nat) (l : List Nat) (w : Bool),
    (s.cluster c.val).rst = some (n, l, w) ∧ (s.cluster c.val).rewind = none ∧ s.logRoom 1 →
    (s.cluster c.val).dlv = [] ∧ (s.cluster c.val).spill = [] ∧ s.net.outs = [] →
    ∃ t, rstEnd c.val s = t ∧
      t.fv (CLA_RST c.val) CLA_RST.BUSY = 0 ∧ t.fv (CLA_RST c.val) CLA_RST.CODE = cOK ∧ (t.cluster c.val).rst = none ∧
      (∀ k : Fin 16, t.fv (CLA_SLOTTAB c.val k.val) CLA_SLOTTAB.HOLD = (if k.val ∈ positions c.val l s then 0 else s.fv (CLA_SLOTTAB c.val k.val) CLA_SLOTTAB.HOLD)) ∧
      s.logged t 2 (s.clInst c.val) [if w then 1 else 0, t.rd (CLA_RST c.val)] ∧
      s.sameRegs t (CLA_RST c.val :: (List.range 16).map (CLA_SLOTTAB c.val)) ∧
      t.mem = s.mem ∧ t.memc = s.memc ∧ t.cores = s.cores ∧ t.cpl = s.cpl ∧ t.out = s.out) ∧
  (∀ (s : State) (q : Req) (c : Cl) (v : Word) (i : InstNo) (bad : Bool),
    s.clRight q c.val = true ∧ q = .vf i →
    ∃ t, exec (.clusterReset q c v bad) s = .next t ∧
      s.answered t q cREFUSED [] false ∧
      s.sameRegs t [GLB_CFG_ERR (reqIx q)] ∧ t.mem = s.mem ∧ t.clusters = s.clusters) ∧
  (∀ (s : State) (q : Req) (p : Fin 4) (v : Word),
    s.devOpen q 0 = true ∧ bits v.toNat 4 4 = 2 ^ p.val →
    anyStepping (partCls p.val) s = false ∧ rstBusy p.val s = false ∧ pwrBusy p.val s = false →
    ∃ t, exec (.partitionReset q v) s = .next t ∧
      rstBusy p.val t = true ∧ t.fv MGT_RST_STAT MGT_RST_STAT.BUSY = s.fv MGT_RST_STAT MGT_RST_STAT.BUSY + 2 ^ p.val ∧ bit (t.fv MGT_RST_STAT MGT_RST_STAT.ABSORB) p.val = false ∧
      (∀ c : Cl, (c.val ∉ partCls p.val ∨ (s.cluster c.val).fused = true) ∨ ((t.cluster c.val).noInject = true ∧ c.val ∈ t.dev.drainCl)) ∧
      s.sameRegs t [MGT_RST_STAT] ∧
      s.answered t q cOK [] false ∧
      t.mem = s.mem ∧ t.memc = s.memc ∧ t.pers = s.pers ∧ t.out = s.out ∧ t.logIn = s.logIn) ∧
  (∀ (s : State) (q : Req) (p : Fin 4) (v : Word),
    s.devOpen q 0 = true ∧ bit v.toNat (4 + p.val) = true ∧ anyStepping (partCls p.val) s = true →
    ∃ t, exec (.partitionReset q v) s = .next t ∧
      s.answered t q cREFUSED [] false ∧
      s.sameRegs t [GLB_CFG_ERR (reqIx q)] ∧ t.mem = s.mem ∧ t.clusters = s.clusters) ∧
  (∀ (s : State) (p : Fin 4),
    rstBusy p.val s = true ∧ s.mgmt.rstAbs.contains p.val = false ∧ (present (partCls p.val) s).any (fun c => inFlight c s) = true →
    ∃ t, exec (.partitionDrainTimeout p) s = .next t ∧
      bit (t.fv MGT_RST_STAT MGT_RST_STAT.ABSORB) p.val = true ∧ p.val ∈ t.mgmt.rstAbs ∧
      (∀ x : Fin 64, (t.slice x.val).queue.any (fun y => outReset.ours (fun k => (present (partCls p.val) s).contains (k / 32)) y.2) = false ∧ (t.slice x.val).queue.length = (s.slice x.val).queue.length) ∧
      s.sameRegs t [MGT_RST_STAT] ∧
      t.cores = s.cores ∧ t.mem = s.mem ∧ t.memc = s.memc ∧ t.cpl = s.cpl ∧ t.out = s.out ∧ t.logIn = s.logIn) ∧
  (∀ (s : State) (p row : Fin 4),
    rstBusy p.val s = true ∧ (partRow p.val row.val).all (fun c => (s.cluster c).fused) = true ∧ s.mgmt.rstRep.contains (p.val, row.val) = false →
    (List.range 4).all (fun r => r == row.val || s.mgmt.rstRep.contains (p.val, r)) = true ∧ s.logRoom 1 →
    ∃ t, exec (.partitionResetReport p row) s = .next t ∧
      rstBusy p.val t = false ∧ t.fv MGT_RST_STAT MGT_RST_STAT.CODE = cOK ∧
      s.logged t 2 none [2, t.rd MGT_RST_STAT] ∧
      s.sameRegs t [MGT_RST_STAT] ∧
      t.mem = s.mem ∧ t.memc = s.memc ∧ t.cpl = s.cpl) ∧
  (∀ (s : State) (p row : Fin 4),
    rstBusy p.val s = true ∧ s.mgmt.rstRep = [] ∧ (present (partRow p.val row.val) s).all (fun c => !inFlight c s && (s.cluster c).inj.isEmpty) = true →
    ∃ t, exec (.partitionResetReport p row) s = .next t ∧
      t.mgmt.rstRep = [(p.val, row.val)] ∧ rstBusy p.val t = true ∧
      (∀ c : Cl, c.val ∉ present (partRow p.val row.val) s ∨ (c.val ∉ t.dev.drainCl ∧ (t.cluster c.val).noInject = false ∧ (t.cluster c.val).journal = [])) ∧
      t.memc = s.memc ∧ t.pers.slots = s.pers.slots ∧ t.cpl = s.cpl) ∧
  (∀ (s : State) (q : Req) (v : Word),
    s.devOpen q 0 = true ∧ bits v.toNat 4 4 = 0 ∧ bit v.toNat 0 = false ∧ s.pat.cur = none ∧ s.logRoom 1 →
    ∃ t, exec (.mgtReset q v) s = .next t ∧
      t.dev.hubDown = true ∧ t.fv CLK_STATUS CLK_STATUS.MP_PLL = 0 ∧
      s.answered t q cOK [] false ∧
      s.logged t 2 none [4, s.rd MGT_RST_STAT] ∧
      s.sameRegs t [CLK_STATUS] ∧
      t.mem = s.mem ∧ t.memc = s.memc ∧ t.cores = s.cores ∧ t.clusters = s.clusters ∧ t.insts = s.insts) ∧
  (∀ (s : State) (q : Req) (v : Word),
    s.devOpen q 0 = true ∧ bits v.toNat 4 4 = 0 ∧ bit v.toNat 0 = false ∧ s.pat.cur.isSome = true →
    ∃ t, exec (.mgtReset q v) s = .next t ∧
      t.mgmt.mgtrPend = true ∧ t.dev.hubDown = s.dev.hubDown ∧
      s.answered t q cOK [] false ∧
      t.regs = s.regs ∧ t.mem = s.mem ∧ t.logIn = s.logIn) ∧
  (∀ (s : State),
    s.dev.hubDown = true ∧ s.mgmt.takeover = false →
    ∃ t, exec (.mgtResetDone) s = .next t ∧
      t.dev.hubDown = false ∧ t.fv CLK_STATUS CLK_STATUS.MP_PLL = 1 ∧
      s.sameRegs t [CLK_STATUS] ∧
      t = { s with regs := t.regs, dev := { s.dev with hubDown := false } }) ∧
  (∀ (s : State) (q : Req) (v : Word),
    s.devOpen q 0 = true ∧ bits v.toNat 4 4 = 0 ∧ bit v.toNat 1 = false →
    ∃ t, exec (.deviceResetRequest q v) s = .next t ∧
      t.mgmt.devReq = true ∧
      s.answered t q cOK [] false ∧
      t = { s with cpl := t.cpl, mgmt := { s.mgmt with devReq := true } }) ∧
  (∀ (s : State),
    ∃ t, exec (.mpException) s = .next t ∧
      t = s) ∧
  (∀ (s : State) (c : Cl) (k : Sl) (a : Fin 10) (f : Bool),
    s.mgmt.repair.contains (.sram c k a) = false ∧ s.fb (CLA_REP_CTRL c.val) CLA_REP_CTRL.EN = true ∧ s.clGone c.val = false ∧ sparesUsed (.sram c k a) s < 2 →
    ∃ t, exec (.runtimeRepairStart (.sram c k a) f) s = .next t ∧
      sparesUsed (.sram c k a) t = sparesUsed (.sram c k a) s + 1 ∧ t.mgmt.repair = .sram c k a :: s.mgmt.repair ∧
      t.fv (CLA_REP_STAT c.val) CLA_REP_STAT.BUSY = 1 ∧ t.fv (CLA_REP_STAT c.val) CLA_REP_STAT.USED = min (s.fv (CLA_REP_STAT c.val) CLA_REP_STAT.USED + 1) 255 ∧
      s.sameRegs t [CLA_REP_STAT c.val] ∧
      t.mem = s.mem ∧ t.cpl = s.cpl ∧ t.out = s.out ∧ t.logIn = s.logIn) ∧
  (∀ (s : State) (c : Cl) (g : Sl) (a : Fin 48) (f : Bool),
    s.mgmt.repair.contains (.seg c g a) = false ∧ s.fb (CLA_REP_CTRL c.val) CLA_REP_CTRL.EN = true ∧ s.clGone c.val = false ∧ sparesUsed (.seg c g a) s = 2 ∧ s.mgmt.exh = [] ∧ s.logRoom 1 →
    ∃ t, exec (.runtimeRepairStart (.seg c g a) f) s = .next t ∧
      t.mgmt.exh = [.seg c g a] ∧ bit (t.fv (CLA_SEG_FAILING c.val) CLA_SEG_FAILING.FAIL) g.val = true ∧
      s.logged t 0x0E none [arrCode (.seg c g a), 1] ∧
      s.sameRegs t [CLA_REP_STAT c.val, CLA_SEG_FAILING c.val] ∧
      t.mem = s.mem ∧ t.pers = s.pers) ∧
  (∀ (s : State) (c : Cl) (k : Fin 8),
    s.mgmt.repair = [.jrn c k] ∧ s.logRoom 2 →
    ∃ t, exec (.runtimeRepairDone (.jrn c k)) s = .next t ∧
      t.mgmt.repair = [] ∧ t.rd (CLA_REP_CNT c.val) = min (s.rd (CLA_REP_CNT c.val) + 1) (2 ^ 32 - 1) ∧ t.fv (CLA_REP_STAT c.val) CLA_REP_STAT.BUSY = 0 ∧
      (t.logIn.drop s.logIn.length).map (·.typ) = [0x0E, 4] ∧ bits ((t.dev.frecs.headD []).headD 0) 0 10 = 3 ∧
      s.sameRegs t [CLA_REP_CNT c.val, CLA_REP_STAT c.val, RAS_FREC_CNT, RAS_CNT_MASKED] ∧
      t.mem = s.mem ∧ t.pers = s.pers)

/-- With no fault found, power-on, device reset, wake, board reset and a device-wide rail fault bring the device to stage 11. On a device without fused units and with nothing stored, where no unit finds a fault: power-on, a device reset, a wake by an enabled source with nothing holding Standby, a BRD_RST_N pulse and a fault of the AON, MGT or NET rail end in Bring-up at stage 11 with every domain on, memory empty and the cause recorded; a wake keeps TIME64. Power-on samples the sideband address. That reset memory reads 0 is the model's choice (log entry 3). Rests on: R389, R390, R393, R397, R432, R433, R436, R516, R518. -/
def Obligations.BringUpReachesStage11 : Prop :=
  (∀ (s : State) (onB : Bool) (addr : Fin 8) (b : Boot),
    s.pin pinPWR_EN = true ∧ s.pers = {} ∧ s.clusters = [] ∧ s.dev.fusedJlk = [] ∧ b = cleanBoot →
    ∃ t, exec (.powerOn onB addr b) s = .next t ∧
      t.devState = dsBringup ∧ t.fv MGT_BOOT_STAT MGT_BOOT_STAT.STAGE = 11 ∧ t.fv PWR_STATUS PWR_STATUS.ON = 0x3F ∧
      t.rd PWR_FEED_STAT = (if onB then 6 else 1) ∧ t.fv MGT_RST_CAUSE MGT_RST_CAUSE.CAUSE = 0 ∧ t.power.sbAddr = 0x58 + addr.val ∧
      t.mem = [] ∧ t.cpl = s.cpl ∧ t.dev.hubDown = false ∧ t.fresh = s.fresh) ∧
  (∀ (s : State) (n : Fin 6) (b : Boot),
    (n.val ≠ 1 ∨ s.mgmt.devReq = true) ∧ s.devState ≠ dsStandby ∧ s.pers = {} ∧ s.clusters = [] ∧ s.dev.fusedJlk = [] ∧ b = cleanBoot →
    ∃ t, exec (.deviceReset n b) s = .next t ∧
      t.devState = dsBringup ∧ t.fv MGT_BOOT_STAT MGT_BOOT_STAT.STAGE = 11 ∧ t.fv PWR_STATUS PWR_STATUS.ON = 0x3F ∧
      t.fv MGT_RST_CAUSE MGT_RST_CAUSE.CAUSE = n.val ∧
      t.fv PWR_DEV_CTRL PWR_DEV_CTRL.HOLD = s.fv PWR_DEV_CTRL PWR_DEV_CTRL.HOLD ∧
      t.mem = [] ∧ t.cpl = s.cpl ∧ t.insts = [] ∧ t.rd (GLB_SCRATCH 0) = 0) ∧
  (∀ (s : State) (b : Boot),
    s.devState ≠ dsStandby ∧ s.pers = {} ∧ s.clusters = [] ∧ s.dev.fusedJlk = [] ∧ b = cleanBoot →
    ∃ t, exec (.boardReset b) s = .next t ∧
      t.devState = dsBringup ∧ t.fv MGT_BOOT_STAT MGT_BOOT_STAT.STAGE = 11 ∧ t.fv MGT_RST_CAUSE MGT_RST_CAUSE.CAUSE = 2 ∧
      t.pin pinBRD_RST_N = true ∧ t.mem = [] ∧ t.cpl = s.cpl) ∧
  (∀ (s : State) (n : Fin 6) (b : Boot),
    s.devState = dsStandby ∧ bit (s.fv PWR_WAKE_EN PWR_WAKE_EN.SRC) n.val = true ∧ s.pin pinPWR_EN = true ∧ s.power.tempHold = [] ∧ s.fb PWR_DEV_CTRL PWR_DEV_CTRL.HOLD = false ∧ s.fb PWR_FEED_STAT PWR_FEED_STAT.A_OK = true →
    s.pers = {} ∧ s.clusters = [] ∧ s.dev.fusedJlk = [] ∧ b = cleanBoot →
    ∃ t, exec (.standbyWake n b) s = .next t ∧
      t.devState = dsBringup ∧ t.fv MGT_BOOT_STAT MGT_BOOT_STAT.STAGE = 11 ∧
      bit (t.fv PWR_WAKE_CAUSE PWR_WAKE_CAUSE.SRC) n.val = true ∧ t.rd64 TIME64 = s.rd64 TIME64 ∧
      t.mem = [] ∧ t.cpl = s.cpl) ∧
  (∀ (s : State) (b : Boot),
    s.devState = dsStandby ∧ bit (s.fv PWR_WAKE_EN PWR_WAKE_EN.SRC) 0 = true ∧ s.power.tempHold = [] ∧ s.fb PWR_DEV_CTRL PWR_DEV_CTRL.HOLD = false ∧ s.fb PWR_FEED_STAT PWR_FEED_STAT.B_OK = true →
    s.pers = {} ∧ s.clusters = [] ∧ s.dev.fusedJlk = [] ∧ b = cleanBoot →
    ∃ t, exec (.pwrEnRise b) s = .next t ∧
      t.devState = dsBringup ∧ t.fv MGT_BOOT_STAT MGT_BOOT_STAT.STAGE = 11 ∧ t.pin pinPWR_EN = true ∧
      bit (t.fv PWR_WAKE_CAUSE PWR_WAKE_CAUSE.SRC) 0 = true ∧ t.mem = [] ∧ t.cpl = s.cpl) ∧
  (∀ (s : State) (r : Rail) (b : Boot),
    (r = .aon ∨ r = .mgt ∨ r = .net) ∧ s.devState ≠ dsStandby ∧ s.pers = {} ∧ s.clusters = [] ∧ s.dev.fusedJlk = [] ∧ b = cleanBoot →
    ∃ t, exec (.railFault r b) s = .next t ∧
      t.devState = dsBringup ∧ t.fv MGT_BOOT_STAT MGT_BOOT_STAT.STAGE = 11 ∧ t.fv MGT_RST_CAUSE MGT_RST_CAUSE.CAUSE = 5 ∧
      t.mem = [] ∧ t.cpl = s.cpl ∧ t.insts = [])

/-- Standby, Fault-Hold, the Ready gate, power loss and thermal shutdown end in the named device state with the named records. Power-on with PWR_EN low holds Standby; no good image of component 2 ends in Fault-Hold cause 1. The Ready gate opens when every port is routable or has given up, with stage 14, MGT_BOOT_T and a BOOT record. PWR_STANDBY, PWR_EN low and thermal shutdown enter Standby, AON kept, the hub down. PWR_EN low elsewhere waits. A power loss writes one POWER record straight to the store; an exhausted hold-up removes every rail. A cluster rail fault kills that cluster only. Rests on: R389, R390, R395, R396, R431, R432, R435, R436, R517, R525, R527. -/
def Obligations.StandbyFaultHoldAndReady : Prop :=
  (∀ (s : State) (onB : Bool) (addr : Fin 8) (b : Boot),
    s.pin pinPWR_EN = false ∧ s.pers.regs = [] →
    ∃ t, exec (.powerOn onB addr b) s = .next t ∧
      t.devState = dsStandby ∧ t.dev.hubDown = true ∧ t.fv MGT_BOOT_STAT MGT_BOOT_STAT.STAGE = 2 ∧
      t.mem = [] ∧ t.cpl = s.cpl ∧ t.pers = s.pers ∧ t.fresh = s.fresh) ∧
  (∀ (s : State) (n : Fin 6) (b : Boot),
    n.val ≠ 1 ∧ s.devState ≠ dsStandby ∧ s.power.standbyPend = false ∧ s.pers.regs = [] ∧ (1 : Fin 4) ∈ b.curBad ∧ (1 : Fin 4) ∈ b.lkgBad →
    ∃ t, exec (.deviceReset n b) s = .next t ∧
      t.devState = dsFaultHold ∧ t.fv MGT_BOOT_STAT MGT_BOOT_STAT.FHCAUSE = 1 ∧ t.fv MGT_BOOT_STAT MGT_BOOT_STAT.STAGE = 2 ∧
      t.fv MGT_RST_CAUSE MGT_RST_CAUSE.CAUSE = n.val ∧
      t.mem = [] ∧ t.cpl = s.cpl ∧ t.pers = s.pers ∧ t.insts = []) ∧
  (∀ (s : State) (n : Fin 6) (b : Boot),
    s.devState = dsStandby ∧ n.val ≠ 2 ∧ bit (s.fv PWR_WAKE_EN PWR_WAKE_EN.SRC) n.val = false →
    ∃ t, exec (.standbyWake n b) s = .next t ∧
      t = s) ∧
  (∀ (s : State),
    readyGate s = true ∧ s.power.standbyPend = false ∧ s.pers.fwPend = [] ∧ s.logRoom 1 ∧ (List.range 16).all (fun i => s.fv (PAT_INST i) PAT_INST.STATE != 2) = true →
    ∃ t, exec (.readyGate) s = .next t ∧
      t.devState = dsReady ∧ t.fv MGT_BOOT_STAT MGT_BOOT_STAT.STAGE = 14 ∧ t.rd64 MGT_BOOT_T = s.rd64 TIME64 ∧ t.fv GLB_DEV_STATE GLB_DEV_STATE.TRANSIT = 1 ∧
      s.logged t 1 none [t.rd GLB_DEV_STATE, t.rd MGT_BOOT_STAT] ∧
      s.sameRegs t [GLB_DEV_STATE, MGT_BOOT_STAT, MGT_BOOT_T, MGT_BOOT_T + 4] ∧
      t.mem = s.mem ∧ t.memc = s.memc ∧ t.pers = s.pers ∧ t.cpl = s.cpl ∧ t.out = s.out) ∧
  (∀ (s : State) (p : JPort),
    jState p.val s = jsDark →
    ∃ t, exec (.bootPortDarkTimeout p) s = .next t ∧
      (t.jp p.val).darkDone = true ∧
      (t = { s with jports := t.jports } ∧ (∀ k : JPort, k = p ∨ t.jp k.val = s.jp k.val))) ∧
  (∀ (s : State) (q : Req) (v : Word),
    s.devOpen q 2 = true ∧ (s.devState = dsReady ∨ s.devState = dsFaultHold) ∧ s.pers.regs = [] →
    ∃ t, exec (.pwrStandby q v) s = .next t ∧
      t.devState = dsStandby ∧ t.dev.hubDown = true ∧ t.fv PWR_STATUS PWR_STATUS.ON = 0 ∧ t.rd PWR_WAKE_CAUSE = 0 ∧
      (t.fv PWR_DEV_CTRL PWR_DEV_CTRL.HOLD = bits v.toNat 1 1 ∧ (∀ c : Cl, t.clPwr c.val = 3)) ∧
      s.answered t q cOK [] false ∧
      t.mem = [] ∧ t.pers = s.pers ∧ t.rd64 TIME64 = s.rd64 TIME64) ∧
  (∀ (s : State) (q : Req) (v : Word),
    s.devOpen q 2 = true ∧ s.devState ≠ dsReady ∧ s.devState ≠ dsFaultHold →
    ∃ t, exec (.pwrStandby q v) s = .next t ∧
      s.answered t q cREFUSED [] false ∧
      s.sameRegs t [GLB_CFG_ERR (reqIx q)] ∧ t.mem = s.mem) ∧
  (∀ (s : State),
    (s.devState = dsReady ∨ s.devState = dsFaultHold) ∧ s.pers.regs = [] →
    ∃ t, exec (.pwrEnFall) s = .next t ∧
      t.devState = dsStandby ∧ t.dev.hubDown = true ∧ t.pin pinPWR_EN = false ∧
      t.mem = [] ∧ t.pers = s.pers ∧ t.cpl = s.cpl ∧ t.rd64 TIME64 = s.rd64 TIME64) ∧
  (∀ (s : State),
    s.devState ≠ dsReady ∧ s.devState ≠ dsFaultHold ∧ s.devState ≠ dsStandby →
    ∃ t, exec (.pwrEnFall) s = .next t ∧
      t.power.standbyPend = true ∧ t.pin pinPWR_EN = false ∧
      t.regs = s.regs ∧ t.mem = s.mem ∧ t.memc = s.memc ∧ t.cpl = s.cpl ∧ t.out = s.out) ∧
  (∀ (s : State) (b : Boot),
    s.devState ≠ dsStandby →
    ∃ t, exec (.pwrEnRise b) s = .next t ∧
      t.power.standbyPend = false ∧ t.pin pinPWR_EN = true ∧
      t.regs = s.regs ∧ t.mem = s.mem ∧ t.memc = s.memc ∧ t.cpl = s.cpl ∧ t.out = s.out) ∧
  (∀ (s : State),
    s.fb PWR_FEED_STAT PWR_FEED_STAT.HOLDUP = true ∧ s.power.lossRec = false ∧ s.mgmt.seq ≠ 0xFFFFFFFF ∧ s.pers.log.length < 524288 →
    ∃ t, exec (.powerLoss) s = .next t ∧
      t.power.lossRec = true ∧ t.mgmt.seq = s.mgmt.seq + 1 ∧ t.pers.log.length = s.pers.log.length + 1 ∧
      (t.pers.log.head?.getD []).getD 0 0 = s.mgmt.seq ∧ bits ((t.pers.log.head?.getD []).getD 4 0) 0 8 = 6 ∧ (t.pers.log.head?.getD []).getD 7 0 = 1 ∧
      s.sameRegs t [LOG_HEAD, LOG_TAIL] ∧
      t.mem = s.mem ∧ t.memc = s.memc ∧ t.cpl = s.cpl ∧ t.logIn = s.logIn) ∧
  (∀ (s : State),
    s.fb PWR_FEED_STAT PWR_FEED_STAT.HOLDUP = true ∧ s.pers.regs = [] ∧ s.pat.cur = none →
    ∃ t, exec (.holdupExhausted) s = .next t ∧
      t.devState = dsStandby ∧ t.dev.hubDown = true ∧ t.rd PWR_FEED_STAT = 0 ∧ t.rd PWR_DEV_CTRL = 0 ∧
      t.mem = [] ∧ t.pers = s.pers ∧ t.cpl = s.cpl ∧ t.power = {}) ∧
  (∀ (s : State) (c : Cl) (b : Boot),
    s.clGone c.val = false ∧ s.logRoom 3 →
    ∃ t, exec (.railFault (.cluster c) b) s = .next t ∧
      s.clGone c.val = false ∧ t.clGone c.val = true ∧ (t.cluster c.val).dead = true ∧ t.rd GLB_FPM_GEN = (s.rd GLB_FPM_GEN + 2) % 2 ^ 32 ∧
      t.dev.frecs.length = min (s.dev.frecs.length + 1) 64 ∧ t.logIn.length = s.logIn.length + 3 ∧
      t.mem = s.mem ∧ t.memc = s.memc ∧ t.pers = s.pers ∧ t.cpl = s.cpl) ∧
  (∀ (s : State) (x : Bool),
    s.devState ≠ dsStandby ∧ s.pers.regs = [] ∧ s.pers.log.length < 524288 →
    ∃ t, exec (.thermalShutdown x) s = .next t ∧
      t.devState = dsStandby ∧ t.dev.hubDown = true ∧ (if x then 8 else 0) ∈ t.power.tempHold ∧ t.pers.log.length = s.pers.log.length + 1 ∧
      bits ((t.pers.log.head?.getD []).getD 4 0) 0 8 = 0x0F ∧ (t.pers.log.head?.getD []).getD 7 0 = 4 ∧
      t.mem = [] ∧ t.cpl = s.cpl ∧ t.rd64 TIME64 = s.rd64 TIME64)

/-- PERST_N and function-level resets disable rings, return function registers to reset and move locked interfaces to ERROR. PERST_N low and an FLR of the physical function disable every ring, empty the MSI-X tables and move each locked or running device interface to ERROR; PERST_N also takes the host link down, and its rising edge brings it up with the trained rate and width. An FLR of a virtual function does the same for its own function only and resets its instance if Active: generation plus one, stopped. Rests on: R336, R468, R515. -/
def Obligations.HostResetsReachTheirFunctions : Prop :=
  (∀ (s : State),
    s.devState ≠ dsStandby →
    ∃ t, exec (.perstAssert) s = .next t ∧
      t.pin pinPERST_N = false ∧ t.power.hostRst = true ∧ t.fv HOST_LINK HOST_LINK.UP = 0 ∧
      ((∀ f : Fin 17, ∀ r : Fin 8, t.fv (RING_CFG f.val r.val) RING_CFG.EN = 0) ∧ t.host.msix = []) ∧
      (∀ i : Fin 16, tdi i.val t = (if tdi i.val s = 1 ∨ tdi i.val s = 2 then 3 else tdi i.val s)) ∧
      t.mem = s.mem ∧ t.memc = s.memc ∧ t.pers = s.pers ∧ t.cpl = s.cpl ∧ t.insts = s.insts ∧ t.cores = s.cores) ∧
  (∀ (s : State) (x : Word) (b : Boot),
    s.devState ≠ dsStandby ∧ bit (s.fv PWR_STATUS PWR_STATUS.ON) 2 = true →
    ∃ t, exec (.perstDeassert x b) s = .next t ∧
      t.pin pinPERST_N = true ∧ t.power.hostRst = false ∧ t.fv HOST_LINK HOST_LINK.UP = 1 ∧
      t.fv HOST_LINK HOST_LINK.RATE = bits x.toNat 0 3 ∧ t.fv HOST_LINK HOST_LINK.WIDTH = bits x.toNat 3 5 ∧
      s.sameRegs t [HOST_LINK] ∧
      t.mem = s.mem ∧ t.memc = s.memc ∧ t.cpl = s.cpl ∧ t.out = s.out) ∧
  (∀ (s : State),
    ∃ t, exec (.flrPf) s = .next t ∧
      ((∀ f : Fin 17, ∀ r : Fin 8, t.fv (RING_CFG f.val r.val) RING_CFG.EN = 0) ∧ t.host.msix = [] ∧ (∀ f : Fin 17, t.rd (HOST_FN_STAT f.val) = resetVal (HOST_FN_STAT f.val))) ∧
      (∀ i : Fin 16, tdi i.val t = (if tdi i.val s = 1 ∨ tdi i.val s = 2 then 3 else tdi i.val s)) ∧
      t.mem = s.mem ∧ t.memc = s.memc ∧ t.pers = s.pers ∧ t.cpl = s.cpl ∧ t.insts = s.insts ∧ t.cores = s.cores) ∧
  (∀ (s : State) (i : InstNo),
    siState i.val s ≠ 1 →
    ∃ t, exec (.flrVf i) s = .next t ∧
      ((∀ r : Fin 8, t.fv (RING_CFG (i.val + 1) r.val) RING_CFG.EN = 0) ∧ t.rd (HOST_FN_STAT (i.val + 1)) = resetVal (HOST_FN_STAT (i.val + 1))) ∧
      (tdi i.val t = (if tdi i.val s = 1 ∨ tdi i.val s = 2 then 3 else tdi i.val s)) ∧
      (∀ f : Fin 17, f.val = i.val + 1 ∨ ∀ r : Fin 8, t.rd (RING_CFG f.val r.val) = s.rd (RING_CFG f.val r.val)) ∧
      t.mem = s.mem ∧ t.memc = s.memc ∧ t.pers = s.pers ∧ t.cpl = s.cpl ∧ t.insts = s.insts ∧ t.cores = s.cores) ∧
  (∀ (s : State) (i : InstNo),
    siState i.val s = 1 ∧ s.fb (SEC_INST i.val) SEC_INST.WRAPPED = false ∧ s.gen i.val ≠ 255 ∧ s.instClusters i.val = [] →
    ∃ t, exec (.flrVf i) s = .next t ∧
      siState i.val t = 1 ∧ s.gen i.val + 1 = t.gen i.val ∧ stepState i.val t = stStopped ∧
      (∀ r : Fin 8, t.fv (RING_CFG (i.val + 1) r.val) RING_CFG.EN = 0) ∧
      t.memc = s.memc ∧ t.pers = s.pers ∧ t.cpl = s.cpl)

/-- A cluster dozes, wakes, moves to its PLL and is turned off or on, each with its state shown in PWR_CL_STATE. A quiet cluster enters Doze and its Idle cores Doze; a wake brings them back on the fast oscillator; the PLL lock, the request and the switch point move it to its PLL. An admitted PWR_REQ joins the running requests; OFF closes the seam; the end of the drain turns the cluster off (state 2 keeps its segments, state 3 empties them), its cores Off with SRAM 0; the drain timeout reopens; ON ends with cores Idle and halted. Rests on: R415, R419, R420, R423, R424, R427, R428, R429, R430. -/
def Obligations.ClustersDozeWakeAndTurnOff : Prop :=
  (∀ (s : State) (c : Cl),
    dozeReady c.val s = true ∧ (clSlots c.val).all (fun p => !lrnEn p s) = true →
    ∃ t, exec (.dozeEntry c 0) s = .next t ∧
      t.clPwr c.val = 1 ∧ t.fv (CLA_PWR_STAT c.val) CLA_PWR_STAT.STATE = 1 ∧ t.fb (CLA_PWR_STAT c.val) CLA_PWR_STAT.ON_OSC = false ∧
      (∀ k : Sl, coreState (pcid c k) t = (if coreState (pcid c k) s = stIdle then stDoze else coreState (pcid c k) s)) ∧
      t.rd (CLA_PWR_DOZES c.val) = min (s.rd (CLA_PWR_DOZES c.val) + 1) (2 ^ 32 - 1) ∧ t.rd (CLA_PWR_ABORT c.val) = s.rd (CLA_PWR_ABORT c.val) ∧
      c.val ∉ t.power.pll ∧ c.val ∉ t.power.swReq ∧
      (∀ k : Cl, k = c ∨ t.clPwr k.val = s.clPwr k.val) ∧
      t.mem = s.mem ∧ t.memc = s.memc ∧ t.cpl = s.cpl ∧ t.out = s.out ∧ t.cores = s.cores ∧ t.clusters = s.clusters) ∧
  (∀ (s : State) (c : Cl),
    dozeReady c.val s = true ∧ (clSlots c.val).all (fun p => !lrnEn p s) = true →
    ∃ t, exec (.dozeEntry c 1) s = .next t ∧
      t.rd (CLA_PWR_ABORT c.val) = min (s.rd (CLA_PWR_ABORT c.val) + 1) (2 ^ 32 - 1) ∧
      s.sameRegs t [CLA_PWR_ABORT c.val] ∧
      t = { s with regs := t.regs }) ∧
  (∀ (s : State) (c : Cl),
    s.clPwr c.val = 1 ∧ (s.cluster c.val).dlv = [] ∧ (s.cluster c.val).spill = [] ∧ s.net.outs = [] →
    ∃ t, exec (.clusterWake c) s = .next t ∧
      t.clPwr c.val = 0 ∧ t.fb (CLA_PWR_STAT c.val) CLA_PWR_STAT.ON_OSC = true ∧
      (∀ k : Sl, coreState (pcid c k) t = (if coreState (pcid c k) s = stDoze then stIdle else coreState (pcid c k) s) ∧ halted (pcid c k) t = halted (pcid c k) s) ∧
      (∀ k : Cl, k = c ∨ t.clPwr k.val = s.clPwr k.val) ∧
      t = { s with regs := t.regs }) ∧
  (∀ (s : State) (c : Cl),
    s.clPwr c.val = 0 ∧ s.fb (CLA_PWR_STAT c.val) CLA_PWR_STAT.ON_OSC = true →
    ∃ t, exec (.clusterPllLock c) s = .next t ∧
      (c.val ∈ t.power.pll ∧ (s.fb CLK_CTRL CLK_CTRL.AUTOSW = false ∨ c.val ∈ t.power.swReq)) ∧
      t = { s with power := { s.power with pll := t.power.pll, swReq := t.power.swReq } }) ∧
  (∀ (s : State) (v : Word),
    s.devOpen .mp 2 = true ∧ s.clGone (bits v.toNat 0 6) = false ∧ s.fb (CLA_PWR_STAT (bits v.toNat 0 6)) CLA_PWR_STAT.ON_OSC = true ∧ s.power.pll.contains (bits v.toNat 0 6) = true →
    ∃ t, exec (.clkClSw .mp v) s = .next t ∧
      bits v.toNat 0 6 ∈ t.power.swReq ∧
      s.answered t .mp cOK [] false ∧
      t = { s with cpl := t.cpl, power := { s.power with swReq := t.power.swReq } }) ∧
  (∀ (s : State) (q : Req) (v : Word),
    s.devOpen q 2 = true ∧ q ≠ .mp →
    ∃ t, exec (.clkClSw q v) s = .next t ∧
      s.answered t q cREFUSED [] false ∧
      s.sameRegs t [GLB_CFG_ERR (reqIx q)] ∧ t.power = s.power) ∧
  (∀ (s : State) (c : Cl),
    s.power.swReq.contains c.val = true ∧ s.power.pll.contains c.val = true ∧ s.power.halfReq = [] →
    ∃ t, exec (.clockSwitchPoint c) s = .next t ∧
      t.fb (CLA_PWR_STAT c.val) CLA_PWR_STAT.ON_OSC = false ∧ (t.rd64 CLK_CL_OSC).testBit c.val = false ∧ c.val ∉ t.power.swReq ∧
      s.sameRegs t [CLA_PWR_STAT c.val, CLK_CL_OSC, CLK_CL_OSC + 4] ∧
      t = { s with regs := t.regs, power := { s.power with swReq := t.power.swReq } }) ∧
  (∀ (s : State) (c : Cl) (b : Bool),
    s.power.swReq.contains c.val = false ∧ s.power.halfReq = [(c.val, b)] →
    ∃ t, exec (.clockSwitchPoint c) s = .next t ∧
      t.power.half.contains c.val = b ∧ t.power.halfReq = [] ∧
      t = { s with power := { s.power with half := t.power.half, halfReq := t.power.halfReq } }) ∧
  (∀ (s : State) (q : Req) (v : Word),
    s.devOpen q 2 = true ∧ s.power.reqs = [] ∧ bits v.toNat 0 7 < 0x40 ∧ pwrAdmit (bits v.toNat 0 7) 3 s = cOK ∧ s.clPwr (bits v.toNat 0 7) < 2 →
    (clSlots (bits v.toNat 0 7)).all (fun p => !lrnEn p s) = true →
    ∃ t, exec (.pwrReqOff q v) s = .next t ∧
      t.power.reqs = [⟨bits v.toNat 0 7, 3, [], []⟩] ∧ bits v.toNat 0 7 ∈ t.dev.drainCl ∧ (t.cluster (bits v.toNat 0 7)).noInject = true ∧
      t.fv PWR_REQ_STAT PWR_REQ_STAT.BUSY = 1 ∧ t.fv PWR_REQ_STAT PWR_REQ_STAT.DOMAIN = bits v.toNat 0 7 ∧ t.fv PWR_REQ_STAT PWR_REQ_STAT.PHASE = 1 ∧
      s.answered t q cOK [] false ∧
      s.sameRegs t [PWR_REQ, PWR_REQ_STAT] ∧
      t.mem = s.mem ∧ t.memc = s.memc ∧ t.out = s.out ∧ t.cores = s.cores) ∧
  (∀ (s : State) (q : Req) (v : Word),
    s.devOpen q 2 = true ∧ s.power.reqs = [] ∧ bits v.toNat 0 7 < 0x40 ∧ pwrAdmit (bits v.toNat 0 7) 2 s = cOK ∧ s.clPwr (bits v.toNat 0 7) < 2 →
    (clSlots (bits v.toNat 0 7)).all (fun p => !lrnEn p s) = true →
    ∃ t, exec (.pwrReqOffLogic q v) s = .next t ∧
      t.power.reqs = [⟨bits v.toNat 0 7, 2, [], []⟩] ∧ bits v.toNat 0 7 ∈ t.dev.drainCl ∧ (t.cluster (bits v.toNat 0 7)).noInject = true ∧
      t.fv PWR_REQ_STAT PWR_REQ_STAT.BUSY = 1 ∧ t.fv PWR_REQ_STAT PWR_REQ_STAT.DOMAIN = bits v.toNat 0 7 ∧ t.fv PWR_REQ_STAT PWR_REQ_STAT.PHASE = 1 ∧
      s.answered t q cOK [] false ∧
      s.sameRegs t [PWR_REQ, PWR_REQ_STAT] ∧
      t.mem = s.mem ∧ t.memc = s.memc ∧ t.out = s.out ∧ t.cores = s.cores) ∧
  (∀ (s : State) (q : Req) (v : Word),
    s.devOpen q 2 = true ∧ s.power.reqs = [] ∧ bits v.toNat 0 7 < 0x40 ∧ pwrAdmit (bits v.toNat 0 7) 1 s = cOK ∧ s.clPwr (bits v.toNat 0 7) = 2 →
    ∃ t, exec (.pwrReqOn q v) s = .next t ∧
      t.power.reqs = [⟨bits v.toNat 0 7, 1, [], [bits v.toNat 0 7]⟩] ∧
      t.fv PWR_REQ_STAT PWR_REQ_STAT.BUSY = 1 ∧ t.fv PWR_REQ_STAT PWR_REQ_STAT.DOMAIN = bits v.toNat 0 7 ∧ t.fv PWR_REQ_STAT PWR_REQ_STAT.PHASE = 3 ∧
      s.answered t q cOK [] false ∧
      s.sameRegs t [PWR_REQ, PWR_REQ_STAT] ∧
      t.mem = s.mem ∧ t.memc = s.memc ∧ t.out = s.out ∧ t.cores = s.cores ∧ t.clusters = s.clusters) ∧
  (∀ (s : State) (q : Req) (v : Word) (a : Nat),
    s.devOpen q 2 = true ∧ pwrAdmit (bits v.toNat 0 7) 3 s = a ∧ a ≠ cOK →
    ∃ t, exec (.pwrReqOff q v) s = .next t ∧
      s.answered t q a [] false ∧
      s.sameRegs t [GLB_CFG_ERR (reqIx q)] ∧
      t.power = s.power ∧ t.dev.drainCl = s.dev.drainCl ∧ t.mem = s.mem) ∧
  (∀ (s : State) (d : BitVec 7) (row : Fin 4) (r : PwrReq) (c : Cl),
    s.power.reqs = [r] ∧ r.domain = d.toNat ∧ r.domain = c.val ∧ r.action = 2 ∧ (s.cluster c.val).fused = false ∧ drained c.val s = true ∧ (s.cluster c.val).fences = [] ∧ s.clPwr c.val < 2 ∧ s.logRoom 2 →
    (clSlots c.val).all (fun p => !lrnEn p s) = true →
    ∃ t, exec (.pwrDrainEnd d row) s = .next t ∧
      t.clPwr c.val = 2 ∧ t.power.reqs = [] ∧ c.val ∉ t.dev.drainCl ∧
      ((∀ k : Sl, coreState (pcid c k) t = stOff ∧ t.core (pcid c k) = {}) ∧ (t.cluster c.val).journal = []) ∧
      (∀ (k : Sl) (o : Nat), o < 0x28000 → t.rdB (sramBase (pcid c k) + o) = 0) ∧
      (∀ a, a < sramBase (32 * c.val) ∨ sramBase (32 * c.val) + 0x800000 ≤ a → t.rdB a = s.rdB a) ∧
      t.fv PWR_REQ_STAT PWR_REQ_STAT.BUSY = 0 ∧ t.fv PWR_REQ_STAT PWR_REQ_STAT.CODE = cOK ∧ t.rd GLB_FPM_GEN = (s.rd GLB_FPM_GEN + 2) % 2 ^ 32 ∧
      t.memc = s.memc ∧ t.pers = s.pers ∧ t.cpl = s.cpl ∧ t.out = s.out) ∧
  (∀ (s : State) (d : BitVec 7) (row : Fin 4) (r : PwrReq) (c : Cl),
    s.power.reqs = [r] ∧ r.domain = d.toNat ∧ r.domain = c.val ∧ r.action = 3 ∧ (s.cluster c.val).fused = false ∧ drained c.val s = true ∧ (s.cluster c.val).fences = [] ∧ s.clPwr c.val < 2 →
    ∃ t, exec (.pwrDrainEnd d row) s = .next t ∧
      t.clPwr c.val = 3 ∧ t.power.reqs = [] ∧ c.val ∉ t.dev.drainCl ∧
      ((∀ k : Sl, coreState (pcid c k) t = stOff) ∧ (t.cluster c.val).synOff = List.range 17) ∧
      (∀ a, segBase c.val 0 ≤ a ∧ a < segBase c.val 0 + 0x2200000 → t.rdB a = 0) ∧
      t.fv PWR_REQ_STAT PWR_REQ_STAT.BUSY = 0 ∧ t.fv PWR_REQ_STAT PWR_REQ_STAT.CODE = cOK ∧
      t.memc = s.memc ∧ t.pers = s.pers ∧ t.cpl = s.cpl ∧ t.out = s.out) ∧
  (∀ (s : State) (d : BitVec 7) (r : PwrReq),
    s.power.reqs = [r] ∧ r.domain = d.toNat ∧ r.action ≥ 2 ∧ s.logRoom 1 →
    ∃ t, exec (.pwrDrainTimeout d) s = .next t ∧
      t.power.reqs = [] ∧ t.fv PWR_REQ_STAT PWR_REQ_STAT.BUSY = 0 ∧ t.fv PWR_REQ_STAT PWR_REQ_STAT.CODE = cTIMEOUT ∧ t.rd PWR_DRAIN_FAIL = min (s.rd PWR_DRAIN_FAIL + 1) (2 ^ 32 - 1) ∧
      (∀ c : Cl, c.val ∉ present (domCls r.domain) s ∨ (c.val ∉ t.dev.drainCl ∧ (t.cluster c.val).noInject = false)) ∧
      s.sameRegs t [PWR_REQ_STAT, PWR_DRAIN_FAIL] ∧
      s.logged t 6 none [s.rd PWR_FEED_STAT, t.rd PWR_REQ_STAT, 0] ∧
      t.mem = s.mem ∧ t.memc = s.memc ∧ t.cpl = s.cpl ∧ t.out = s.out ∧ t.cores = s.cores) ∧
  (∀ (s : State) (d : BitVec 7) (row : Fin 4) (r : PwrReq) (c : Cl),
    s.power.reqs = [r] ∧ r.domain = d.toNat ∧ r.domain = c.val ∧ r.action = 1 ∧ s.clusters = [] ∧ s.clPwr c.val ≥ 2 ∧ s.logRoom 2 →
    ∃ t, exec (.pwrJoinEnd d row ⟨[], [], [], []⟩ []) s = .next t ∧
      (t.clPwr c.val = 0 ∧ t.power.reqs = [] ∧ (∀ k : Sl, coreState (pcid c k) t = stIdle ∧ halted (pcid c k) t = true)) ∧
      t.fv PWR_REQ_STAT PWR_REQ_STAT.BUSY = 0 ∧ t.fv PWR_REQ_STAT PWR_REQ_STAT.CODE = cOK ∧ t.rd GLB_FPM_GEN = (s.rd GLB_FPM_GEN + 2) % 2 ^ 32 ∧
      t.mem = s.mem ∧ t.memc = s.memc ∧ t.cpl = s.cpl ∧ t.out = s.out ∧ t.cores = s.cores)

/-- Reference clocks, feeds and throttles set their status, records and clock requests. The loss of the selected reference is counted and recorded as a class 0xD fault; with both gone the device holds over and its event ports and host link are down; a return ends that. A bad feed moves the load to the other, with a fault record; both bad run on hold-up; a returning feed takes the load and marks LOSS. A throttle in force makes THROT show it and asks each cluster of the partition for half clock; its release asks for full clock. A stuck SB_SCL releases SB_SDA. Rests on: R424, R426, R434, R435, R524, R525, R526, R528. -/
def Obligations.ClocksFeedsAndTemperatures : Prop :=
  (∀ (s : State) (x : Bool),
    s.fb CLK_STATUS (refFld x) = true ∧ s.fb CLK_STATUS (refFld !x) = true ∧ s.fb CLK_SRC CLK_SRC.SRC = x ∧ s.logRoom 1 →
    ∃ t, exec (.clockRefLoss x) s = .next t ∧
      t.fb CLK_STATUS (refFld x) = false ∧ t.rd CLK_REF_LOSS = min (s.rd CLK_REF_LOSS + 1) (2 ^ 32 - 1) ∧ t.fb CLK_STATUS CLK_STATUS.HOLDOVER = s.fb CLK_STATUS CLK_STATUS.HOLDOVER ∧
      bits ((t.dev.frecs.headD []).headD 0) 0 8 = 0xD ∧ t.dev.frecs.length = min (s.dev.frecs.length + 1) 64 ∧ t.logIn.length = s.logIn.length + 1 ∧
      s.sameRegs t [CLK_STATUS, CLK_REF_LOSS, RAS_FREC_CNT, RAS_CNT_MASKED] ∧
      t.mem = s.mem ∧ t.memc = s.memc ∧ t.cpl = s.cpl ∧ t.out = s.out) ∧
  (∀ (s : State) (x : Bool),
    s.fb CLK_STATUS (refFld x) = true ∧ s.fb CLK_STATUS (refFld !x) = false →
    ∃ t, exec (.clockRefLoss x) s = .next t ∧
      t.fb CLK_STATUS (refFld x) = false ∧ t.fb CLK_STATUS CLK_STATUS.HOLDOVER = true ∧
      t.fv (ETH_STATUS 0) ETH_STATUS.UP = 0 ∧ t.fv (ETH_STATUS 1) ETH_STATUS.UP = 0 ∧ t.fv HOST_LINK HOST_LINK.UP = 0 ∧
      t.mem = s.mem ∧ t.memc = s.memc ∧ t.cpl = s.cpl ∧ t.out = s.out) ∧
  (∀ (s : State) (x : Bool),
    ∃ t, exec (.clockRefReturn x) s = .next t ∧
      t.fb CLK_STATUS (refFld x) = true ∧ t.fb CLK_STATUS CLK_STATUS.HOLDOVER = false ∧
      s.sameRegs t [CLK_STATUS] ∧
      t = { s with regs := t.regs }) ∧
  (∀ (s : State) (x : Bool),
    s.fb PWR_FEED_STAT (if x then PWR_FEED_STAT.A_OK else PWR_FEED_STAT.B_OK) = true ∧ s.fb PWR_FEED_STAT PWR_FEED_STAT.ON_B = x ∧ s.logRoom 2 →
    ∃ t, exec (.feedBad x) s = .next t ∧
      t.fb PWR_FEED_STAT (if x then PWR_FEED_STAT.B_OK else PWR_FEED_STAT.A_OK) = false ∧ t.fb PWR_FEED_STAT (if x then PWR_FEED_STAT.B_SEEN_BAD else PWR_FEED_STAT.A_SEEN_BAD) = true ∧ t.fb PWR_FEED_STAT PWR_FEED_STAT.ON_B = !x ∧
      t.rd PWR_FEED_SW = min (s.rd PWR_FEED_SW + 1) (2 ^ 32 - 1) ∧ bits ((t.dev.frecs.headD []).headD 0) 0 8 = 0xC ∧ t.logIn.length = s.logIn.length + 2 ∧
      s.sameRegs t [PWR_FEED_STAT, PWR_FEED_SW, RAS_FREC_CNT, RAS_CNT_MASKED] ∧
      t.mem = s.mem ∧ t.memc = s.memc ∧ t.cpl = s.cpl ∧ t.out = s.out) ∧
  (∀ (s : State) (x : Bool),
    s.fb PWR_FEED_STAT (if x then PWR_FEED_STAT.A_OK else PWR_FEED_STAT.B_OK) = false →
    ∃ t, exec (.feedBad x) s = .next t ∧
      t.fb PWR_FEED_STAT PWR_FEED_STAT.HOLDUP = true ∧ t.fb PWR_FEED_STAT (if x then PWR_FEED_STAT.B_OK else PWR_FEED_STAT.A_OK) = false ∧
      s.sameRegs t [PWR_FEED_STAT] ∧
      t = { s with regs := t.regs }) ∧
  (∀ (s : State) (x : Bool),
    s.fb PWR_FEED_STAT PWR_FEED_STAT.HOLDUP = true ∧ s.logRoom 1 →
    ∃ t, exec (.feedGood x) s = .next t ∧
      t.fb PWR_FEED_STAT (if x then PWR_FEED_STAT.B_OK else PWR_FEED_STAT.A_OK) = true ∧ t.fb PWR_FEED_STAT PWR_FEED_STAT.HOLDUP = false ∧ t.fb PWR_FEED_STAT PWR_FEED_STAT.LOSS = true ∧ t.fb PWR_FEED_STAT PWR_FEED_STAT.ON_B = x ∧ t.power.lossRec = false ∧
      s.logged t 6 none [t.rd PWR_FEED_STAT, s.rd PWR_REQ_STAT, 0] ∧
      s.sameRegs t [PWR_FEED_STAT, PWR_FEED_SW] ∧
      t.mem = s.mem ∧ t.memc = s.memc ∧ t.cpl = s.cpl ∧ t.out = s.out) ∧
  (∀ (s : State) (x : Bool),
    s.fb PWR_FEED_STAT PWR_FEED_STAT.HOLDUP = false →
    ∃ t, exec (.feedGood x) s = .next t ∧
      t.fb PWR_FEED_STAT (if x then PWR_FEED_STAT.B_OK else PWR_FEED_STAT.A_OK) = true ∧ t.fb PWR_FEED_STAT PWR_FEED_STAT.ON_B = s.fb PWR_FEED_STAT PWR_FEED_STAT.ON_B ∧
      s.sameRegs t [PWR_FEED_STAT] ∧
      t = { s with regs := t.regs }) ∧
  (∀ (s : State),
    s.fb PWR_FEED_STAT PWR_FEED_STAT.A_OK = true ∧ s.fb PWR_FEED_STAT PWR_FEED_STAT.ON_B = true ∧ s.fb PWR_FEED_CTRL PWR_FEED_CTRL.STICKY = false ∧ s.logRoom 1 →
    ∃ t, exec (.feedSwitchBack) s = .next t ∧
      t.fb PWR_FEED_STAT PWR_FEED_STAT.ON_B = false ∧ t.rd PWR_FEED_SW = min (s.rd PWR_FEED_SW + 1) (2 ^ 32 - 1) ∧
      s.logged t 6 none [t.rd PWR_FEED_STAT, s.rd PWR_REQ_STAT, 0] ∧
      s.sameRegs t [PWR_FEED_STAT, PWR_FEED_SW] ∧
      t.mem = s.mem ∧ t.cpl = s.cpl ∧ t.out = s.out) ∧
  (∀ (s : State) (p : Fin 4),
    s.fb MGT_THERM_CTRL MGT_THERM_CTRL.EN = true ∧ s.fv MGT_THERM_CTRL MGT_THERM_CTRL.TPT * 8 ≤ sensor (1 + p.val) s ∧ s.power.thr.contains p.val = false ∧ s.logRoom 1 →
    ∃ t, exec (.thermalThrottleEnter (some p)) s = .next t ∧
      bit (t.fv MGT_THERM_STAT MGT_THERM_STAT.THROT) p.val = true ∧ p.val ∈ t.power.thr ∧ t.rd MGT_THERM_CNT = min (s.rd MGT_THERM_CNT + 1) (2 ^ 32 - 1) ∧
      (∀ c : Cl, partOf c.val ≠ p.val ∨ (s.cluster c.val).fused = true ∨ (t.power.half.contains c.val || t.power.halfReq.contains (c.val, true)) = true) ∧
      s.logged t 0x0F none [1 + p.val, s.fv (MGT_SENS (1 + p.val)) MGT_SENS.VALUE, 3] ∧
      s.sameRegs t [MGT_THERM_STAT, MGT_THERM_CNT] ∧
      t.mem = s.mem ∧ t.memc = s.memc ∧ t.cpl = s.cpl ∧ t.out = s.out) ∧
  (∀ (s : State),
    840 ≤ sensor 0 s ∧ s.fb MGT_THERM_STAT MGT_THERM_STAT.DEVTHR = false ∧ s.logRoom 1 →
    ∃ t, exec (.thermalThrottleEnter none) s = .next t ∧
      t.fv MGT_THERM_STAT MGT_THERM_STAT.DEVTHR = 1 ∧ t.fv MGT_THERM_STAT MGT_THERM_STAT.THROT = 15 ∧ t.rd MGT_THERM_CNT = min (s.rd MGT_THERM_CNT + 1) (2 ^ 32 - 1) ∧
      (∀ c : Cl, (s.cluster c.val).fused = true ∨ (t.power.half.contains c.val || t.power.halfReq.contains (c.val, true)) = true) ∧
      s.logged t 0x0F none [0, s.fv (MGT_SENS 0) MGT_SENS.VALUE, 3] ∧
      s.sameRegs t [MGT_THERM_STAT, MGT_THERM_CNT] ∧
      t.mem = s.mem ∧ t.memc = s.memc ∧ t.cpl = s.cpl ∧ t.out = s.out) ∧
  (∀ (s : State) (p : Fin 4),
    sensor (1 + p.val) s < (s.fv MGT_THERM_CTRL MGT_THERM_CTRL.TPT * 8 : Nat) - 40 ∧ s.fb MGT_THERM_STAT MGT_THERM_STAT.DEVTHR = false ∧ s.fv MGT_THERM_CTRL MGT_THERM_CTRL.TPT ≥ 1 →
    ∃ t, exec (.thermalThrottleRelease (some p)) s = .next t ∧
      bit (t.fv MGT_THERM_STAT MGT_THERM_STAT.THROT) p.val = false ∧ p.val ∉ t.power.thr ∧
      (∀ c : Cl, partOf c.val ≠ p.val ∨ (s.cluster c.val).fused = true ∨ t.power.half.contains c.val = false ∨ t.power.halfReq.contains (c.val, false) = true) ∧
      s.sameRegs t [MGT_THERM_STAT] ∧
      t = { s with regs := t.regs, power := { s.power with thr := t.power.thr, halfReq := t.power.halfReq } }) ∧
  (∀ (s : State),
    sensor 0 s < 800 →
    ∃ t, exec (.thermalThrottleRelease none) s = .next t ∧
      t.fv MGT_THERM_STAT MGT_THERM_STAT.DEVTHR = 0 ∧
      s.sameRegs t [MGT_THERM_STAT] ∧
      t = { s with regs := t.regs, power := { s.power with halfReq := t.power.halfReq } }) ∧
  (∀ (s : State),
    ∃ t, exec (.sidebandSclTimeout) s = .next t ∧
      t.pin pinSB_SDA = true ∧ t.out = .pin pinSB_SDA true :: s.out ∧
      t = { s with out := t.out, dev := { s.dev with pins := t.dev.pins } })

/-- A cluster rewind takes the spare over, degrades without one; migration, duplicate logic and the fault window act on their own state. A failed core of a protected cluster with a good spare slot, whose journal is empty: the spare takes its LCID, segment and slot-table entry, the failed slot is Off and out of the map, the takeover and rewind are counted, the rewind of its step begins with the 16 positions held. With rewinds disabled or no spare the position becomes invalid and the cluster Degraded. Segment migration copies to the spare segment; duplicated logic is retried once, then Fault-Hold 7; the fault window shows the selected record. Rests on: R34, R249, R444, R445, R446, R447, R451, R452, R456, R460. -/
def Obligations.ClusterFailsOverToItsSpare : Prop :=
  (∀ (s : State) (c : Cl) (k n : Sl),
    (s.lcid (pcid c k)).isSome = true ∧ s.slotGone (pcid c k) = false ∧ s.faulted (pcid c k) = true →
    s.fb (CLA_FO_CTRL c.val) CLA_FO_CTRL.EN = true ∧ (s.cluster c.val).rewind = none ∧ spareSlot c.val s = some n.val ∧ n ≠ k ∧ s.segOf (pcid c k) = some k.val ∧ slotOf c.val k.val s = some k.val →
    (s.cluster c.val).journal = [] ∧ (s.cluster c.val).mask = [] ∧ lrnEn (pcid c k) s = false ∧ (s.core (pcid c k)).q.taken = [] ∧ (s.core (pcid c k)).q.inBuf = [] ∧ (s.core (pcid c k)).q.held = [] →
    ∃ t, exec (.clusterRewindStart c k .sram) s = .next t ∧
      t.lcid (pcid c n) = s.lcid (pcid c k) ∧ t.lcid (pcid c k) = none ∧
      t.segOf (pcid c n) = some k.val ∧ t.segOf (pcid c k) = none ∧
      (t.fv (CLA_SLOTTAB c.val ((s.lcid (pcid c k)).getD 0 % 16)) CLA_SLOTTAB.SLOT = n.val ∧ (∀ j : Fin 16, t.fv (CLA_SLOTTAB c.val j.val) CLA_SLOTTAB.HOLD = 1)) ∧
      coreState (pcid c k) t = stOff ∧ (t.cluster c.val).failed.contains k.val = true ∧ (t.cluster c.val).noInject = true ∧
      t.rd (CLA_FO_TAKEOVER c.val) = min (s.rd (CLA_FO_TAKEOVER c.val) + 1) (2 ^ 32 - 1) ∧ t.rd (CLA_FO_REWIND c.val) = min (s.rd (CLA_FO_REWIND c.val) + 1) (2 ^ 32 - 1) ∧
      foState c.val t = foRewinding ∧ t.fv (CLA_FO_STAT c.val) CLA_FO_STAT.SPSLOT = 0 ∧
      (t.cluster c.val).rewind.isSome = true ∧
      t.memc = s.memc ∧ t.pers = s.pers ∧ t.cpl = s.cpl ∧ t.logIn = s.logIn) ∧
  (∀ (s : State) (c : Cl) (k : Sl),
    (s.lcid (pcid c k)).isSome = true ∧ s.slotGone (pcid c k) = false ∧ s.fb (CLA_FO_CTRL c.val) CLA_FO_CTRL.EN = false ∧ s.logRoom 2 →
    (s.core (pcid c k)).q.taken = [] ∧ posQueue (pcid c k) s = [] ∧ (s.cluster c.val).spill = [] →
    ∃ t, exec (.clusterRewindStart c k .spares) s = .next t ∧
      t.fv (CLA_SLOTTAB c.val ((s.lcid (pcid c k)).getD 0 % 16)) CLA_SLOTTAB.VALID = 0 ∧ foState c.val t = foDegraded ∧
      coreState (pcid c k) t = stOff ∧ (t.cluster c.val).failed.contains k.val = true ∧
      bits ((t.dev.frecs.headD []).headD 0) 0 10 = 0x201 ∧ t.rd GLB_FPM_GEN = (s.rd GLB_FPM_GEN + 2) % 2 ^ 32 ∧ t.logIn.length = s.logIn.length + 2 ∧
      t.mem = s.mem ∧ t.memc = s.memc ∧ t.pers = s.pers ∧ t.cpl = s.cpl) ∧
  (∀ (s : State) (c : Cl) (k : Sl),
    (s.clParts c.val).contains (pcid c k) = true ∧ (s.core (pcid c k)).phase = .walked ∧ pendOcc (pcid c k) s ≠ 0 ∧ s.slotGone (pcid c k) = false →
    s.fb (CLA_FO_CTRL c.val) CLA_FO_CTRL.EN = true ∧ (s.cluster c.val).rewind = none ∧ spareSlot c.val s = none ∧ (s.cluster c.val).journal = [] ∧ (s.core (pcid c k)).q.taken = [] →
    ∃ t, exec (.coreHangTimeout c k) s = .next t ∧
      foState c.val t = foDegraded ∧ coreState (pcid c k) t = stOff ∧ (t.cluster c.val).failed.contains k.val = true ∧
      t.fv (CLA_SLOTTAB c.val ((s.lcid (pcid c k)).getD 0 % 16)) CLA_SLOTTAB.VALID = 0 ∧ t.rd (CLA_FO_REWIND c.val) = min (s.rd (CLA_FO_REWIND c.val) + 1) (2 ^ 32 - 1) ∧ t.rd (CLA_FO_TAKEOVER c.val) = s.rd (CLA_FO_TAKEOVER c.val) ∧
      ((t.cluster c.val).rewind.map (·.step)) = some (cur (pcid c k) s) ∧ ((t.cluster c.val).rewind.map (·.wasOpen)) = some true ∧
      t.memc = s.memc ∧ t.pers = s.pers ∧ t.cpl = s.cpl) ∧
  (∀ (s : State) (c : Cl) (g d : Sl),
    spareSeg c.val s = some d.val ∧ bit (s.fv (CLA_SEG_FAILING c.val) CLA_SEG_FAILING.FAIL) g.val = true ∧ foState c.val s = foProtected ∧ (s.cluster c.val).migrate = none ∧ s.segOf (pcid c g) = some g.val →
    ∃ t, exec (.segmentMigrationStart c g) s = .next t ∧
      (t.cluster c.val).migrate = some ⟨g.val, d.val, false, s.rd64 TIME64⟩ ∧ foState c.val t = foMigrating ∧
      (∀ k : Cl, k = c ∨ t.cluster k.val = s.cluster k.val) ∧
      s.sameRegs t [CLA_FO_STAT c.val, RAS_STAT] ∧
      t = { s with regs := t.regs, clusters := t.clusters }) ∧
  (∀ (s : State) (c : Cl) (g d : Sl) (n : Nat),
    (s.cluster c.val).migrate = some ⟨g.val, d.val, false, n⟩ ∧ g ≠ d →
    ∃ t, exec (.migrationCopyDone c) s = .next t ∧
      (t.cluster c.val).migrate = some ⟨g.val, d.val, true, n⟩ ∧
      (∀ o, o < 0x180000 → t.rdB (segBase c.val d.val + o) = s.rdB (segBase c.val g.val + o)) ∧
      s.sameMemOut t (segBase c.val d.val) 0x180000 ∧
      t = { s with mem := t.mem, clusters := t.clusters }) ∧
  (∀ (s : State) (u : Byte),
    s.logRoom 1 →
    ∃ t, exec (.dupLogicMismatch u true) s = .next t ∧
      t.rd RAS_CNT_DUP = min (s.rd RAS_CNT_DUP + 1) (2 ^ 32 - 1) ∧ bits ((t.dev.frecs.headD []).headD 0) 0 10 = 0x0E ∧ t.dev.dupRetry = s.dev.dupRetry ∧
      s.sameRegs t [RAS_CNT_DUP, RAS_FREC_CNT, RAS_CNT_MASKED] ∧
      t.mem = s.mem ∧ t.memc = s.memc ∧ t.cpl = s.cpl ∧ t.out = s.out) ∧
  (∀ (s : State) (u : Byte),
    s.dev.dupRetry.contains u.toNat = false →
    ∃ t, exec (.dupLogicMismatch u false) s = .next t ∧
      t.dev.dupRetry = s.dev.dupRetry ++ [u.toNat] ∧
      t = { s with dev := { s.dev with dupRetry := t.dev.dupRetry } }) ∧
  (∀ (s : State) (u : Byte),
    s.dev.dupRetry.contains u.toNat = true ∧ s.power.standbyPend = false →
    ∃ t, exec (.dupLogicMismatch u false) s = .next t ∧
      t.devState = dsFaultHold ∧ t.fv MGT_BOOT_STAT MGT_BOOT_STAT.FHCAUSE = 7 ∧ bits ((t.dev.frecs.headD []).headD 0) 0 10 = 0x30E ∧
      t.mem = s.mem ∧ t.memc = s.memc ∧ t.cpl = s.cpl ∧ t.pers = s.pers) ∧
  (∀ (s : State) (q : Req) (v : Word),
    s.devOpen q 0 = true →
    ∃ t, exec (.rasFrecSelect q v) s = .next t ∧
      (t.fv (RAS_FREC_SEL (reqIx q)) RAS_FREC_SEL.IDX = bits v.toNat 0 6 ∧ (∀ k : Fin 8, t.rd (RAS_FREC_DATA (reqIx q) k.val) = ((s.dev.frecs.getD (bits v.toNat 0 6) []).getD k.val 0) % 2 ^ 32)) ∧
      s.answered t q cOK [] false ∧
      s.sameRegs t (RAS_FREC_SEL (reqIx q) :: (List.range 8).map (RAS_FREC_DATA (reqIx q))) ∧
      t = { s with regs := t.regs, cpl := t.cpl }) ∧
  (∀ (s : State) (j : InstNo) (v : Word),
    s.gateOpen (.vf j) 0 = true ∧ (s.dev.frecs.getD (bits v.toNat 0 6) []) ≠ [] ∧ bits ((s.dev.frecs.getD (bits v.toNat 0 6) []).getD 1 0) 12 4 ≠ j.val →
    ∃ t, exec (.rasFrecSelect (.vf j) v) s = .next t ∧
      (∀ k : Fin 8, t.rd (RAS_FREC_DATA (reqIx (.vf j)) k.val) = 0) ∧
      s.answered t (.vf j) cOK [] false ∧
      t = { s with regs := t.regs, cpl := t.cpl }) ∧
  (∀ (s : State) (b : Fin 8),
    s.net.bandsDown.contains b.val = true →
    ∃ t, exec (.bandSupervisorRecover b) s = .next t ∧
      (t.net.bandsDown.contains b.val = false ∧ (∀ d : Fin 8, d = b ∨ t.net.bandsDown.contains d.val = s.net.bandsDown.contains d.val)) ∧
      s.sameRegs t [RAS_STAT] ∧
      t = { s with regs := t.regs, net := { s.net with bandsDown := t.net.bandsDown } })

/-- Creating, resetting, clearing and destroying an instance, with the fence between, moves it through the instance states Free to Clearing. CREATE makes a Free instance Active. RESET of an Active instance without clusters whose new generation was never used stops it, raises its generation and ends Active at once with a RESET record; after a wrap with a live item it waits in Fencing. CLEAR and DESTROY go on to Clearing; the clear ends in Active, or Free with its ownership dropped, keys gone and measurement zeros. A fence timeout completes TIMEOUT and stays Fencing. A clear that a tenant asked for unlocks its interface and answers the tenant when it ends. A command for an instance in the wrong state answers BAD_ARG or RETRY. Rests on: R469, R470, R473, R475, R476. -/
def Obligations.InstanceCommandsRunTheirCourse : Prop :=
  (∀ (s : State) (q : Req) (v : Word),
    s.devOpen q 0 = true ∧ bit v.toNat 4 = false ∧ siState (bits v.toNat 0 4) s = 0 ∧ s.fb (SEC_INST_RES (reqIx q)) SEC_INST_RES.BUSY = false →
    ∃ t, exec (.instCreate q v) s = .next t ∧
      siState (bits v.toNat 0 4) t = 1 ∧ t.rd (SEC_INST_RES (reqIx q)) = bits v.toNat 0 4 * 2 ^ 4 ∧
      s.answered t q cOK [] false ∧
      s.sameRegs t [SEC_INST (bits v.toNat 0 4), SEC_INST_RES (reqIx q), SEC_INST_CMD (reqIx q)] ∧
      t = { s with regs := t.regs, cpl := t.cpl }) ∧
  (∀ (s : State) (q : Req) (v : Word),
    s.devOpen q 0 = true ∧ bit v.toNat 4 = true ∧ s.fb (SEC_INST_RES (reqIx q)) SEC_INST_RES.BUSY = false →
    (List.range 16).all (fun j => siState j s == 1) = true →
    ∃ t, exec (.instCreate q v) s = .next t ∧
      s.answered t q cFULL [] false ∧
      s.sameRegs t [SEC_INST_RES (reqIx q), SEC_INST_CMD (reqIx q), GLB_CFG_ERR (reqIx q)] ∧ t.mem = s.mem) ∧
  (∀ (s : State) (q : Req) (v : Word),
    s.devOpen q 0 = true ∧ siState (bits v.toNat 0 4) s = 1 ∧ s.fb (SEC_INST_RES (reqIx q)) SEC_INST_RES.BUSY = false →
    s.fb (SEC_INST (bits v.toNat 0 4)) SEC_INST.WRAPPED = false ∧ s.gen (bits v.toNat 0 4) ≠ 255 ∧ s.instClusters (bits v.toNat 0 4) = [] →
    ∃ t, exec (.instReset q v) s = .next t ∧
      siState (bits v.toNat 0 4) t = 1 ∧ t.gen (bits v.toNat 0 4) = s.gen (bits v.toNat 0 4) + 1 ∧ stepState (bits v.toNat 0 4) t = stStopped ∧
      t.rd (SEC_INST_RES (reqIx q)) = bits v.toNat 0 4 * 2 ^ 4 ∧ instCmd (bits v.toNat 0 4) t = none ∧
      s.answered t q cOK [] false ∧
      t.memc = s.memc ∧ t.pers = s.pers) ∧
  (∀ (s : State) (q : Req) (v : Word),
    s.devOpen q 0 = true ∧ siState (bits v.toNat 0 4) s = 0 ∧ s.fb (SEC_INST_RES (reqIx q)) SEC_INST_RES.BUSY = false →
    ∃ t, exec (.instReset q v) s = .next t ∧
      s.answered t q cBAD_ARG [] false ∧
      s.sameRegs t [SEC_INST_RES (reqIx q), SEC_INST_CMD (reqIx q), GLB_CFG_ERR (reqIx q)] ∧ t.mem = s.mem ∧ t.insts = s.insts) ∧
  (∀ (s : State) (q : Req) (v : Word),
    s.devOpen q 0 = true ∧ siState (bits v.toNat 0 4) s = 1 ∧ s.fb (SEC_INST_RES (reqIx q)) SEC_INST_RES.BUSY = false →
    s.fb (SEC_INST (bits v.toNat 0 4)) SEC_INST.WRAPPED = true ∧ liveItem (bits v.toNat 0 4) ((s.gen (bits v.toNat 0 4) + 1) % 256) s = true ∧ s.instClusters (bits v.toNat 0 4) = [] ∧ s.power.standbyPend = false →
    ∃ t, exec (.instReset q v) s = .next t ∧
      siState (bits v.toNat 0 4) t = 3 ∧ t.gen (bits v.toNat 0 4) = (s.gen (bits v.toNat 0 4) + 1) % 256 ∧ t.rd (SEC_INST_RES (reqIx q)) = 1 + bits v.toNat 0 4 * 2 ^ 4 ∧
      s.answered t q cOK [] false ∧
      t.memc = s.memc ∧ t.pers = s.pers) ∧
  (∀ (s : State) (q : Req) (v : Word),
    s.devOpen q 0 = true ∧ siState (bits v.toNat 0 4) s = 1 ∧ s.fb (SEC_INST_RES (reqIx q)) SEC_INST_RES.BUSY = false →
    s.fb (SEC_INST (bits v.toNat 0 4)) SEC_INST.WRAPPED = false ∧ s.gen (bits v.toNat 0 4) ≠ 255 ∧ s.instClusters (bits v.toNat 0 4) = [] ∧ s.power.standbyPend = false →
    ∃ t, exec (.instClear q v) s = .next t ∧
      siState (bits v.toNat 0 4) t = 4 ∧ t.gen (bits v.toNat 0 4) = s.gen (bits v.toNat 0 4) + 1 ∧ (instCmd (bits v.toNat 0 4) t).map (·.op) = some 3 ∧ t.rd (SEC_INST_RES (reqIx q)) = 1 + bits v.toNat 0 4 * 2 ^ 4 ∧
      s.answered t q cOK [] false ∧
      t.memc = s.memc ∧ t.pers = s.pers) ∧
  (∀ (s : State) (q : Req) (v : Word),
    s.devOpen q 0 = true ∧ siState (bits v.toNat 0 4) s = 1 ∧ s.fb (SEC_INST_RES (reqIx q)) SEC_INST_RES.BUSY = false →
    s.fb (SEC_INST (bits v.toNat 0 4)) SEC_INST.WRAPPED = false ∧ s.gen (bits v.toNat 0 4) ≠ 255 ∧ s.instClusters (bits v.toNat 0 4) = [] ∧ s.power.standbyPend = false →
    ∃ t, exec (.instDestroy q v) s = .next t ∧
      siState (bits v.toNat 0 4) t = 4 ∧ (instCmd (bits v.toNat 0 4) t).map (·.op) = some 4 ∧ t.rd (SEC_INST_RES (reqIx q)) = 1 + bits v.toNat 0 4 * 2 ^ 4 ∧
      s.answered t q cOK [] false ∧
      t.memc = s.memc ∧ t.pers = s.pers) ∧
  (∀ (s : State) (i : InstNo) (c : InstCmd),
    siState i.val s = 3 ∧ liveItem i.val (s.gen i.val) s = false ∧ s.pat.cur = none ∧ s.fb (PAT_INST i.val) PAT_INST.STATE = false →
    instCmd i.val s = some c ∧ c.op = 2 ∧ c.who = some 2 ∧ c.timedOut = false ∧ c.resp = none ∧ s.logRoom 1 →
    ∃ t, exec (.instFenceEnd i) s = .next t ∧
      siState i.val t = 1 ∧ instCmd i.val t = none ∧ t.rd (SEC_INST_RES 2) = i.val * 2 ^ 4 ∧
      (tdi i.val t = (if tdi i.val s = 1 ∨ tdi i.val s = 2 then 3 else tdi i.val s)) ∧
      s.logged t 2 (some i.val) [3, s.rd MGT_RST_STAT] ∧
      s.sameRegs t [SEC_INST i.val, SEC_INST_RES 2] ∧
      t.mem = s.mem ∧ t.memc = s.memc ∧ t.cpl = s.cpl ∧ t.out = s.out) ∧
  (∀ (s : State) (i : InstNo) (c : InstCmd),
    siState i.val s = 3 ∧ liveItem i.val (s.gen i.val) s = false ∧ s.pat.cur = none ∧ s.fb (PAT_INST i.val) PAT_INST.STATE = false →
    instCmd i.val s = some c ∧ c.op ≠ 2 →
    ∃ t, exec (.instFenceEnd i) s = .next t ∧
      siState i.val t = 4 ∧ instCmd i.val t = some c ∧
      s.sameRegs t [SEC_INST i.val] ∧
      t.mem = s.mem ∧ t.memc = s.memc ∧ t.cpl = s.cpl ∧ t.out = s.out ∧ t.logIn = s.logIn) ∧
  (∀ (s : State) (i : InstNo) (c : InstCmd),
    siState i.val s = 3 ∧ instCmd i.val s = some c ∧ c.who = some 2 ∧ c.timedOut = false ∧ c.resp = none ∧ s.logRoom 1 →
    ∃ t, exec (.instFenceTimeout i) s = .next t ∧
      siState i.val t = 3 ∧ t.rd (SEC_INST_RES 2) = i.val * 2 ^ 4 + cTIMEOUT * 2 ^ 8 ∧ instCmd i.val t = some { c with timedOut := true } ∧
      s.logged t 2 (some i.val) [3, s.rd MGT_RST_STAT] ∧
      s.sameRegs t [SEC_INST_RES 2] ∧
      t.mem = s.mem ∧ t.memc = s.memc ∧ t.cpl = s.cpl ∧ t.out = s.out) ∧
  (∀ (s : State) (i : InstNo) (c : InstCmd),
    siState i.val s = 4 ∧ instCmd i.val s = some c ∧ c.who = some 2 ∧ c.timedOut = false ∧ c.resp = none ∧ c.op = 3 ∧ s.fb (PAT_INST i.val) PAT_INST.STATE = false ∧ s.fb (SEC_INST i.val) SEC_INST.CLAIMED = false →
    s.fb (MEMC_WIN i.val) MEMC_WIN.EN = false ∧ s.logRoom 1 →
    ∃ t, exec (.instClearDone i) s = .next t ∧
      siState i.val t = 1 ∧ instCmd i.val t = none ∧ t.rd (SEC_INST_RES 2) = i.val * 2 ^ 4 ∧
      (∀ (c : Cl) (a : Nat), s.clInst c.val = some i.val → s.clPwr c.val ≠ 3 → segBase c.val 0 ≤ a → a < segBase c.val 0 + 0x2200000 → t.rdB a = 0) ∧
      (∀ a, shmBase ≤ a → a < shmBase + 0x2000000 → ownsSlice i.val (slSlice (a - shmBase)) s = true → t.rdB a = 0) ∧
      measurement (0x10 + i.val) t = zero48 ∧ t.rd (SEC_EXH i.val) = 0 ∧ t.fb (SEC_INST i.val) SEC_INST.PKEY = false ∧ t.fb (SEC_INST i.val) SEC_INST.SKEY = false ∧
      s.logged t 2 (some i.val) [3, s.rd MGT_RST_STAT] ∧
      t.memc = s.memc ∧ t.cpl = s.cpl ∧ t.out = s.out ∧ t.cores = s.cores) ∧
  (∀ (s : State) (i : InstNo) (c : InstCmd),
    siState i.val s = 4 ∧ instCmd i.val s = some c ∧ c.who = some 2 ∧ c.timedOut = false ∧ c.resp = none ∧ c.op = 4 ∧ c.unlock = true →
    ∃ t, exec (.instClearDone i) s = .next t ∧
      siState i.val t = 0 ∧ instCmd i.val t = none ∧ tdi i.val t = 0 ∧ t.conf i.val = false ∧ claim i.val t = none ∧
      ((∀ n : Fin 256, t.ownsBlk i.val n.val = false) ∧ (∀ x : Fin 64, ownsSlice i.val x.val t = false) ∧ t.fb (MEMC_WIN i.val) MEMC_WIN.EN = false ∧ t.rd64 (PAT_INST_PID i.val) = 0) ∧
      t.rd (SEC_INST_RES 2) = i.val * 2 ^ 4 ∧ t.cpl = s.cpl ∧ t.out = s.out) ∧
  (∀ (s : State) (i : InstNo) (c : InstCmd) (k : Nat) (l : List Nat),
    siState i.val s = 4 ∧ instCmd i.val s = some c ∧ c.who = none ∧ c.timedOut = false ∧ c.resp = some (k, l) ∧ c.op = 3 ∧ c.unlock = true →
    ∃ t, exec (.instClearDone i) s = .next t ∧
      siState i.val t = 1 ∧ instCmd i.val t = none ∧ tdi i.val t = 0 ∧ t.conf i.val = false ∧ claim i.val t = none ∧
      t.out = .mgmt k (l ++ [cOK]) :: s.out ∧ t.cpl = s.cpl)

/-- SPDM requests, claims, tenant keys and TDISP requests of a secured session take effect on the claimed instance and its interface. The session state: a key exchange opens a handshake, FINISH a secured session, END_SESSION or heartbeat loss ends it. In a secured session CLAIM of a stopped Active unclaimed instance binds it and logs it; keys are taken only from the claimant; GET_REPORT answers with the measurement and changes nothing; LOCK makes the interface CONFIG_LOCKED and confidential; START needs an IDE stream that names it; RELEASE, STOP and TDI_DESTROY start the clear, and its end answers them. Message encodings and signatures are the model's choice (log entry 7). Rests on: R464, R466, R467, R468, R473. -/
def Obligations.TenantsClaimLockAndLeave : Prop :=
  (∀ (s : State),
    thimbleBusy s = false ∧ s.sec.sessions.length + s.sec.handshake.length < 8 →
    ∃ t, exec (.spdmRequest (.keyExchange 0)) s = .next t ∧
      t.sec.handshake = s.sec.handshake ++ [s.sec.nextSess] ∧ t.sec.nextSess = s.sec.nextSess + 1 ∧ t.sec.sessions = s.sec.sessions ∧
      t = { s with sec := t.sec, out := t.out } ∧ t.out.length = s.out.length + 1) ∧
  (∀ (s : State) (n : Nat),
    thimbleBusy s = false ∧ s.sec.handshake.contains n = true →
    ∃ t, exec (.spdmRequest (.finish n)) s = .next t ∧
      n ∈ t.sec.sessions ∧ n ∉ t.sec.handshake ∧
      t = { s with sec := { s.sec with handshake := t.sec.handshake, sessions := t.sec.sessions }, out := t.out } ∧ t.out.length = s.out.length + 1) ∧
  (∀ (s : State) (n : Nat),
    thimbleBusy s = false ∧ secured n s = true →
    ∃ t, exec (.spdmRequest (.endSession n)) s = .next t ∧
      n ∉ t.sec.sessions ∧
      t = { s with sec := { s.sec with sessions := t.sec.sessions }, out := t.out } ∧ t.out.length = s.out.length + 1) ∧
  (∀ (s : State) (i : InstNo) (n : Nat),
    thimbleBusy s = false ∧ secured n s = true →
    ∃ t, exec (.spdmRequest (.tdiState n i)) s = .next t ∧
      t = { s with out := .mgmt 0x100 [tdi i.val s] :: s.out }) ∧
  (∀ (s : State) (n : Nat),
    ∃ t, exec (.spdmHeartbeatLoss n) s = .next t ∧
      (n ∉ t.sec.sessions ∧ (∀ m ∈ s.sec.sessions, m = n ∨ m ∈ t.sec.sessions)) ∧
      t = { s with sec := { s.sec with sessions := t.sec.sessions } }) ∧
  (∀ (s : State) (n : Nat) (i : InstNo) (d : List Byte),
    thimbleBusy s = false ∧ secured n s = true ∧ s.fb SEC_STATUS SEC_STATUS.DBG = false ∧ claim i.val s = none ∧ siState i.val s = 1 ∧ stepState i.val s = stStopped ∧ s.logRoom 1 →
    ∃ t, exec (.claim n i d) s = .next t ∧
      (claim i.val t).map (·.1) = some n ∧ t.fb (SEC_INST i.val) SEC_INST.CLAIMED = true ∧
      claim i.val t = some (n, sha384 d) ∧
      s.logged t 0x0D (some i.val) [1, i.val] ∧
      s.sameRegs t [SEC_INST i.val] ∧
      t.out = .mgmt 0x7E [1, cOK] :: s.out ∧ t.mem = s.mem ∧ t.memc = s.memc ∧ t.cpl = s.cpl) ∧
  (∀ (s : State) (n : Nat) (i : InstNo) (d : List Byte),
    thimbleBusy s = false ∧ secured n s = true ∧ claim i.val s = none ∧ siState i.val s ≠ 1 →
    ∃ t, exec (.claim n i d) s = .next t ∧
      t = { s with out := .mgmt 0x7E [1, cREFUSED] :: s.out }) ∧
  (∀ (s : State) (n : Nat) (i : InstNo) (k : List Byte),
    thimbleBusy s = false ∧ secured n s = true ∧ holds n i.val s = true ∧ k ≠ [] →
    ∃ t, exec (.setPatternKey n i k) s = .next t ∧
      sget (fun _ => []) i.val t.sec.pkeys = k ∧ t.fb (SEC_INST i.val) SEC_INST.PKEY = true ∧
      s.sameRegs t [SEC_INST i.val] ∧
      t = { s with regs := t.regs, sec := { s.sec with pkeys := t.sec.pkeys }, out := .mgmt 0x7E [2, cOK] :: s.out }) ∧
  (∀ (s : State) (n : Nat) (i : InstNo) (k : List Byte),
    thimbleBusy s = false ∧ secured n s = true ∧ holds n i.val s = true ∧ k ≠ [] →
    ∃ t, exec (.setSignKey n i k) s = .next t ∧
      sget (fun _ => []) i.val t.sec.skeys = k ∧ t.fb (SEC_INST i.val) SEC_INST.SKEY = true ∧
      s.sameRegs t [SEC_INST i.val] ∧
      t = { s with regs := t.regs, sec := { s.sec with skeys := t.sec.skeys }, out := .mgmt 0x7E [3, cOK] :: s.out }) ∧
  (∀ (s : State) (n : Nat) (i : InstNo) (k : List Byte),
    thimbleBusy s = false ∧ secured n s = true ∧ holds n i.val s = false →
    ∃ t, exec (.setSignKey n i k) s = .next t ∧
      t = { s with out := .mgmt 0x7E [3, cREFUSED] :: s.out }) ∧
  (∀ (s : State) (n : Nat) (i : InstNo) (k : List Byte),
    thimbleBusy s = false ∧ secured n s = true →
    ∃ t, exec (.getReport n i k) s = .next t ∧
      t.out = .mgmt 0x7E ([4, cOK] ++ toWords (leBytes 4 (s.rd (SEC_INST i.val)) ++ leBytes 8 (s.rd64 (PAT_INST_PID i.val)) ++ measurement (0x10 + i.val) s ++ Config.aliasSign (leBytes 4 (s.rd (SEC_INST i.val)) ++ leBytes 8 (s.rd64 (PAT_INST_PID i.val)) ++ measurement (0x10 + i.val) s ++ k))) :: s.out ∧
      t = { s with out := t.out }) ∧
  (∀ (s : State) (n : Nat) (i : InstNo),
    thimbleBusy s = false ∧ secured n s = true ∧ holds n i.val s = true ∧ siState i.val s = 1 ∧ s.power.standbyPend = false →
    s.fb (SEC_INST i.val) SEC_INST.WRAPPED = false ∧ s.gen i.val ≠ 255 ∧ s.instClusters i.val = [] →
    ∃ t, exec (.release n i) s = .next t ∧
      siState i.val t = 4 ∧ (instCmd i.val t).map (·.op) = some 3 ∧ t.gen i.val = s.gen i.val + 1 ∧
      (instCmd i.val t).bind (·.resp) = some (0x7E, [5]) ∧ t.cpl = s.cpl ∧ t.memc = s.memc) ∧
  (∀ (s : State) (n : Nat) (i : InstNo),
    thimbleBusy s = false ∧ secured n s = true ∧ tdi i.val s = 0 ∧ holds n i.val s = true ∧ siState i.val s = 1 ∧ stepState i.val s = stStopped ∧ s.fv SEC_STATUS SEC_STATUS.DBG = 0 →
    ∃ t, exec (.lockInterface n i) s = .next t ∧
      tdi i.val t = 1 ∧ t.conf i.val = true ∧ t.fb SEC_STATUS SEC_STATUS.ANYCONF = true ∧
      s.sameRegs t [SEC_INST i.val, SEC_STATUS] ∧
      t.out = .mgmt 0x100 [cOK] :: s.out ∧ t.mem = s.mem ∧ t.cpl = s.cpl ∧ t.logIn = s.logIn) ∧
  (∀ (s : State) (n : Nat) (i : InstNo),
    thimbleBusy s = false ∧ secured n s = true ∧ tdi i.val s = 1 ∧ s.sec.ide.any (fun x => x.2.contains i.val) = true →
    ∃ t, exec (.startInterface n i) s = .next t ∧
      tdi i.val t = 2 ∧
      s.sameRegs t [SEC_INST i.val] ∧
      t.out = .mgmt 0x100 [cOK] :: s.out ∧ t.mem = s.mem ∧ t.cpl = s.cpl ∧ t.logIn = s.logIn) ∧
  (∀ (s : State) (n : Nat) (i : InstNo),
    thimbleBusy s = false ∧ secured n s = true ∧ tdi i.val s ≠ 1 →
    ∃ t, exec (.startInterface n i) s = .next t ∧
      t = { s with out := .mgmt 0x100 [cREFUSED] :: s.out }) ∧
  (∀ (s : State) (n : Nat) (i : InstNo),
    thimbleBusy s = false ∧ secured n s = true ∧ tdi i.val s ≠ 0 ∧ siState i.val s = 1 ∧ s.power.standbyPend = false →
    s.fb (SEC_INST i.val) SEC_INST.WRAPPED = false ∧ s.gen i.val ≠ 255 ∧ s.instClusters i.val = [] →
    ∃ t, exec (.stopInterface n i) s = .next t ∧
      siState i.val t = 4 ∧ (instCmd i.val t).map (·.op) = some 3 ∧ t.gen i.val = s.gen i.val + 1 ∧
      (instCmd i.val t).bind (·.resp) = some (0x100, []) ∧ t.cpl = s.cpl ∧ t.memc = s.memc) ∧
  (∀ (s : State) (n : Nat) (i : InstNo),
    thimbleBusy s = false ∧ secured n s = true ∧ siState i.val s = 1 ∧ s.power.standbyPend = false →
    s.fb (SEC_INST i.val) SEC_INST.WRAPPED = false ∧ s.gen i.val ≠ 255 ∧ s.instClusters i.val = [] →
    ∃ t, exec (.tdiDestroy n i) s = .next t ∧
      siState i.val t = 4 ∧ (instCmd i.val t).map (·.op) = some 4 ∧ t.gen i.val = s.gen i.val + 1 ∧
      (instCmd i.val t).bind (·.resp) = some (0x100, []) ∧ t.cpl = s.cpl ∧ t.memc = s.memc)

/-- Debug requests, stored keys, measurement selection and exhaustion clearing act on their registers and nothing else. A debug request writes REQ and a fresh nonce, whose bytes are free values; GO at level 0 ends debug and logs it; GO without a nonce or with a claimed instance is REFUSED. An unlocked key word or SEC_CFG is written and stored, a locked one ignores the write, and both are measured. A measurement index shows its 48 bytes; a virtual function sees only the device's and its own. CLEAR_ALL empties the exhaustion counter and its sources. Rests on: R462, R479, R480, R481. -/
def Obligations.SecurityRegistersGuardTheirState : Prop :=
  (∀ (s : State) (q : Req) (v : Word),
    s.devOpen q 0 = true ∧ bits v.toNat 0 2 ≠ 3 →
    ∃ t, exec (.debugReq q v) s = .next t ∧
      t.fv SEC_DBG_CTRL SEC_DBG_CTRL.REQ = bits v.toNat 0 2 ∧ t.sec.nonce = true ∧ t.fresh = s.fresh + 12 ∧
      s.answered t q cOK [] false ∧
      s.sameRegs t (SEC_DBG_CTRL :: (List.range 12).map SEC_DBG_NONCE) ∧
      t = { s with regs := t.regs, cpl := t.cpl, fresh := t.fresh, sec := { s.sec with nonce := true } }) ∧
  (∀ (s : State) (q : Req) (v : Word),
    s.devOpen q 0 = true ∧ bits v.toNat 0 2 = 0 ∧ s.logRoom 1 →
    ∃ t, exec (.debugGo q v) s = .next t ∧
      t.fv SEC_DBG_CTRL SEC_DBG_CTRL.REQ = 0 ∧ t.fv SEC_DBG_CTRL SEC_DBG_CTRL.CODE = cOK ∧ t.fv SEC_STATUS SEC_STATUS.DBG = 0 ∧
      s.answered t q cOK [] false ∧
      s.logged t 0x0D none [0, 0] ∧
      s.sameRegs t [SEC_DBG_CTRL, SEC_STATUS] ∧
      t.mem = s.mem ∧ t.memc = s.memc ∧ t.out = s.out) ∧
  (∀ (s : State) (q : Req) (v : Word),
    s.devOpen q 0 = true ∧ (bits v.toNat 0 2 = 1 ∨ bits v.toNat 0 2 = 2) ∧ s.sec.nonce = false →
    ∃ t, exec (.debugGo q v) s = .next t ∧
      t.fv SEC_DBG_CTRL SEC_DBG_CTRL.CODE = cREFUSED ∧
      s.answered t q cREFUSED [] false ∧
      s.sameRegs t [SEC_DBG_CTRL, GLB_CFG_ERR (reqIx q)] ∧
      t = { s with regs := t.regs, cpl := t.cpl }) ∧
  (∀ (s : State) (q : Req) (k : Fin 8) (n : Fin 24) (v : Word),
    s.devOpen q 0 = true ∧ s.fb SEC_CFG SEC_CFG.LOCK = false →
    ∃ t, exec (.secPersistWrite q (BitVec.ofNat 11 (0x400 + 0x80 * k.val + 4 * n.val)) v) s = .next t ∧
      t.rd (SEC_KEY k.val n.val) = v.toNat ∧ sget (fun n => (resetVal n).toNat) (SEC_KEY k.val n.val) t.pers.regs = v.toNat ∧
      s.answered t q cOK [] false ∧
      s.sameRegs t [SEC_KEY k.val n.val] ∧
      measurement 5 t = sha384 (measurement 5 s ++ cfgDigest t) ∧
      t = { s with regs := t.regs, cpl := t.cpl, pers := { s.pers with regs := t.pers.regs }, sec := { s.sec with meas := t.sec.meas } }) ∧
  (∀ (s : State) (q : Req) (k : Fin 8) (n : Fin 24) (v : Word),
    s.devOpen q 0 = true ∧ s.fb SEC_CFG SEC_CFG.LOCK = true →
    ∃ t, exec (.secPersistWrite q (BitVec.ofNat 11 (0x400 + 0x80 * k.val + 4 * n.val)) v) s = .next t ∧
      s.answered t q cOK [] false ∧
      t = { s with cpl := t.cpl }) ∧
  (∀ (s : State) (q : Req) (v : Word),
    s.devOpen q 0 = true ∧ s.fb SEC_CFG SEC_CFG.LOCK = false →
    ∃ t, exec (.secCfgLock q v) s = .next t ∧
      t.fb SEC_CFG SEC_CFG.LOCK = true ∧ t.fv SEC_CFG SEC_CFG.REQSIG = bits v.toNat 0 1 ∧
      s.answered t q cOK [] false ∧
      s.sameRegs t [SEC_CFG] ∧
      t = { s with regs := t.regs, cpl := t.cpl, pers := { s.pers with regs := t.pers.regs }, sec := { s.sec with meas := t.sec.meas } }) ∧
  (∀ (s : State) (q : Req) (v : Word),
    s.devOpen q 0 = true ∧ 1 ≤ bits v.toNat 0 8 ∧ bits v.toNat 0 8 ≤ 6 →
    ∃ t, exec (.measSelect q v) s = .next t ∧
      t.fv (SEC_MEAS_SEL (reqIx q)) SEC_MEAS_SEL.IDX = bits v.toNat 0 8 ∧
      (∀ k : Fin 12, t.rd (SEC_MEAS_DATA (reqIx q) k.val) = imgW (measurement (bits v.toNat 0 8) s) (4 * k.val)) ∧
      s.answered t q cOK [] false ∧
      s.sameRegs t (SEC_MEAS_SEL (reqIx q) :: (List.range 12).map (SEC_MEAS_DATA (reqIx q))) ∧
      t = { s with regs := t.regs, cpl := t.cpl }) ∧
  (∀ (s : State) (j : InstNo) (v : Word),
    s.gateOpen (.vf j) 0 = true ∧ 0x10 ≤ bits v.toNat 0 8 ∧ bits v.toNat 0 8 < 0x20 ∧ bits v.toNat 0 8 ≠ 0x10 + j.val →
    ∃ t, exec (.measSelect (.vf j) v) s = .next t ∧
      s.answered t (.vf j) cREFUSED [] true ∧
      s.sameRegs t [GLB_CFG_ERR (reqIx (.vf j))] ∧
      t = { s with regs := t.regs, cpl := t.cpl }) ∧
  (∀ (s : State) (q : Req) (i : InstNo) (v : Word),
    s.devOpen q 0 = true →
    ∃ t, exec (.exhClear q i v) s = .next t ∧
      t.rd (SEC_EXH i.val) = 0 ∧ t.rd (SEC_EXH_SRC i.val) = 0 ∧
      s.answered t q cOK [] false ∧
      s.sameRegs t [SEC_EXH i.val, SEC_EXH_SRC i.val] ∧
      t = { s with regs := t.regs, cpl := t.cpl })

/-- The standby takes the active role on a fault or a swap, the hub answering RETRY between; with none the device resets, then holds. A heartbeat timeout or a self-detected error of the active processor with a standby changes ACTIVE, closes the hub and writes a class 0xB fault record; a swap request does so without one; a fabric manager's is REFUSED. The resume opens the hub; the old processor stands by again or is marked failed, with a RESET record. With the other already failed a heartbeat timeout resets the device with cause 4, or beyond RSTMAX ends in Fault-Hold 7. A load in Loading fails, the rest of the loader's work waits. Rests on: R483, R484, R485, R512. -/
def Obligations.ProcessorPairTakesOver : Prop :=
  (∀ (s : State) (n : Nat) (b : Boot),
    s.dev.hubDown = false ∧ hasStandby s = true ∧ s.pat.cur = none ∧ s.logRoom 1 →
    ∃ t, exec (.mpHeartbeatTimeout n b) s = .next t ∧
      mpActive t = !mpActive s ∧ t.dev.hubDown = true ∧ t.mgmt.takeover = true ∧ t.mgmt.noStandby = true ∧
      bits ((t.dev.frecs.headD []).headD 0) 0 8 = 0xB ∧ t.logIn.length = s.logIn.length + 1 ∧
      s.sameRegs t [MGT_MP_STAT, RAS_FREC_CNT, RAS_CNT_MASKED] ∧
      t.mem = s.mem ∧ t.memc = s.memc ∧ t.cpl = s.cpl ∧ t.out = s.out) ∧
  (∀ (s : State) (n : Nat) (b : Boot),
    s.dev.hubDown = false ∧ mpFailed (!mpActive s) s = true ∧ s.fv MGT_MP_CTRL MGT_MP_CTRL.RSTMAX ≤ s.mgmt.wdResets - n ∧ s.power.standbyPend = false →
    ∃ t, exec (.mpHeartbeatTimeout n b) s = .next t ∧
      t.devState = dsFaultHold ∧ t.fv MGT_BOOT_STAT MGT_BOOT_STAT.FHCAUSE = 7 ∧ t.dev.hubDown = true ∧ t.fb MGT_MP_STAT MGT_MP_STAT.A_FAIL = true ∧ t.fb MGT_MP_STAT MGT_MP_STAT.B_FAIL = true ∧
      bits ((t.dev.frecs.headD []).headD 0) 0 10 = 0x30B ∧ t.mem = s.mem ∧ t.memc = s.memc ∧ t.cpl = s.cpl ∧ t.pers = s.pers) ∧
  (∀ (s : State) (n : Nat) (b : Boot),
    s.dev.hubDown = false ∧ mpFailed (!mpActive s) s = true ∧ s.mgmt.wdResets - n < s.fv MGT_MP_CTRL MGT_MP_CTRL.RSTMAX →
    s.pers = {} ∧ s.clusters = [] ∧ s.dev.fusedJlk = [] ∧ s.devState ≠ dsStandby ∧ b = cleanBoot →
    ∃ t, exec (.mpHeartbeatTimeout n b) s = .next t ∧
      t.devState = dsBringup ∧ t.fv MGT_RST_CAUSE MGT_RST_CAUSE.CAUSE = 4 ∧ t.mgmt.wdResets = s.mgmt.wdResets - n + 1 ∧
      t.mem = [] ∧ t.cpl = s.cpl) ∧
  (∀ (s : State) (q : Req) (v : Word),
    s.devOpen q 0 = true ∧ q ≠ .fm ∧ 5 ≤ bits v.toNat 0 8 ∧ hasStandby s = true ∧ s.pat.cur = none →
    ∃ t, exec (.mpSwap q v) s = .next t ∧
      mpActive t = !mpActive s ∧ t.dev.hubDown = true ∧ t.mgmt.takeover = true ∧
      t.fv MGT_MP_CTRL MGT_MP_CTRL.HB_MS = bits v.toNat 0 8 ∧
      s.answered t q cOK [] false ∧
      s.sameRegs t [MGT_MP_STAT, MGT_MP_CTRL] ∧
      t.mem = s.mem ∧ t.memc = s.memc ∧ t.out = s.out ∧ t.logIn = s.logIn ∧ t.dev.frecs = s.dev.frecs) ∧
  (∀ (s : State) (v : Word),
    s.devOpen .fm 0 = true →
    ∃ t, exec (.mpSwap .fm v) s = .next t ∧
      s.answered t .fm cREFUSED [] false ∧
      s.sameRegs t [GLB_CFG_ERR (reqIx .fm)] ∧ t.mgmt = s.mgmt ∧ t.dev.hubDown = s.dev.hubDown) ∧
  (∀ (s : State) (q : Req) (v : Word),
    s.devOpen q 0 = true ∧ q ≠ .fm ∧ bits v.toNat 0 8 < 5 →
    ∃ t, exec (.mpSwap q v) s = .next t ∧
      s.answered t q cBAD_ARG [] false ∧
      s.sameRegs t [GLB_CFG_ERR (reqIx q)] ∧ t.mgmt = s.mgmt ∧ t.dev.hubDown = s.dev.hubDown) ∧
  (∀ (s : State),
    s.dev.hubDown = false ∧ hasStandby s = true ∧ s.pat.cur = none ∧ s.logRoom 1 →
    ∃ t, exec (.mpSelfError) s = .next t ∧
      mpActive t = !mpActive s ∧ t.dev.hubDown = true ∧ t.mgmt.takeover = true ∧
      bits ((t.dev.frecs.headD []).headD 0) 0 8 = 0xB ∧ t.logIn.length = s.logIn.length + 1 ∧
      s.sameRegs t [MGT_MP_STAT, RAS_FREC_CNT, RAS_CNT_MASKED] ∧
      t.mem = s.mem ∧ t.memc = s.memc ∧ t.cpl = s.cpl ∧ t.out = s.out) ∧
  (∀ (s : State),
    s.mgmt.takeover = true →
    ∃ t, exec (.mpTakeoverResume) s = .next t ∧
      t = { s with mgmt := { s.mgmt with takeover := false }, dev := { s.dev with hubDown := false } }) ∧
  (∀ (s : State) (b : Bool),
    s.mgmt.noStandby = true ∧ s.logRoom 1 →
    ∃ t, exec (.mpRestartOld b) s = .next t ∧
      t.mgmt.noStandby = false ∧ mpFailed (!mpActive s) t = (mpFailed (!mpActive s) s || !b) ∧ mpActive t = mpActive s ∧
      s.logged t 2 none [4, s.rd MGT_RST_STAT] ∧
      s.sameRegs t [MGT_MP_STAT] ∧
      t.mem = s.mem ∧ t.memc = s.memc ∧ t.cpl = s.cpl ∧ t.out = s.out)

/-- A sensor sample, a posted and a filed record, a log selection and a congestion export set their registers, records and outputs. A sample sets VALUE and VALID and, held beyond its points, WARN and CRIT, with a record and the alert pin; an absent reading clears VALID. A post joins the input queue with TIME64, or is dropped and counted when 1,024 wait. Filing takes the oldest record, numbers it, puts it first in the ring with its CRC and updates LOG_HEAD. Its severity is a free value (log entry 5). A selection shows the record or GONE, a virtual function's only its own. The export sends its datagram or counts a skip. Rests on: R486, R487, R489, R490, R491, R492, R493, R499, R525. -/
def Obligations.SensorsAndTheEventLog : Prop :=
  (∀ (s : State) (n : Fin 16) (v : BitVec 16),
    s.dev.hubDown = false →
    ∃ t, exec (.sensorSample n (some v) false 0) s = .next t ∧
      t.fv (MGT_SENS n.val) MGT_SENS.VALUE = v.toNat ∧ t.fv (MGT_SENS n.val) MGT_SENS.VALID = 1 ∧
      s.sameRegs t [MGT_SENS n.val] ∧
      t = { s with regs := t.regs, power := { s.power with tempHold := t.power.tempHold } }) ∧
  (∀ (s : State) (v : BitVec 16),
    s.dev.hubDown = false ∧ 840 < v.toNat ∧ v.toNat < 0x8000 ∧ s.fv (MGT_SENS 1) MGT_SENS.WARN = 0 ∧ s.fv (MGT_SENS 1) MGT_SENS.CRIT = 0 ∧ s.logRoom 2 →
    ∃ t, exec (.sensorSample 1 (some v) true 0) s = .next t ∧
      t.fv (MGT_SENS 1) MGT_SENS.VALUE = v.toNat ∧ t.fv (MGT_SENS 1) MGT_SENS.WARN = 1 ∧ t.fv (MGT_SENS 1) MGT_SENS.CRIT = 1 ∧ t.pin pinSB_ALERT_N = false ∧
      t.logIn = s.logIn ++ [⟨0x0F, none, [1, v.toNat, 1], s.rd64 TIME64⟩, ⟨0x0F, none, [1, v.toNat, 2], s.rd64 TIME64⟩] ∧
      s.sameRegs t [MGT_SENS 1] ∧
      t.mem = s.mem ∧ t.memc = s.memc ∧ t.cpl = s.cpl) ∧
  (∀ (s : State) (n : Fin 16) (b : Bool) (k : Fin 3),
    s.dev.hubDown = false →
    ∃ t, exec (.sensorSample n none b k) s = .next t ∧
      t.fv (MGT_SENS n.val) MGT_SENS.VALID = 0 ∧
      s.sameRegs t [MGT_SENS n.val] ∧
      t = { s with regs := t.regs }) ∧
  (∀ (s : State) (y : Byte) (i : Option InstNo) (b : List Word),
    s.logRoom 1 →
    ∃ t, exec (.logPost y i b) s = .next t ∧
      s.logged t y.toNat (i.map (·.val)) ((b.take 10).map (·.toNat)) ∧
      t = { s with logIn := t.logIn }) ∧
  (∀ (s : State) (y : Byte) (i : Option InstNo) (b : List Word),
    s.logIn.length = 1024 →
    ∃ t, exec (.logPost y i b) s = .next t ∧
      t.rd LOG_DROP = min (s.rd LOG_DROP + 1) (2 ^ 32 - 1) ∧ t.dev.logLost = s.dev.logLost + 1 ∧ t.logIn = s.logIn ∧
      s.sameRegs t [LOG_DROP] ∧
      t.mem = s.mem ∧ t.cpl = s.cpl ∧ t.out = s.out) ∧
  (∀ (s : State) (r : LogRec) (l : List LogRec),
    s.logIn = r :: l ∧ s.dev.hubDown = false ∧ s.dev.logLost = 0 ∧ s.mgmt.seq < 0xFFFFFFFF ∧ r.inst = none ∧ s.mgmt.ring.length < 4096 →
    ∃ t, exec (.logFile) s = .next t ∧
      t.logIn = l ∧ t.mgmt.seq = s.mgmt.seq + 1 ∧ t.mgmt.ring.length = s.mgmt.ring.length + 1 ∧ t.mgmt.ring.tail = s.mgmt.ring ∧
      (t.mgmt.ring.headD []).length = 16 ∧ (t.mgmt.ring.headD []).headD 0 = s.mgmt.seq ∧ bits ((t.mgmt.ring.headD []).getD 4 0) 0 8 = r.typ % 256 ∧
      (t.mgmt.ring.headD []).getD 15 0 = crc32 (wordBytes ((t.mgmt.ring.headD []).take 15)) ∧
      t.rd LOG_HEAD = s.mgmt.seq ∧
      s.sameRegs t [LOG_HEAD, LOG_TAIL] ∧
      t.mem = s.mem ∧ t.memc = s.memc ∧ t.cpl = s.cpl) ∧
  (∀ (s : State) (r : LogRec) (l : List LogRec) (i : InstNo),
    s.logIn = r :: l ∧ s.dev.hubDown = false ∧ s.dev.logLost = 0 ∧ s.mgmt.seq < 0xFFFFFFFF ∧ r.inst = some i.val ∧ sget (fun _ => 0) i.val s.mgmt.vseq < 0xFFFFFFFF →
    ∃ t, exec (.logFile) s = .next t ∧
      (t.mgmt.ring.headD []).getD 1 0 = sget (fun _ => 0) i.val s.mgmt.vseq ∧ sget (fun _ => 0) i.val t.mgmt.vseq = sget (fun _ => 0) i.val s.mgmt.vseq + 1 ∧
      bit ((t.mgmt.ring.headD []).getD 4 0) 20 = true ∧ bits ((t.mgmt.ring.headD []).getD 4 0) 16 4 = i.val ∧
      t.logIn = l ∧ t.mem = s.mem ∧ t.memc = s.memc ∧ t.cpl = s.cpl) ∧
  (∀ (s : State) (q : Req) (v : Word),
    s.devOpen q 0 = true ∧ (logFind q v.toNat s).isSome = true →
    ∃ t, exec (.logSelect q v) s = .next t ∧
      (t.fv (LOG_STAT (reqIx q)) LOG_STAT.GONE = 0 ∧ (∀ k : Fin 16, t.rd (LOG_DATA (reqIx q) k.val) = ((logFind q v.toNat s).getD []).getD k.val 0 % 2 ^ 32)) ∧
      s.answered t q cOK [] false ∧
      s.sameRegs t (LOG_STAT (reqIx q) :: (List.range 16).map (LOG_DATA (reqIx q))) ∧
      t = { s with regs := t.regs, cpl := t.cpl }) ∧
  (∀ (s : State) (q : Req) (v : Word),
    s.gateOpen q 0 = true ∧ logFind q v.toNat s = none →
    ∃ t, exec (.logSelect q v) s = .next t ∧
      (t.fv (LOG_STAT (reqIx q)) LOG_STAT.GONE = 1 ∧ (∀ k : Fin 16, t.rd (LOG_DATA (reqIx q) k.val) = 0)) ∧
      s.answered t q cOK [] false ∧
      t = { s with regs := t.regs, cpl := t.cpl }) ∧
  (∀ (s : State),
    s.fv MGT_CMX_CTRL MGT_CMX_CTRL.DIV ≤ s.mgmt.cmx ∧ s.fb MGT_CMX_CTRL MGT_CMX_CTRL.EN = true ∧ s.fb DNET_CMAP_CTRL DNET_CMAP_CTRL.EN = true ∧ s.dev.hubDown = false →
    ∃ t, exec (.cmxExport true) s = .next t ∧
      t = { s with mgmt := { s.mgmt with cmx := 0 }, out := .mgmt 4 (cmxWords s) :: s.out } ∧ (cmxWords s).length = 216) ∧
  (∀ (s : State),
    s.fv MGT_CMX_CTRL MGT_CMX_CTRL.DIV ≤ s.mgmt.cmx ∧ s.fb MGT_CMX_CTRL MGT_CMX_CTRL.EN = true ∧ s.fb DNET_CMAP_CTRL DNET_CMAP_CTRL.EN = true →
    ∃ t, exec (.cmxExport false) s = .next t ∧
      t.rd MGT_CMX_SKIP = min (s.rd MGT_CMX_SKIP + 1) (2 ^ 32 - 1) ∧ t.mgmt.cmx = 0 ∧
      s.sameRegs t [MGT_CMX_SKIP] ∧ t.out = s.out ∧ t.mem = s.mem ∧ t.cpl = s.cpl)

/-- The attention button and its register start, cancel and end the orderly removal; a transceiver comes and goes. A short press or REQ in Ready starts the removal: Draining, phase 3, one ATTN record. A cancel before phase 7 returns to Ready. The end of grace with every instance stopped disables the event ports and goes to phase 6; the drained device invalidates its ranks and waits in phase 8; quiet time or FM_ACK ends in phase 9 with SAFE and the ports disabled. A press held between is logged only; a long hold restarts the management processors. Rests on: R500, R502, R503, R504, R512, R519. -/
def Obligations.OrderlyRemovalRunsItsSteps : Prop :=
  (∀ (s : State) (b : Boot),
    (s.devState = dsReady ∨ s.devState = dsServing) ∧ s.fb MGT_ATTN MGT_ATTN.NOSHORT = false ∧ s.logRoom 1 →
    ∃ t, exec (.attnShortPress b) s = .next t ∧
      t.devState = dsDraining ∧ phase t = 3 ∧
      s.logged t 0x0C none [2] ∧
      s.sameRegs t [GLB_DEV_STATE, MGT_ATTN_STAT] ∧
      t = { s with regs := t.regs, logIn := t.logIn }) ∧
  (∀ (s : State) (q : Req) (v : Word) (b : Boot),
    s.devOpen q 0 = true ∧ (s.devState = dsReady ∨ s.devState = dsServing) ∧ bit v.toNat 8 = false ∧ bits v.toNat 0 8 < 2 ∧ s.logRoom 1 →
    (s.wrFlds MGT_ATTN (setBits v.toNat 0 1 1) [MGT_ATTN.NOSHORT, MGT_ATTN.GRACE, MGT_ATTN.QUIET]).fb MGT_ATTN MGT_ATTN.NOSHORT = false →
    ∃ t, exec (.attnReq q v b) s = .next t ∧
      t.devState = dsDraining ∧ phase t = 3 ∧
      s.answered t q cOK [] false ∧
      s.logged t 0x0C none [2] ∧
      s.sameRegs t [GLB_DEV_STATE, MGT_ATTN_STAT, MGT_ATTN] ∧
      t = { s with regs := t.regs, logIn := t.logIn, cpl := t.cpl }) ∧
  (∀ (s : State) (q : Req) (v : Word),
    s.devOpen q 0 = true ∧ bit v.toNat 2 = false ∧ s.devState = dsDraining ∧ phase s < 5 ∧ s.power.standbyPend = false ∧ s.logRoom 1 →
    (List.range 16).all (fun i => !s.fb (STEP_STATUS i) STEP_STATUS.STATE) = true →
    ∃ t, exec (.attnCancel q v) s = .next t ∧
      t.devState = dsReady ∧ phase t = 0 ∧
      s.answered t q cOK [] false ∧
      s.logged t 0x0C none [0] ∧
      s.sameRegs t [GLB_DEV_STATE, MGT_ATTN_STAT, MGT_ATTN] ∧
      t.mem = s.mem ∧ t.memc = s.memc ∧ t.out = s.out) ∧
  (∀ (s : State) (q : Req) (v : Word),
    s.devOpen q 0 = true ∧ bit v.toNat 1 = false ∧ s.devState = dsDraining ∧ phase s = 8 →
    ∃ t, exec (.attnFmAck q v) s = .next t ∧
      phase t = 9 ∧ t.fb MGT_ATTN_STAT MGT_ATTN_STAT.SAFE = true ∧ t.devState = dsDraining ∧
      s.answered t q cOK [] false ∧
      (∀ p : JPort, t.fv (JLK_CTRL p.val) JLK_CTRL.EN = 0) ∧
      t.mem = s.mem ∧ t.memc = s.memc ∧ t.pers = s.pers) ∧
  (∀ (s : State),
    s.logRoom 1 →
    ∃ t, exec (.attnMidRelease) s = .next t ∧
      s.logged t 0x0C none [phase s] ∧
      t = { s with logIn := t.logIn }) ∧
  (∀ (s : State),
    s.devState ≠ dsStandby ∧ s.pat.cur = none ∧ s.logRoom 1 →
    ∃ t, exec (.attnLongHold) s = .next t ∧
      t.dev.hubDown = true ∧ t.fv CLK_STATUS CLK_STATUS.MP_PLL = 0 ∧
      s.logged t 2 none [4, s.rd MGT_RST_STAT] ∧
      s.sameRegs t [CLK_STATUS] ∧ t.mem = s.mem ∧ t.cpl = s.cpl) ∧
  (∀ (s : State) (b : Bool),
    s.devState = dsDraining ∧ phase s = 3 ∧ allStopped s = true ∧ (List.range 12).all (fun p => jState p s != jsUp) = true →
    ∃ t, exec (.removalGraceEnd b) s = .next t ∧
      phase t = 6 ∧ t.fv (ETH_CTRL 0) ETH_CTRL.EN = 0 ∧ t.fv (ETH_CTRL 1) ETH_CTRL.EN = 0 ∧ t.fv (ETH_STATUS 0) ETH_STATUS.UP = 0 ∧ t.fv (ETH_STATUS 1) ETH_STATUS.UP = 0 ∧
      t.mgmt.attnEth = [s.fb (ETH_CTRL 0) ETH_CTRL.EN, s.fb (ETH_CTRL 1) ETH_CTRL.EN] ∧ t.devState = dsDraining ∧
      t.mem = s.mem ∧ t.memc = s.memc ∧ t.pers = s.pers ∧ t.cpl = s.cpl ∧ t.cores = s.cores) ∧
  (∀ (s : State) (b : Bool),
    s.devState = dsDraining ∧ phase s = 6 ∧ removalLeft s = 0 ∧ s.logRoom 1 →
    ∃ t, exec (.removalDrainEnd b) s = .next t ∧
      (phase t = 8 ∧ (∀ i : InstNo, t.fv (JLK_OWNRANK i.val) JLK_OWNRANK.VALID = 0) ∧ t.logIn.length = s.logIn.length + 1) ∧
      t.mem = s.mem ∧ t.memc = s.memc ∧ t.pers = s.pers ∧ t.cpl = s.cpl ∧ t.cores = s.cores ∧ t.insts = s.insts) ∧
  (∀ (s : State),
    s.devState = dsDraining ∧ phase s = 8 →
    ∃ t, exec (.removalQuietEnd) s = .next t ∧
      phase t = 9 ∧ t.fb MGT_ATTN_STAT MGT_ATTN_STAT.SAFE = true ∧ t.devState = dsDraining ∧
      (∀ p : JPort, t.fv (JLK_CTRL p.val) JLK_CTRL.EN = 0) ∧
      t.mem = s.mem ∧ t.memc = s.memc ∧ t.pers = s.pers ∧ t.cpl = s.cpl) ∧
  (∀ (s : State) (p : EPort),
    ∃ t, exec (.transceiverInsert p true) s = .next t ∧
      sget (fun _ => 0) p.val t.mgmt.cage = 1 ∧
      t = { s with mgmt := { s.mgmt with cage := t.mgmt.cage } }) ∧
  (∀ (s : State) (p : EPort),
    ∃ t, exec (.transceiverInsert p false) s = .next t ∧
      sget (fun _ => 0) p.val t.mgmt.cage = 2 ∧ t.fv (ETH_STATUS p.val) ETH_STATUS.UP = 0 ∧
      t.mem = s.mem ∧ t.memc = s.memc ∧ t.cpl = s.cpl) ∧
  (∀ (s : State) (p : EPort),
    ∃ t, exec (.transceiverRemove p) s = .next t ∧
      sget (fun _ => 0) p.val t.mgmt.cage = 0 ∧ t.fv (ETH_STATUS p.val) ETH_STATUS.UP = 0 ∧
      t.mem = s.mem ∧ t.memc = s.memc ∧ t.cpl = s.cpl)

/-- A firmware update is staged, activated, tried and confirmed or falls back, and the minimum SVN rises. GO with an image that is no firmware image answers BAD_ARG and changes nothing stored; an image on the sideband is answered by PLDM. A good staging begins activation, a bad one ends Idle CHECK_FAIL; activation with nothing pending begins the trial, HEALTHY, and extends the component's measurement; confirming makes pending current and current last-known-good; an abort, a unit fault or the window's end falls back with its cause; the fallback's end is Idle. RAISE_SVN takes the SVN of the component confirmed last. Rests on: R505, R506, R507, R508, R509, R512. -/
def Obligations.FirmwareUpdateRunsItsStates : Prop :=
  (∀ (s : State) (q : Req) (v : Word) (b : Boot),
    s.devOpen q 0 = true ∧ q ≠ .fm ∧ s.fv MGT_FWU_SRC MGT_FWU_SRC.ADDR % 64 ≠ 0 →
    ∃ t, exec (.fwuGo q v none b) s = .next t ∧
      s.answered t q cBAD_ARG [] false ∧
      s.sameRegs t [GLB_CFG_ERR (reqIx q)] ∧ t.pers = s.pers ∧ t.mgmt = s.mgmt ∧ t.mem = s.mem) ∧
  (∀ (s : State) (q : Req) (v : Word) (b : Boot) (l : List Byte),
    ¬(s.devState = dsFaultHold ∧ s.fv MGT_BOOT_STAT MGT_BOOT_STAT.FHCAUSE = 1) ∧ s.dev.hubDown = false →
    ∃ t, exec (.fwuGo q v (some l) b) s = .next t ∧
      t.out = .mgmt 3 [match fwAdmit l l.length s with | .ok _ => cOK | .error e => e.1] :: s.out ∧
      fwState t = (match fwAdmit l l.length s with | .ok _ => 1 | .error _ => fwState s) ∧
      t.mgmt.fwu = (match fwAdmit l l.length s with | .ok (c, f) => some (c, f) | .error _ => s.mgmt.fwu) ∧
      (∀ c f, fwAdmit l l.length s = .ok (c, f) → fwPend c t = some f ∧ t.fv MGT_FWU_STAT MGT_FWU_STAT.COMP = c % 16) ∧
      t.mem = s.mem ∧ t.memc = s.memc ∧ t.cpl = s.cpl ∧ t.pers.fwCur = s.pers.fwCur ∧ t.pers.fwLkg = s.pers.fwLkg) ∧
  (∀ (s : State) (c : Nat) (f : FwImg),
    fwState s = 1 ∧ s.mgmt.fwu = some (c, f) ∧ (c = 3 ∨ c = 4) ∧ s.logRoom 1 →
    ∃ t, exec (.fwuStagingDone true) s = .next t ∧
      fwState t = 2 ∧
      s.logged t 8 none [s.fv MGT_FWU_STAT MGT_FWU_STAT.COMP, 2, f.version, s.fv MGT_FWU_STAT MGT_FWU_STAT.CODE] ∧
      s.sameRegs t [MGT_FWU_STAT] ∧
      t = { s with regs := t.regs, logIn := t.logIn }) ∧
  (∀ (s : State) (f : FwImg),
    fwState s = 1 ∧ s.mgmt.fwu = some (2, f) ∧ s.pat.cur = none ∧ hasStandby s = true ∧ s.logRoom 1 →
    ∃ t, exec (.fwuStagingDone true) s = .next t ∧
      fwState t = 2 ∧ mpActive t = !mpActive s ∧ t.dev.hubDown = true ∧
      s.sameRegs t [MGT_FWU_STAT, MGT_MP_STAT] ∧
      t.mem = s.mem ∧ t.memc = s.memc ∧ t.cpl = s.cpl ∧ t.pers = s.pers) ∧
  (∀ (s : State) (c : Nat) (f : FwImg),
    fwState s = 1 ∧ s.mgmt.fwu = some (c, f) ∧ s.logRoom 1 →
    ∃ t, exec (.fwuStagingDone false) s = .next t ∧
      fwState t = 0 ∧ t.fv MGT_FWU_STAT MGT_FWU_STAT.CODE = cCHECK_FAIL ∧ fwPend c t = none ∧ t.mgmt.fwu = none ∧
      t.mem = s.mem ∧ t.memc = s.memc ∧ t.cpl = s.cpl ∧ t.pers.fwCur = s.pers.fwCur ∧ t.pers.fwLkg = s.pers.fwLkg) ∧
  (∀ (s : State) (c : Nat) (f : FwImg),
    fwState s = 2 ∧ s.mgmt.fwu = some (c, f) ∧ fwSettled s = true ∧ s.logRoom 1 →
    ∃ t, exec (.fwuActivationDone) s = .next t ∧
      fwState t = 3 ∧ t.fv MGT_FWU_STAT MGT_FWU_STAT.HEALTHY = 1 ∧
      measurement c t = sha384 (measurement c s ++ f.digest) ∧
      s.sameRegs t [MGT_FWU_STAT] ∧
      t.mem = s.mem ∧ t.memc = s.memc ∧ t.cpl = s.cpl ∧ t.pers = s.pers ∧ t.mgmt = s.mgmt) ∧
  (∀ (s : State) (q : Req) (v : Word) (c : Nat) (f : FwImg),
    s.devOpen q 0 = true ∧ q ≠ .fm ∧ s.fb MGT_FWU_STAT MGT_FWU_STAT.HEALTHY = true ∧ s.mgmt.fwu = some (c, f) ∧ 1 ≤ c ∧ c ≤ 4 →
    ∃ t, exec (.fwuConfirm q v) s = .next t ∧
      fwCur c t = some f ∧ fwLkg c t = fwCur c s ∧ fwPend c t = none ∧ t.pers.fwLast = c ∧
      fwState t = 0 ∧ t.fv MGT_FWU_STAT MGT_FWU_STAT.CODE = cOK ∧ t.rd (MGT_FW_CUR (c - 1)) = f.version % 2 ^ 32 ∧
      s.answered t q cOK [] false ∧
      t.mem = s.mem ∧ t.memc = s.memc ∧ t.out = s.out ∧ t.pers.slots = s.pers.slots ∧ t.pers.regs = s.pers.regs) ∧
  (∀ (s : State) (q : Req) (v : Word) (c : Nat) (f : FwImg),
    s.devOpen q 0 = true ∧ q ≠ .fm ∧ (fwState s = 2 ∨ fwState s = 3) ∧ s.mgmt.fwu = some (c, f) ∧ 3 ≤ c →
    ∃ t, exec (.fwuAbort q v) s = .next t ∧
      fwState t = 4 ∧ t.fv MGT_FWU_STAT MGT_FWU_STAT.CAUSE = 0 ∧ t.fv MGT_FWU_STAT MGT_FWU_STAT.HEALTHY = 0 ∧
      s.answered t q cOK [] false ∧
      t.mem = s.mem ∧ t.memc = s.memc ∧ t.out = s.out ∧ t.pers = s.pers) ∧
  (∀ (s : State) (c : Nat) (f : FwImg),
    fwState s = 3 ∧ s.fb MGT_FWU_CTRL MGT_FWU_CTRL.AUTOCONF = true ∧ s.mgmt.fwu = some (c, f) ∧ 1 ≤ c ∧ c ≤ 4 →
    ∃ t, exec (.fwuWindowEnd) s = .next t ∧
      fwCur c t = some f ∧ fwLkg c t = fwCur c s ∧ fwPend c t = none ∧ fwState t = 0 ∧
      t.mem = s.mem ∧ t.memc = s.memc ∧ t.cpl = s.cpl ∧ t.out = s.out) ∧
  (∀ (s : State) (c : Nat) (f : FwImg),
    fwState s = 3 ∧ s.fb MGT_FWU_CTRL MGT_FWU_CTRL.AUTOCONF = false ∧ s.mgmt.fwu = some (c, f) ∧ 3 ≤ c →
    ∃ t, exec (.fwuWindowEnd) s = .next t ∧
      fwState t = 4 ∧ t.fv MGT_FWU_STAT MGT_FWU_STAT.CAUSE = 7 ∧
      t.mem = s.mem ∧ t.memc = s.memc ∧ t.cpl = s.cpl ∧ t.out = s.out ∧ t.pers = s.pers) ∧
  (∀ (s : State) (c : Nat) (f : FwImg),
    (fwState s = 2 ∨ fwState s = 3) ∧ s.mgmt.fwu = some (c, f) ∧ 3 ≤ c →
    ∃ t, exec (.fwuUnitFault) s = .next t ∧
      fwState t = 4 ∧ t.fv MGT_FWU_STAT MGT_FWU_STAT.CAUSE = 6 ∧ t.fv MGT_FWU_STAT MGT_FWU_STAT.HEALTHY = 0 ∧
      t.mem = s.mem ∧ t.memc = s.memc ∧ t.cpl = s.cpl ∧ t.out = s.out ∧ t.pers = s.pers) ∧
  (∀ (s : State) (c : Nat) (f : FwImg),
    fwState s = 4 ∧ s.mgmt.fwu = some (c, f) ∧ fwSettled s = true →
    ∃ t, exec (.fwuFallbackDone) s = .next t ∧
      fwState t = 0 ∧ t.fv MGT_FWU_STAT MGT_FWU_STAT.CODE = (if s.fv MGT_FWU_STAT MGT_FWU_STAT.CAUSE = 7 then cTIMEOUT else cABORTED) ∧ fwPend c t = none ∧ t.mgmt.fwu = none ∧
      t.mem = s.mem ∧ t.memc = s.memc ∧ t.cpl = s.cpl ∧ t.out = s.out ∧ t.pers.fwCur = s.pers.fwCur ∧ t.pers.fwLkg = s.pers.fwLkg) ∧
  (∀ (s : State) (q : Req) (v : Word) (f : FwImg),
    s.devOpen q 0 = true ∧ q ≠ .fm ∧ fwState s = 0 ∧ 1 ≤ s.pers.fwLast ∧ s.pers.fwLast ≤ 4 ∧ fwCur s.pers.fwLast s = some f →
    ∃ t, exec (.raiseSvn q v) s = .next t ∧
      minSvn s.pers.fwLast t = f.svn ∧
      s.answered t q cOK [] false ∧
      t = { s with regs := t.regs, cpl := t.cpl, pers := { s.pers with minSvn := t.pers.minSvn } })

/-- A write of 1, 2 or 3 bytes to any register completes BAD_ARG, sets the requester's NARROW and changes nothing else. For every requester whose accesses the control hub takes and every configuration offset: a write of 1, 2 or 3 bytes is ignored (every register but the requester's GLB_CFG_ERR, and everything beside the registers, stays), it completes BAD_ARG with no data, and GLB_CFG_ERR.NARROW reads 1. Rests on: R10. -/
def Obligations.NarrowWritesAreIgnored : Prop :=
  (∀ (s : State) (q : Req) (a : Word) (n : Fin 3) (v : Word),
    s.admits q 0 = true →
    ∃ t, exec (.narrowWrite q a n v) s = .next t ∧
      s.answered t q cBAD_ARG [] false ∧
      t.fv (GLB_CFG_ERR (reqIx q)) GLB_CFG_ERR.NARROW = 1 ∧
      s.sameRegs t [GLB_CFG_ERR (reqIx q)] ∧
      t = { s with regs := t.regs, cpl := t.cpl })

/-- TMR_COUNT is written only while EN = 0; CLR clears the counter and its fraction; a cleared counter fires no compare above 0. Where the timer is open to the requester (R218): a write of TMR_COUNT while EN = 0 completes OK and sets the 64-bit count; while EN = 1 it completes REFUSED and changes no register but the requester's GLB_CFG_ERR. A write with CLR = 1 clears the count and its fraction whatever the state and sends nothing, and with the count at 0 a compare whose value lies above 0 does not fire. Rests on: R217. -/
def Obligations.TimerCountIsWrittenOnlyWhileStopped : Prop :=
  (∀ (s : State) (q : Req) (n : Fin 8) (v : DWord),
    s.timerOpen q n.val = true ∧ s.fb (TMR_CTRL n.val) TMR_CTRL.EN = false →
    ∃ t, exec (.tmrCountWrite q n v) s = .next t ∧
      t.rd64 (TMR_COUNT n.val) = v.toNat ∧
      s.answered t q cOK [] false ∧
      s.sameRegs t [TMR_COUNT n.val, TMR_COUNT n.val + 4] ∧
      t = { s with regs := t.regs, cpl := t.cpl }) ∧
  (∀ (s : State) (q : Req) (n : Fin 8) (v : DWord),
    s.timerOpen q n.val = true ∧ s.fb (TMR_CTRL n.val) TMR_CTRL.EN = true →
    ∃ t, exec (.tmrCountWrite q n v) s = .next t ∧
      s.answered t q cREFUSED [] false ∧
      s.sameRegs t [GLB_CFG_ERR (reqIx q)] ∧
      t = { s with regs := t.regs, cpl := t.cpl }) ∧
  (∀ (s : State) (q : Req) (n : Fin 8) (v : Word),
    s.timerOpen q n.val = true ∧ s.tmrGood n.val v.toNat = true →
    ∃ t, exec (.timerClr q n v) s = .next t ∧
      t.rd64 (TMR_COUNT n.val) = 0 ∧ tmrFracAt n.val t = 0 ∧
      s.answered t q cOK [] false ∧
      t = { s with regs := t.regs, cpl := t.cpl, dev := t.dev }) ∧
  (∀ (s : State) (n : Fin 8) (c : Bool),
    s.rd64 (TMR_COUNT n.val) = 0 ∧ 0 < s.rd64 (tmrCmp n.val c) →
    ∃ t, exec (.timerCompareFire n c) s = .next t ∧
      t = s)

/-- HOLD stops the consumer from taking entries of the queue; enqueues and a taken entry go on; RELEASE undoes it. After an admitted HOLD no engine takes next from the queue, and the entries already taken and the engines' work are as before. While HELD is set an admitted ENQ of one entry with room is still stored and counted. After an admitted RELEASE HELD is clear, and nothing else of the queue unit changed, so the queue is taken from again as if never held: an engine whose turn it is takes next from it. Rests on: R262. -/
def Obligations.HoldStopsTakingOnly : Prop :=
  (∀ (s : State) (c : Cl) (k : Sl) (d : QdescIn),
    s.unitStill (pcid c k) = true ∧ s.qAdmits (pcid c k) d = true ∧ d.post = none ∧ d.count = 0 ∧ (s.core (pcid c k)).q.inBuf = [] →
    ∃ t, exec (.qdescHold c k d) s = .next t ∧
      qNext (pcid c k) .dense t ≠ some (d.qid.toNat % 64) ∧ qNext (pcid c k) .move t ≠ some (d.qid.toNat % 64) ∧ qNext (pcid c k) .gather t ≠ some (d.qid.toNat % 64) ∧
      (t.core (pcid c k)).q.taken = (s.core (pcid c k)).q.taken ∧ (t.core (pcid c k)).mac = (s.core (pcid c k)).mac ∧
      t = (s.fs (Q_STAT (pcid c k) (d.qid.toNat % 64)) Q_STAT.HELD 1).emit (qAnswered (pcid c k) d cOK)) ∧
  (∀ (s : State) (c : Cl) (k : Sl) (d : QdescIn),
    s.unitStill (pcid c k) = true ∧ s.qAdmits (pcid c k) d = true ∧ d.count = 0 ∧ d.post = none ∧ d.words.length = 20 ∧ s.fb (Q_STAT (pcid c k) (d.qid.toNat % 64)) Q_STAT.HELD = true →
    bits (dw (d.words.map (·.toNat)) 0) 0 4 = qKind (pcid c k) (d.qid.toNat % 64) s →
    (s.core (pcid c k)).q.inBuf = [] ∧ qOcc (pcid c k) (d.qid.toNat % 64) s < qDepth (pcid c k) (d.qid.toNat % 64) s →
    ∃ t, exec (.qdescEnq c k d) s = .next t ∧
      scrWords (pcid c k) (qSlot (pcid c k) (d.qid.toNat % 64) (qTail (pcid c k) (d.qid.toNat % 64) s) s) 20 t = envSeal d.inst.toNat d.gen.toNat (d.words.map (·.toNat)) ∧
      qOcc (pcid c k) (d.qid.toNat % 64) t = qOcc (pcid c k) (d.qid.toNat % 64) s + 1 ∧
      t.fb (Q_STAT (pcid c k) (d.qid.toNat % 64)) Q_STAT.HELD = true ∧ t.out = qAnswered (pcid c k) d cOK :: s.out) ∧
  (∀ (s : State) (c : Cl) (k : Sl) (d : QdescIn),
    s.unitStill (pcid c k) = true ∧ s.qAdmits (pcid c k) d = true ∧ d.post = none ∧ d.count = 0 ∧ (s.core (pcid c k)).q.inBuf = [] →
    ∃ t, exec (.qdescRelease c k d) s = .next t ∧
      t.fb (Q_STAT (pcid c k) (d.qid.toNat % 64)) Q_STAT.HELD = false ∧
      t = (s.fs (Q_STAT (pcid c k) (d.qid.toNat % 64)) Q_STAT.HELD 0).emit (qAnswered (pcid c k) d cOK)) ∧
  (∀ (s : State) (c : Cl) (k : Sl) (d : QdescIn) (l : List QTaken),
    s.unitStill (pcid c k) = true ∧ s.qAdmits (pcid c k) d = true ∧ d.post = none ∧ d.count = 0 ∧ (s.core (pcid c k)).q.inBuf = [] ∧ qKind (pcid c k) (d.qid.toNat % 64) s = 2 →
    (List.range 64).all (fun n => n == d.qid.toNat % 64 || qKind (pcid c k) n s != 2) = true ∧ s.fv (Q_CFG (pcid c k) (d.qid.toNat % 64)) Q_CFG.PRI < 4 →
    qTakenN (pcid c k) (d.qid.toNat % 64) s < qOcc (pcid c k) (d.qid.toNat % 64) s ∧ (s.core (pcid c k)).q.stopped = [] ∧ (s.core (pcid c k)).q.taken = l →
    ∃ t, exec (.qdescRelease c k d) s = .next t ∧
      qNext (pcid c k) .move t = some (d.qid.toNat % 64) ∧ (t.core (pcid c k)).q.taken = l)

/-- With E = LRN_EPOCH.LEN, step t lies in epoch t / E and a close is due at its last step while learning is enabled. For every core and step: with LRN_CTRL.EN = 1 and LEN > 0 the epoch number is the k for which t lies in k × E to k × E + E − 1, which is floor(t / E); with EN = 0 it is 0; where learning has not stopped under R139 a close is due exactly when EN = 1 and t mod E = E − 1. Rests on: R149. -/
def Obligations.EpochsAreLENStepsLong : Prop :=
  (∀ (s : State) (p : Fin 2048) (t k : Nat), 0 < s.fv (LRN_EPOCH p.val) LRN_EPOCH.LEN →
     (s.fb (LRN_CTRL p.val) LRN_CTRL.EN = true → (epochOf p.val t s = k ↔ k * s.fv (LRN_EPOCH p.val) LRN_EPOCH.LEN ≤ t ∧ t ≤ k * s.fv (LRN_EPOCH p.val) LRN_EPOCH.LEN + s.fv (LRN_EPOCH p.val) LRN_EPOCH.LEN - 1) ∧
       epochOf p.val t s = t / s.fv (LRN_EPOCH p.val) LRN_EPOCH.LEN) ∧
     (s.fb (LRN_CTRL p.val) LRN_CTRL.EN = false → epochOf p.val t s = 0) ∧
     (s.fb (LRN_STAT p.val) LRN_STAT.FAULT = false →
       (closeDue p.val t s = true ↔ s.fb (LRN_CTRL p.val) LRN_CTRL.EN = true ∧ t % s.fv (LRN_EPOCH p.val) LRN_EPOCH.LEN = s.fv (LRN_EPOCH p.val) LRN_EPOCH.LEN - 1)))
end

