-- ==== Sys2Proof/Laws/Sparse.lean ====
section
/-! SUPPORT. Sparse maps: what a read gives after a write, and that every operation keeps the canonical form. -/
namespace Sys2Proof.Machine

variable {α : Type}

@[simp] theorem sget_nil (d : Nat → α) (k : Nat) : sget d k [] = d k := rfl

theorem sget_serase_same (d : Nat → α) (k : Nat) (m : SMap α) : sget d k (serase k m) = d k := by
  induction m with
  | nil => rfl
  | cons x t ih => obtain ⟨a, v⟩ := x; by_cases h : a = k <;> simp [serase, sget, h, ih]
theorem sget_serase_ne (d : Nat → α) {j k : Nat} (h : j ≠ k) (m : SMap α) : sget d j (serase k m) = sget d j m := by
  induction m with
  | nil => rfl
  | cons x t ih =>
    obtain ⟨a, v⟩ := x
    by_cases ha : a = k
    · subst ha; simp [serase, sget, ih, Ne.symm h]
    · by_cases hj : a = j
      · subst hj; simp [serase, sget, ha]
      · simp [serase, sget, ha, hj, ih]
theorem sget_sinsert_same (d : Nat → α) (k : Nat) (v : α) (m : SMap α) (h : ∀ x ∈ m, x.1 ≠ k) : sget d k (sinsert k v m) = v := by
  induction m with
  | nil => simp [sinsert, sget]
  | cons x t ih =>
    obtain ⟨a, w⟩ := x
    have ha : a ≠ k := h _ (List.mem_cons_self ..)
    by_cases hk : k < a
    · simp [sinsert, sget, hk]
    · simp [sinsert, sget, hk, ha, ih fun y hy => h y (List.mem_cons_of_mem _ hy)]
theorem sget_sinsert_ne (d : Nat → α) {j k : Nat} (h : j ≠ k) (v : α) (m : SMap α) : sget d j (sinsert k v m) = sget d j m := by
  induction m with
  | nil => simp [sinsert, sget, Ne.symm h]
  | cons x t ih =>
    obtain ⟨a, w⟩ := x
    by_cases hk : k < a
    · simp [sinsert, sget, hk, Ne.symm h]
    · by_cases hj : a = j
      · subst hj; simp [sinsert, sget, hk]
      · simp [sinsert, sget, hk, hj, ih]
theorem serase_keys (k : Nat) (m : SMap α) : ∀ x ∈ serase k m, x.1 ≠ k := by
  induction m with
  | nil => simp [serase]
  | cons x t ih =>
    obtain ⟨a, v⟩ := x
    by_cases ha : a = k
    · simpa [serase, ha] using ih
    · simp only [serase, ha, if_false, List.mem_cons, forall_eq_or_imp]
      exact ⟨ha, ih⟩
/-- A read after a write of the same key gives the value written. -/
@[simp] theorem sget_sset_same [DecidableEq α] (d : Nat → α) (k : Nat) (v : α) (m : SMap α) : sget d k (sset d k v m) = v := by
  unfold sset
  split
  · next h => rw [sget_serase_same, h]
  · exact sget_sinsert_same _ _ _ _ (serase_keys k m)
/-- A write leaves every other key alone. -/
theorem sget_sset_ne [DecidableEq α] (d : Nat → α) {j k : Nat} (h : j ≠ k) (v : α) (m : SMap α) : sget d j (sset d k v m) = sget d j m := by
  unfold sset
  split
  · exact sget_serase_ne d h m
  · rw [sget_sinsert_ne d h, sget_serase_ne d h]
theorem sget_sset [DecidableEq α] (d : Nat → α) (j k : Nat) (v : α) (m : SMap α) :
    sget d j (sset d k v m) = if j = k then v else sget d j m := by
  split
  · next h => subst h; simp
  · next h => exact sget_sset_ne d h v m

/-- Clearing a range: its keys read as unlisted, every other key as before. -/
theorem sget_sclear (d : Nat → α) (j a n : Nat) (m : SMap α) :
    sget d j (sclear a n m) = if a ≤ j ∧ j < a + n then d j else sget d j m := by
  induction m with
  | nil => simp [sclear]
  | cons x t ih =>
    obtain ⟨k, v⟩ := x
    by_cases hk : a ≤ k ∧ k < a + n
    · by_cases hj : k = j
      · subst hj; simp [sclear, hk, ih]
      · simp [sclear, hk, ih, sget, hj]
    · by_cases hj : k = j
      · subst hj; simp [sclear, sget, hk]
      · simp [sclear, hk, sget, hj, ih]

/-! The canonical form -/

theorem srising_mono {lo lo' : Option Nat} {m : SMap α} (h : srising lo m = true)
    (hl : ∀ b, lo' = some b → ∃ c, lo = some c ∧ b ≤ c) : srising lo' m = true := by
  cases m with
  | nil => rfl
  | cons x t =>
    obtain ⟨a, v⟩ := x
    cases lo' with
    | none => simp_all [srising]
    | some b =>
      obtain ⟨c, rfl, hc⟩ := hl b rfl
      simp only [srising, Bool.and_eq_true, decide_eq_true_eq] at h ⊢
      exact ⟨by omega, h.2⟩
theorem srising_serase {lo : Option Nat} (k : Nat) {m : SMap α} (h : srising lo m = true) : srising lo (serase k m) = true := by
  induction m generalizing lo with
  | nil => rfl
  | cons x t ih =>
    obtain ⟨a, v⟩ := x
    simp only [srising, Bool.and_eq_true] at h
    by_cases ha : a = k
    · simp only [serase, ha, if_true]
      refine srising_mono (ih h.2) ?_
      intro b hb
      subst hb
      exact ⟨a, rfl, by have := h.1; simp at this; omega⟩
    · simp only [serase, ha, if_false, srising, Bool.and_eq_true]
      exact ⟨h.1, ih h.2⟩
theorem srising_sinsert {lo : Option Nat} (k : Nat) (v : α) {m : SMap α} (h : srising lo m = true) (hk : ∀ x ∈ m, x.1 ≠ k)
    (hl : ∀ b, lo = some b → b < k) : srising lo (sinsert k v m) = true := by
  induction m generalizing lo with
  | nil => cases lo <;> simp_all [sinsert, srising]
  | cons x t ih =>
    obtain ⟨a, w⟩ := x
    simp only [srising, Bool.and_eq_true] at h
    have ha : a ≠ k := hk _ (List.mem_cons_self ..)
    by_cases hka : k < a
    · simp only [sinsert, hka, if_true, srising, Bool.and_eq_true, decide_eq_true_eq]
      refine ⟨?_, trivial, h.2⟩
      cases lo <;> simp_all
    · simp only [sinsert, hka, if_false, srising, Bool.and_eq_true]
      exact ⟨h.1, ih h.2 (fun y hy => hk y (List.mem_cons_of_mem _ hy)) (by rintro b ⟨⟩; omega)⟩
theorem srising_sclear {lo : Option Nat} (a n : Nat) {m : SMap α} (h : srising lo m = true) : srising lo (sclear a n m) = true := by
  induction m generalizing lo with
  | nil => rfl
  | cons x t ih =>
    obtain ⟨k, v⟩ := x
    simp only [srising, Bool.and_eq_true] at h
    by_cases hk : a ≤ k ∧ k < a + n
    · simp only [sclear, hk, and_self, if_true]
      refine srising_mono (ih h.2) ?_
      intro b hb
      subst hb
      exact ⟨k, rfl, by have := h.1; simp at this; omega⟩
    · simp only [sclear, hk, if_false, srising, Bool.and_eq_true]
      exact ⟨h.1, ih h.2⟩
theorem snodef_iff [DecidableEq α] (d : Nat → α) (m : SMap α) : snodef d m = true ↔ ∀ x ∈ m, x.2 ≠ d x.1 := by
  induction m with
  | nil => simp [snodef]
  | cons x t ih => obtain ⟨a, v⟩ := x; simp [snodef, ih]
theorem mem_serase {k : Nat} {m : SMap α} {x : Nat × α} (h : x ∈ serase k m) : x ∈ m := by
  induction m with
  | nil => simp [serase] at h
  | cons y t ih =>
    obtain ⟨a, v⟩ := y
    by_cases ha : a = k <;> simp [serase, ha] at h ⊢
    · exact Or.inr (ih h)
    · exact h.imp_right ih
theorem mem_sinsert {k : Nat} {v : α} {m : SMap α} {x : Nat × α} (h : x ∈ sinsert k v m) : x = (k, v) ∨ x ∈ m := by
  induction m with
  | nil => simpa [sinsert] using h
  | cons y t ih =>
    obtain ⟨a, w⟩ := y
    by_cases ha : k < a <;> simp [sinsert, ha] at h ⊢
    · exact h
    · rcases h with h | h
      · exact Or.inr (Or.inl h)
      · exact (ih h).imp_right Or.inr
theorem mem_sclear {a n : Nat} {m : SMap α} {x : Nat × α} (h : x ∈ sclear a n m) : x ∈ m := by
  induction m with
  | nil => simp [sclear] at h
  | cons y t ih =>
    obtain ⟨k, v⟩ := y
    by_cases hk : a ≤ k ∧ k < a + n <;> simp [sclear, hk] at h ⊢
    · exact Or.inr (ih h)
    · exact h.imp_right ih
/-- A write keeps the canonical form. -/
theorem swf_sset [DecidableEq α] (d : Nat → α) (k : Nat) (v : α) (m : SMap α) (h : swf d m = true) : swf d (sset d k v m) = true := by
  simp only [swf, Bool.and_eq_true, snodef_iff] at h ⊢
  unfold sset
  split
  · exact ⟨srising_serase k h.1, fun x hx => h.2 x (mem_serase hx)⟩
  · next hv =>
    refine ⟨srising_sinsert k v (srising_serase k h.1) (serase_keys k m) (by simp), fun x hx => ?_⟩
    rcases mem_sinsert hx with rfl | hx
    · exact hv
    · exact h.2 x (mem_serase hx)
/-- Clearing a range keeps the canonical form. -/
theorem swf_sclear [DecidableEq α] (d : Nat → α) (a n : Nat) (m : SMap α) (h : swf d m = true) : swf d (sclear a n m) = true := by
  simp only [swf, Bool.and_eq_true, snodef_iff] at h ⊢
  exact ⟨srising_sclear a n h.1, fun x hx => h.2 x (mem_sclear hx)⟩
/-- Erasing a key keeps the canonical form. -/
theorem swf_serase [DecidableEq α] (d : Nat → α) (k : Nat) (m : SMap α) (h : swf d m = true) : swf d (serase k m) = true := by
  simp only [swf, Bool.and_eq_true, snodef_iff] at h ⊢
  exact ⟨srising_serase k h.1, fun x hx => h.2 x (mem_serase hx)⟩
@[simp] theorem swf_nil [DecidableEq α] (d : Nat → α) : swf d ([] : SMap α) = true := rfl

end Sys2Proof.Machine
end

