-- ==== Sys2Proof/Laws/State.lean ====
section
/-! SUPPORT. One lemma per field of State per named update: what the update leaves as it was. -/
namespace Sys2Proof.Machine

variable (s : State)

/-! wr -/
@[simp] theorem State.wr_mem (k v : Nat) : (State.wr k v s).mem = s.mem := (rfl)
@[simp] theorem State.wr_sramSyn (k v : Nat) : (State.wr k v s).sramSyn = s.sramSyn := (rfl)
@[simp] theorem State.wr_bond (k v : Nat) : (State.wr k v s).bond = s.bond := (rfl)
@[simp] theorem State.wr_cores (k v : Nat) : (State.wr k v s).cores = s.cores := (rfl)
@[simp] theorem State.wr_clusters (k v : Nat) : (State.wr k v s).clusters = s.clusters := (rfl)
@[simp] theorem State.wr_insts (k v : Nat) : (State.wr k v s).insts = s.insts := (rfl)
@[simp] theorem State.wr_slices (k v : Nat) : (State.wr k v s).slices = s.slices := (rfl)
@[simp] theorem State.wr_dev (k v : Nat) : (State.wr k v s).dev = s.dev := (rfl)
@[simp] theorem State.wr_net (k v : Nat) : (State.wr k v s).net = s.net := (rfl)
@[simp] theorem State.wr_memc (k v : Nat) : (State.wr k v s).memc = s.memc := (rfl)
@[simp] theorem State.wr_jports (k v : Nat) : (State.wr k v s).jports = s.jports := (rfl)
@[simp] theorem State.wr_jdev (k v : Nat) : (State.wr k v s).jdev = s.jdev := (rfl)
@[simp] theorem State.wr_host (k v : Nat) : (State.wr k v s).host = s.host := (rfl)
@[simp] theorem State.wr_pers (k v : Nat) : (State.wr k v s).pers = s.pers := (rfl)
@[simp] theorem State.wr_power (k v : Nat) : (State.wr k v s).power = s.power := (rfl)
@[simp] theorem State.wr_sec (k v : Nat) : (State.wr k v s).sec = s.sec := (rfl)
@[simp] theorem State.wr_mgmt (k v : Nat) : (State.wr k v s).mgmt = s.mgmt := (rfl)
@[simp] theorem State.wr_pat (k v : Nat) : (State.wr k v s).pat = s.pat := (rfl)
@[simp] theorem State.wr_logIn (k v : Nat) : (State.wr k v s).logIn = s.logIn := (rfl)
@[simp] theorem State.wr_cpl (k v : Nat) : (State.wr k v s).cpl = s.cpl := (rfl)
@[simp] theorem State.wr_out (k v : Nat) : (State.wr k v s).out = s.out := (rfl)
@[simp] theorem State.wr_fresh (k v : Nat) : (State.wr k v s).fresh = s.fresh := (rfl)
@[simp] theorem State.wr_pending (k v : Nat) : (State.wr k v s).pending = s.pending := (rfl)

/-! resetRegs -/
@[simp] theorem State.resetRegs_mem (a n : Nat) : (State.resetRegs a n s).mem = s.mem := (rfl)
@[simp] theorem State.resetRegs_sramSyn (a n : Nat) : (State.resetRegs a n s).sramSyn = s.sramSyn := (rfl)
@[simp] theorem State.resetRegs_bond (a n : Nat) : (State.resetRegs a n s).bond = s.bond := (rfl)
@[simp] theorem State.resetRegs_cores (a n : Nat) : (State.resetRegs a n s).cores = s.cores := (rfl)
@[simp] theorem State.resetRegs_clusters (a n : Nat) : (State.resetRegs a n s).clusters = s.clusters := (rfl)
@[simp] theorem State.resetRegs_insts (a n : Nat) : (State.resetRegs a n s).insts = s.insts := (rfl)
@[simp] theorem State.resetRegs_slices (a n : Nat) : (State.resetRegs a n s).slices = s.slices := (rfl)
@[simp] theorem State.resetRegs_dev (a n : Nat) : (State.resetRegs a n s).dev = s.dev := (rfl)
@[simp] theorem State.resetRegs_net (a n : Nat) : (State.resetRegs a n s).net = s.net := (rfl)
@[simp] theorem State.resetRegs_memc (a n : Nat) : (State.resetRegs a n s).memc = s.memc := (rfl)
@[simp] theorem State.resetRegs_jports (a n : Nat) : (State.resetRegs a n s).jports = s.jports := (rfl)
@[simp] theorem State.resetRegs_jdev (a n : Nat) : (State.resetRegs a n s).jdev = s.jdev := (rfl)
@[simp] theorem State.resetRegs_host (a n : Nat) : (State.resetRegs a n s).host = s.host := (rfl)
@[simp] theorem State.resetRegs_pers (a n : Nat) : (State.resetRegs a n s).pers = s.pers := (rfl)
@[simp] theorem State.resetRegs_power (a n : Nat) : (State.resetRegs a n s).power = s.power := (rfl)
@[simp] theorem State.resetRegs_sec (a n : Nat) : (State.resetRegs a n s).sec = s.sec := (rfl)
@[simp] theorem State.resetRegs_mgmt (a n : Nat) : (State.resetRegs a n s).mgmt = s.mgmt := (rfl)
@[simp] theorem State.resetRegs_pat (a n : Nat) : (State.resetRegs a n s).pat = s.pat := (rfl)
@[simp] theorem State.resetRegs_logIn (a n : Nat) : (State.resetRegs a n s).logIn = s.logIn := (rfl)
@[simp] theorem State.resetRegs_cpl (a n : Nat) : (State.resetRegs a n s).cpl = s.cpl := (rfl)
@[simp] theorem State.resetRegs_out (a n : Nat) : (State.resetRegs a n s).out = s.out := (rfl)
@[simp] theorem State.resetRegs_fresh (a n : Nat) : (State.resetRegs a n s).fresh = s.fresh := (rfl)
@[simp] theorem State.resetRegs_pending (a n : Nat) : (State.resetRegs a n s).pending = s.pending := (rfl)

/-! wr64 -/
@[simp] theorem State.wr64_mem (k v : Nat) : (State.wr64 k v s).mem = s.mem := (rfl)
@[simp] theorem State.wr64_sramSyn (k v : Nat) : (State.wr64 k v s).sramSyn = s.sramSyn := (rfl)
@[simp] theorem State.wr64_bond (k v : Nat) : (State.wr64 k v s).bond = s.bond := (rfl)
@[simp] theorem State.wr64_cores (k v : Nat) : (State.wr64 k v s).cores = s.cores := (rfl)
@[simp] theorem State.wr64_clusters (k v : Nat) : (State.wr64 k v s).clusters = s.clusters := (rfl)
@[simp] theorem State.wr64_insts (k v : Nat) : (State.wr64 k v s).insts = s.insts := (rfl)
@[simp] theorem State.wr64_slices (k v : Nat) : (State.wr64 k v s).slices = s.slices := (rfl)
@[simp] theorem State.wr64_dev (k v : Nat) : (State.wr64 k v s).dev = s.dev := (rfl)
@[simp] theorem State.wr64_net (k v : Nat) : (State.wr64 k v s).net = s.net := (rfl)
@[simp] theorem State.wr64_memc (k v : Nat) : (State.wr64 k v s).memc = s.memc := (rfl)
@[simp] theorem State.wr64_jports (k v : Nat) : (State.wr64 k v s).jports = s.jports := (rfl)
@[simp] theorem State.wr64_jdev (k v : Nat) : (State.wr64 k v s).jdev = s.jdev := (rfl)
@[simp] theorem State.wr64_host (k v : Nat) : (State.wr64 k v s).host = s.host := (rfl)
@[simp] theorem State.wr64_pers (k v : Nat) : (State.wr64 k v s).pers = s.pers := (rfl)
@[simp] theorem State.wr64_power (k v : Nat) : (State.wr64 k v s).power = s.power := (rfl)
@[simp] theorem State.wr64_sec (k v : Nat) : (State.wr64 k v s).sec = s.sec := (rfl)
@[simp] theorem State.wr64_mgmt (k v : Nat) : (State.wr64 k v s).mgmt = s.mgmt := (rfl)
@[simp] theorem State.wr64_pat (k v : Nat) : (State.wr64 k v s).pat = s.pat := (rfl)
@[simp] theorem State.wr64_logIn (k v : Nat) : (State.wr64 k v s).logIn = s.logIn := (rfl)
@[simp] theorem State.wr64_cpl (k v : Nat) : (State.wr64 k v s).cpl = s.cpl := (rfl)
@[simp] theorem State.wr64_out (k v : Nat) : (State.wr64 k v s).out = s.out := (rfl)
@[simp] theorem State.wr64_fresh (k v : Nat) : (State.wr64 k v s).fresh = s.fresh := (rfl)
@[simp] theorem State.wr64_pending (k v : Nat) : (State.wr64 k v s).pending = s.pending := (rfl)

/-! fs -/
@[simp] theorem State.fs_mem (k : Nat) (f : Fld) (v : Nat) : (State.fs k f v s).mem = s.mem := by unfold State.fs; split <;> rfl
@[simp] theorem State.fs_sramSyn (k : Nat) (f : Fld) (v : Nat) : (State.fs k f v s).sramSyn = s.sramSyn := by unfold State.fs; split <;> rfl
@[simp] theorem State.fs_bond (k : Nat) (f : Fld) (v : Nat) : (State.fs k f v s).bond = s.bond := by unfold State.fs; split <;> rfl
@[simp] theorem State.fs_cores (k : Nat) (f : Fld) (v : Nat) : (State.fs k f v s).cores = s.cores := by unfold State.fs; split <;> rfl
@[simp] theorem State.fs_clusters (k : Nat) (f : Fld) (v : Nat) : (State.fs k f v s).clusters = s.clusters := by unfold State.fs; split <;> rfl
@[simp] theorem State.fs_insts (k : Nat) (f : Fld) (v : Nat) : (State.fs k f v s).insts = s.insts := by unfold State.fs; split <;> rfl
@[simp] theorem State.fs_slices (k : Nat) (f : Fld) (v : Nat) : (State.fs k f v s).slices = s.slices := by unfold State.fs; split <;> rfl
@[simp] theorem State.fs_dev (k : Nat) (f : Fld) (v : Nat) : (State.fs k f v s).dev = s.dev := by unfold State.fs; split <;> rfl
@[simp] theorem State.fs_net (k : Nat) (f : Fld) (v : Nat) : (State.fs k f v s).net = s.net := by unfold State.fs; split <;> rfl
@[simp] theorem State.fs_memc (k : Nat) (f : Fld) (v : Nat) : (State.fs k f v s).memc = s.memc := by unfold State.fs; split <;> rfl
@[simp] theorem State.fs_jports (k : Nat) (f : Fld) (v : Nat) : (State.fs k f v s).jports = s.jports := by unfold State.fs; split <;> rfl
@[simp] theorem State.fs_jdev (k : Nat) (f : Fld) (v : Nat) : (State.fs k f v s).jdev = s.jdev := by unfold State.fs; split <;> rfl
@[simp] theorem State.fs_host (k : Nat) (f : Fld) (v : Nat) : (State.fs k f v s).host = s.host := by unfold State.fs; split <;> rfl
@[simp] theorem State.fs_pers (k : Nat) (f : Fld) (v : Nat) : (State.fs k f v s).pers = s.pers := by unfold State.fs; split <;> rfl
@[simp] theorem State.fs_power (k : Nat) (f : Fld) (v : Nat) : (State.fs k f v s).power = s.power := by unfold State.fs; split <;> rfl
@[simp] theorem State.fs_sec (k : Nat) (f : Fld) (v : Nat) : (State.fs k f v s).sec = s.sec := by unfold State.fs; split <;> rfl
@[simp] theorem State.fs_mgmt (k : Nat) (f : Fld) (v : Nat) : (State.fs k f v s).mgmt = s.mgmt := by unfold State.fs; split <;> rfl
@[simp] theorem State.fs_pat (k : Nat) (f : Fld) (v : Nat) : (State.fs k f v s).pat = s.pat := by unfold State.fs; split <;> rfl
@[simp] theorem State.fs_logIn (k : Nat) (f : Fld) (v : Nat) : (State.fs k f v s).logIn = s.logIn := by unfold State.fs; split <;> rfl
@[simp] theorem State.fs_cpl (k : Nat) (f : Fld) (v : Nat) : (State.fs k f v s).cpl = s.cpl := by unfold State.fs; split <;> rfl
@[simp] theorem State.fs_out (k : Nat) (f : Fld) (v : Nat) : (State.fs k f v s).out = s.out := by unfold State.fs; split <;> rfl
@[simp] theorem State.fs_fresh (k : Nat) (f : Fld) (v : Nat) : (State.fs k f v s).fresh = s.fresh := by unfold State.fs; split <;> rfl
@[simp] theorem State.fs_pending (k : Nat) (f : Fld) (v : Nat) : (State.fs k f v s).pending = s.pending := by unfold State.fs; split <;> rfl

/-! inc -/
@[simp] theorem State.inc_mem (k n : Nat) : (State.inc k n s).mem = s.mem := (rfl)
@[simp] theorem State.inc_sramSyn (k n : Nat) : (State.inc k n s).sramSyn = s.sramSyn := (rfl)
@[simp] theorem State.inc_bond (k n : Nat) : (State.inc k n s).bond = s.bond := (rfl)
@[simp] theorem State.inc_cores (k n : Nat) : (State.inc k n s).cores = s.cores := (rfl)
@[simp] theorem State.inc_clusters (k n : Nat) : (State.inc k n s).clusters = s.clusters := (rfl)
@[simp] theorem State.inc_insts (k n : Nat) : (State.inc k n s).insts = s.insts := (rfl)
@[simp] theorem State.inc_slices (k n : Nat) : (State.inc k n s).slices = s.slices := (rfl)
@[simp] theorem State.inc_dev (k n : Nat) : (State.inc k n s).dev = s.dev := (rfl)
@[simp] theorem State.inc_net (k n : Nat) : (State.inc k n s).net = s.net := (rfl)
@[simp] theorem State.inc_memc (k n : Nat) : (State.inc k n s).memc = s.memc := (rfl)
@[simp] theorem State.inc_jports (k n : Nat) : (State.inc k n s).jports = s.jports := (rfl)
@[simp] theorem State.inc_jdev (k n : Nat) : (State.inc k n s).jdev = s.jdev := (rfl)
@[simp] theorem State.inc_host (k n : Nat) : (State.inc k n s).host = s.host := (rfl)
@[simp] theorem State.inc_pers (k n : Nat) : (State.inc k n s).pers = s.pers := (rfl)
@[simp] theorem State.inc_power (k n : Nat) : (State.inc k n s).power = s.power := (rfl)
@[simp] theorem State.inc_sec (k n : Nat) : (State.inc k n s).sec = s.sec := (rfl)
@[simp] theorem State.inc_mgmt (k n : Nat) : (State.inc k n s).mgmt = s.mgmt := (rfl)
@[simp] theorem State.inc_pat (k n : Nat) : (State.inc k n s).pat = s.pat := (rfl)
@[simp] theorem State.inc_logIn (k n : Nat) : (State.inc k n s).logIn = s.logIn := (rfl)
@[simp] theorem State.inc_cpl (k n : Nat) : (State.inc k n s).cpl = s.cpl := (rfl)
@[simp] theorem State.inc_out (k n : Nat) : (State.inc k n s).out = s.out := (rfl)
@[simp] theorem State.inc_fresh (k n : Nat) : (State.inc k n s).fresh = s.fresh := (rfl)
@[simp] theorem State.inc_pending (k n : Nat) : (State.inc k n s).pending = s.pending := (rfl)

/-! inc64 -/
@[simp] theorem State.inc64_mem (k n : Nat) : (State.inc64 k n s).mem = s.mem := State.wr64_mem s k _
@[simp] theorem State.inc64_sramSyn (k n : Nat) : (State.inc64 k n s).sramSyn = s.sramSyn := State.wr64_sramSyn s k _
@[simp] theorem State.inc64_bond (k n : Nat) : (State.inc64 k n s).bond = s.bond := State.wr64_bond s k _
@[simp] theorem State.inc64_cores (k n : Nat) : (State.inc64 k n s).cores = s.cores := State.wr64_cores s k _
@[simp] theorem State.inc64_clusters (k n : Nat) : (State.inc64 k n s).clusters = s.clusters := State.wr64_clusters s k _
@[simp] theorem State.inc64_insts (k n : Nat) : (State.inc64 k n s).insts = s.insts := State.wr64_insts s k _
@[simp] theorem State.inc64_slices (k n : Nat) : (State.inc64 k n s).slices = s.slices := State.wr64_slices s k _
@[simp] theorem State.inc64_dev (k n : Nat) : (State.inc64 k n s).dev = s.dev := State.wr64_dev s k _
@[simp] theorem State.inc64_net (k n : Nat) : (State.inc64 k n s).net = s.net := State.wr64_net s k _
@[simp] theorem State.inc64_memc (k n : Nat) : (State.inc64 k n s).memc = s.memc := State.wr64_memc s k _
@[simp] theorem State.inc64_jports (k n : Nat) : (State.inc64 k n s).jports = s.jports := State.wr64_jports s k _
@[simp] theorem State.inc64_jdev (k n : Nat) : (State.inc64 k n s).jdev = s.jdev := State.wr64_jdev s k _
@[simp] theorem State.inc64_host (k n : Nat) : (State.inc64 k n s).host = s.host := State.wr64_host s k _
@[simp] theorem State.inc64_pers (k n : Nat) : (State.inc64 k n s).pers = s.pers := State.wr64_pers s k _
@[simp] theorem State.inc64_power (k n : Nat) : (State.inc64 k n s).power = s.power := State.wr64_power s k _
@[simp] theorem State.inc64_sec (k n : Nat) : (State.inc64 k n s).sec = s.sec := State.wr64_sec s k _
@[simp] theorem State.inc64_mgmt (k n : Nat) : (State.inc64 k n s).mgmt = s.mgmt := State.wr64_mgmt s k _
@[simp] theorem State.inc64_pat (k n : Nat) : (State.inc64 k n s).pat = s.pat := State.wr64_pat s k _
@[simp] theorem State.inc64_logIn (k n : Nat) : (State.inc64 k n s).logIn = s.logIn := State.wr64_logIn s k _
@[simp] theorem State.inc64_cpl (k n : Nat) : (State.inc64 k n s).cpl = s.cpl := State.wr64_cpl s k _
@[simp] theorem State.inc64_out (k n : Nat) : (State.inc64 k n s).out = s.out := State.wr64_out s k _
@[simp] theorem State.inc64_fresh (k n : Nat) : (State.inc64 k n s).fresh = s.fresh := State.wr64_fresh s k _
@[simp] theorem State.inc64_pending (k n : Nat) : (State.inc64 k n s).pending = s.pending := State.wr64_pending s k _

/-! wrB -/
@[simp] theorem State.wrB_regs (a : Nat) (v : Byte) : (State.wrB a v s).regs = s.regs := (rfl)
@[simp] theorem State.wrB_sramSyn (a : Nat) (v : Byte) : (State.wrB a v s).sramSyn = s.sramSyn := (rfl)
@[simp] theorem State.wrB_bond (a : Nat) (v : Byte) : (State.wrB a v s).bond = s.bond := (rfl)
@[simp] theorem State.wrB_cores (a : Nat) (v : Byte) : (State.wrB a v s).cores = s.cores := (rfl)
@[simp] theorem State.wrB_clusters (a : Nat) (v : Byte) : (State.wrB a v s).clusters = s.clusters := (rfl)
@[simp] theorem State.wrB_insts (a : Nat) (v : Byte) : (State.wrB a v s).insts = s.insts := (rfl)
@[simp] theorem State.wrB_slices (a : Nat) (v : Byte) : (State.wrB a v s).slices = s.slices := (rfl)
@[simp] theorem State.wrB_dev (a : Nat) (v : Byte) : (State.wrB a v s).dev = s.dev := (rfl)
@[simp] theorem State.wrB_net (a : Nat) (v : Byte) : (State.wrB a v s).net = s.net := (rfl)
@[simp] theorem State.wrB_memc (a : Nat) (v : Byte) : (State.wrB a v s).memc = s.memc := (rfl)
@[simp] theorem State.wrB_jports (a : Nat) (v : Byte) : (State.wrB a v s).jports = s.jports := (rfl)
@[simp] theorem State.wrB_jdev (a : Nat) (v : Byte) : (State.wrB a v s).jdev = s.jdev := (rfl)
@[simp] theorem State.wrB_host (a : Nat) (v : Byte) : (State.wrB a v s).host = s.host := (rfl)
@[simp] theorem State.wrB_pers (a : Nat) (v : Byte) : (State.wrB a v s).pers = s.pers := (rfl)
@[simp] theorem State.wrB_power (a : Nat) (v : Byte) : (State.wrB a v s).power = s.power := (rfl)
@[simp] theorem State.wrB_sec (a : Nat) (v : Byte) : (State.wrB a v s).sec = s.sec := (rfl)
@[simp] theorem State.wrB_mgmt (a : Nat) (v : Byte) : (State.wrB a v s).mgmt = s.mgmt := (rfl)
@[simp] theorem State.wrB_pat (a : Nat) (v : Byte) : (State.wrB a v s).pat = s.pat := (rfl)
@[simp] theorem State.wrB_logIn (a : Nat) (v : Byte) : (State.wrB a v s).logIn = s.logIn := (rfl)
@[simp] theorem State.wrB_cpl (a : Nat) (v : Byte) : (State.wrB a v s).cpl = s.cpl := (rfl)
@[simp] theorem State.wrB_out (a : Nat) (v : Byte) : (State.wrB a v s).out = s.out := (rfl)
@[simp] theorem State.wrB_fresh (a : Nat) (v : Byte) : (State.wrB a v s).fresh = s.fresh := (rfl)
@[simp] theorem State.wrB_pending (a : Nat) (v : Byte) : (State.wrB a v s).pending = s.pending := (rfl)

/-! clrN -/
@[simp] theorem State.clrN_regs (a n : Nat) : (State.clrN a n s).regs = s.regs := (rfl)
@[simp] theorem State.clrN_sramSyn (a n : Nat) : (State.clrN a n s).sramSyn = s.sramSyn := (rfl)
@[simp] theorem State.clrN_bond (a n : Nat) : (State.clrN a n s).bond = s.bond := (rfl)
@[simp] theorem State.clrN_cores (a n : Nat) : (State.clrN a n s).cores = s.cores := (rfl)
@[simp] theorem State.clrN_clusters (a n : Nat) : (State.clrN a n s).clusters = s.clusters := (rfl)
@[simp] theorem State.clrN_insts (a n : Nat) : (State.clrN a n s).insts = s.insts := (rfl)
@[simp] theorem State.clrN_slices (a n : Nat) : (State.clrN a n s).slices = s.slices := (rfl)
@[simp] theorem State.clrN_dev (a n : Nat) : (State.clrN a n s).dev = s.dev := (rfl)
@[simp] theorem State.clrN_net (a n : Nat) : (State.clrN a n s).net = s.net := (rfl)
@[simp] theorem State.clrN_memc (a n : Nat) : (State.clrN a n s).memc = s.memc := (rfl)
@[simp] theorem State.clrN_jports (a n : Nat) : (State.clrN a n s).jports = s.jports := (rfl)
@[simp] theorem State.clrN_jdev (a n : Nat) : (State.clrN a n s).jdev = s.jdev := (rfl)
@[simp] theorem State.clrN_host (a n : Nat) : (State.clrN a n s).host = s.host := (rfl)
@[simp] theorem State.clrN_pers (a n : Nat) : (State.clrN a n s).pers = s.pers := (rfl)
@[simp] theorem State.clrN_power (a n : Nat) : (State.clrN a n s).power = s.power := (rfl)
@[simp] theorem State.clrN_sec (a n : Nat) : (State.clrN a n s).sec = s.sec := (rfl)
@[simp] theorem State.clrN_mgmt (a n : Nat) : (State.clrN a n s).mgmt = s.mgmt := (rfl)
@[simp] theorem State.clrN_pat (a n : Nat) : (State.clrN a n s).pat = s.pat := (rfl)
@[simp] theorem State.clrN_logIn (a n : Nat) : (State.clrN a n s).logIn = s.logIn := (rfl)
@[simp] theorem State.clrN_cpl (a n : Nat) : (State.clrN a n s).cpl = s.cpl := (rfl)
@[simp] theorem State.clrN_out (a n : Nat) : (State.clrN a n s).out = s.out := (rfl)
@[simp] theorem State.clrN_fresh (a n : Nat) : (State.clrN a n s).fresh = s.fresh := (rfl)
@[simp] theorem State.clrN_pending (a n : Nat) : (State.clrN a n s).pending = s.pending := (rfl)

/-! setCore -/
@[simp] theorem State.setCore_regs (p : Nat) (x : CoreSt) : (State.setCore p x s).regs = s.regs := (rfl)
@[simp] theorem State.setCore_mem (p : Nat) (x : CoreSt) : (State.setCore p x s).mem = s.mem := (rfl)
@[simp] theorem State.setCore_sramSyn (p : Nat) (x : CoreSt) : (State.setCore p x s).sramSyn = s.sramSyn := (rfl)
@[simp] theorem State.setCore_bond (p : Nat) (x : CoreSt) : (State.setCore p x s).bond = s.bond := (rfl)
@[simp] theorem State.setCore_clusters (p : Nat) (x : CoreSt) : (State.setCore p x s).clusters = s.clusters := (rfl)
@[simp] theorem State.setCore_insts (p : Nat) (x : CoreSt) : (State.setCore p x s).insts = s.insts := (rfl)
@[simp] theorem State.setCore_slices (p : Nat) (x : CoreSt) : (State.setCore p x s).slices = s.slices := (rfl)
@[simp] theorem State.setCore_dev (p : Nat) (x : CoreSt) : (State.setCore p x s).dev = s.dev := (rfl)
@[simp] theorem State.setCore_net (p : Nat) (x : CoreSt) : (State.setCore p x s).net = s.net := (rfl)
@[simp] theorem State.setCore_memc (p : Nat) (x : CoreSt) : (State.setCore p x s).memc = s.memc := (rfl)
@[simp] theorem State.setCore_jports (p : Nat) (x : CoreSt) : (State.setCore p x s).jports = s.jports := (rfl)
@[simp] theorem State.setCore_jdev (p : Nat) (x : CoreSt) : (State.setCore p x s).jdev = s.jdev := (rfl)
@[simp] theorem State.setCore_host (p : Nat) (x : CoreSt) : (State.setCore p x s).host = s.host := (rfl)
@[simp] theorem State.setCore_pers (p : Nat) (x : CoreSt) : (State.setCore p x s).pers = s.pers := (rfl)
@[simp] theorem State.setCore_power (p : Nat) (x : CoreSt) : (State.setCore p x s).power = s.power := (rfl)
@[simp] theorem State.setCore_sec (p : Nat) (x : CoreSt) : (State.setCore p x s).sec = s.sec := (rfl)
@[simp] theorem State.setCore_mgmt (p : Nat) (x : CoreSt) : (State.setCore p x s).mgmt = s.mgmt := (rfl)
@[simp] theorem State.setCore_pat (p : Nat) (x : CoreSt) : (State.setCore p x s).pat = s.pat := (rfl)
@[simp] theorem State.setCore_logIn (p : Nat) (x : CoreSt) : (State.setCore p x s).logIn = s.logIn := (rfl)
@[simp] theorem State.setCore_cpl (p : Nat) (x : CoreSt) : (State.setCore p x s).cpl = s.cpl := (rfl)
@[simp] theorem State.setCore_out (p : Nat) (x : CoreSt) : (State.setCore p x s).out = s.out := (rfl)
@[simp] theorem State.setCore_fresh (p : Nat) (x : CoreSt) : (State.setCore p x s).fresh = s.fresh := (rfl)
@[simp] theorem State.setCore_pending (p : Nat) (x : CoreSt) : (State.setCore p x s).pending = s.pending := (rfl)

/-! setCluster -/
@[simp] theorem State.setCluster_regs (c : Nat) (x : ClusterSt) : (State.setCluster c x s).regs = s.regs := (rfl)
@[simp] theorem State.setCluster_mem (c : Nat) (x : ClusterSt) : (State.setCluster c x s).mem = s.mem := (rfl)
@[simp] theorem State.setCluster_sramSyn (c : Nat) (x : ClusterSt) : (State.setCluster c x s).sramSyn = s.sramSyn := (rfl)
@[simp] theorem State.setCluster_bond (c : Nat) (x : ClusterSt) : (State.setCluster c x s).bond = s.bond := (rfl)
@[simp] theorem State.setCluster_cores (c : Nat) (x : ClusterSt) : (State.setCluster c x s).cores = s.cores := (rfl)
@[simp] theorem State.setCluster_insts (c : Nat) (x : ClusterSt) : (State.setCluster c x s).insts = s.insts := (rfl)
@[simp] theorem State.setCluster_slices (c : Nat) (x : ClusterSt) : (State.setCluster c x s).slices = s.slices := (rfl)
@[simp] theorem State.setCluster_dev (c : Nat) (x : ClusterSt) : (State.setCluster c x s).dev = s.dev := (rfl)
@[simp] theorem State.setCluster_net (c : Nat) (x : ClusterSt) : (State.setCluster c x s).net = s.net := (rfl)
@[simp] theorem State.setCluster_memc (c : Nat) (x : ClusterSt) : (State.setCluster c x s).memc = s.memc := (rfl)
@[simp] theorem State.setCluster_jports (c : Nat) (x : ClusterSt) : (State.setCluster c x s).jports = s.jports := (rfl)
@[simp] theorem State.setCluster_jdev (c : Nat) (x : ClusterSt) : (State.setCluster c x s).jdev = s.jdev := (rfl)
@[simp] theorem State.setCluster_host (c : Nat) (x : ClusterSt) : (State.setCluster c x s).host = s.host := (rfl)
@[simp] theorem State.setCluster_pers (c : Nat) (x : ClusterSt) : (State.setCluster c x s).pers = s.pers := (rfl)
@[simp] theorem State.setCluster_power (c : Nat) (x : ClusterSt) : (State.setCluster c x s).power = s.power := (rfl)
@[simp] theorem State.setCluster_sec (c : Nat) (x : ClusterSt) : (State.setCluster c x s).sec = s.sec := (rfl)
@[simp] theorem State.setCluster_mgmt (c : Nat) (x : ClusterSt) : (State.setCluster c x s).mgmt = s.mgmt := (rfl)
@[simp] theorem State.setCluster_pat (c : Nat) (x : ClusterSt) : (State.setCluster c x s).pat = s.pat := (rfl)
@[simp] theorem State.setCluster_logIn (c : Nat) (x : ClusterSt) : (State.setCluster c x s).logIn = s.logIn := (rfl)
@[simp] theorem State.setCluster_cpl (c : Nat) (x : ClusterSt) : (State.setCluster c x s).cpl = s.cpl := (rfl)
@[simp] theorem State.setCluster_out (c : Nat) (x : ClusterSt) : (State.setCluster c x s).out = s.out := (rfl)
@[simp] theorem State.setCluster_fresh (c : Nat) (x : ClusterSt) : (State.setCluster c x s).fresh = s.fresh := (rfl)
@[simp] theorem State.setCluster_pending (c : Nat) (x : ClusterSt) : (State.setCluster c x s).pending = s.pending := (rfl)

/-! setInst -/
@[simp] theorem State.setInst_regs (i : Nat) (x : InstSt) : (State.setInst i x s).regs = s.regs := (rfl)
@[simp] theorem State.setInst_mem (i : Nat) (x : InstSt) : (State.setInst i x s).mem = s.mem := (rfl)
@[simp] theorem State.setInst_sramSyn (i : Nat) (x : InstSt) : (State.setInst i x s).sramSyn = s.sramSyn := (rfl)
@[simp] theorem State.setInst_bond (i : Nat) (x : InstSt) : (State.setInst i x s).bond = s.bond := (rfl)
@[simp] theorem State.setInst_cores (i : Nat) (x : InstSt) : (State.setInst i x s).cores = s.cores := (rfl)
@[simp] theorem State.setInst_clusters (i : Nat) (x : InstSt) : (State.setInst i x s).clusters = s.clusters := (rfl)
@[simp] theorem State.setInst_slices (i : Nat) (x : InstSt) : (State.setInst i x s).slices = s.slices := (rfl)
@[simp] theorem State.setInst_dev (i : Nat) (x : InstSt) : (State.setInst i x s).dev = s.dev := (rfl)
@[simp] theorem State.setInst_net (i : Nat) (x : InstSt) : (State.setInst i x s).net = s.net := (rfl)
@[simp] theorem State.setInst_memc (i : Nat) (x : InstSt) : (State.setInst i x s).memc = s.memc := (rfl)
@[simp] theorem State.setInst_jports (i : Nat) (x : InstSt) : (State.setInst i x s).jports = s.jports := (rfl)
@[simp] theorem State.setInst_jdev (i : Nat) (x : InstSt) : (State.setInst i x s).jdev = s.jdev := (rfl)
@[simp] theorem State.setInst_host (i : Nat) (x : InstSt) : (State.setInst i x s).host = s.host := (rfl)
@[simp] theorem State.setInst_pers (i : Nat) (x : InstSt) : (State.setInst i x s).pers = s.pers := (rfl)
@[simp] theorem State.setInst_power (i : Nat) (x : InstSt) : (State.setInst i x s).power = s.power := (rfl)
@[simp] theorem State.setInst_sec (i : Nat) (x : InstSt) : (State.setInst i x s).sec = s.sec := (rfl)
@[simp] theorem State.setInst_mgmt (i : Nat) (x : InstSt) : (State.setInst i x s).mgmt = s.mgmt := (rfl)
@[simp] theorem State.setInst_pat (i : Nat) (x : InstSt) : (State.setInst i x s).pat = s.pat := (rfl)
@[simp] theorem State.setInst_logIn (i : Nat) (x : InstSt) : (State.setInst i x s).logIn = s.logIn := (rfl)
@[simp] theorem State.setInst_cpl (i : Nat) (x : InstSt) : (State.setInst i x s).cpl = s.cpl := (rfl)
@[simp] theorem State.setInst_out (i : Nat) (x : InstSt) : (State.setInst i x s).out = s.out := (rfl)
@[simp] theorem State.setInst_fresh (i : Nat) (x : InstSt) : (State.setInst i x s).fresh = s.fresh := (rfl)
@[simp] theorem State.setInst_pending (i : Nat) (x : InstSt) : (State.setInst i x s).pending = s.pending := (rfl)

/-! setSlice -/
@[simp] theorem State.setSlice_regs (i : Nat) (x : SliceSt) : (State.setSlice i x s).regs = s.regs := (rfl)
@[simp] theorem State.setSlice_mem (i : Nat) (x : SliceSt) : (State.setSlice i x s).mem = s.mem := (rfl)
@[simp] theorem State.setSlice_sramSyn (i : Nat) (x : SliceSt) : (State.setSlice i x s).sramSyn = s.sramSyn := (rfl)
@[simp] theorem State.setSlice_bond (i : Nat) (x : SliceSt) : (State.setSlice i x s).bond = s.bond := (rfl)
@[simp] theorem State.setSlice_cores (i : Nat) (x : SliceSt) : (State.setSlice i x s).cores = s.cores := (rfl)
@[simp] theorem State.setSlice_clusters (i : Nat) (x : SliceSt) : (State.setSlice i x s).clusters = s.clusters := (rfl)
@[simp] theorem State.setSlice_insts (i : Nat) (x : SliceSt) : (State.setSlice i x s).insts = s.insts := (rfl)
@[simp] theorem State.setSlice_dev (i : Nat) (x : SliceSt) : (State.setSlice i x s).dev = s.dev := (rfl)
@[simp] theorem State.setSlice_net (i : Nat) (x : SliceSt) : (State.setSlice i x s).net = s.net := (rfl)
@[simp] theorem State.setSlice_memc (i : Nat) (x : SliceSt) : (State.setSlice i x s).memc = s.memc := (rfl)
@[simp] theorem State.setSlice_jports (i : Nat) (x : SliceSt) : (State.setSlice i x s).jports = s.jports := (rfl)
@[simp] theorem State.setSlice_jdev (i : Nat) (x : SliceSt) : (State.setSlice i x s).jdev = s.jdev := (rfl)
@[simp] theorem State.setSlice_host (i : Nat) (x : SliceSt) : (State.setSlice i x s).host = s.host := (rfl)
@[simp] theorem State.setSlice_pers (i : Nat) (x : SliceSt) : (State.setSlice i x s).pers = s.pers := (rfl)
@[simp] theorem State.setSlice_power (i : Nat) (x : SliceSt) : (State.setSlice i x s).power = s.power := (rfl)
@[simp] theorem State.setSlice_sec (i : Nat) (x : SliceSt) : (State.setSlice i x s).sec = s.sec := (rfl)
@[simp] theorem State.setSlice_mgmt (i : Nat) (x : SliceSt) : (State.setSlice i x s).mgmt = s.mgmt := (rfl)
@[simp] theorem State.setSlice_pat (i : Nat) (x : SliceSt) : (State.setSlice i x s).pat = s.pat := (rfl)
@[simp] theorem State.setSlice_logIn (i : Nat) (x : SliceSt) : (State.setSlice i x s).logIn = s.logIn := (rfl)
@[simp] theorem State.setSlice_cpl (i : Nat) (x : SliceSt) : (State.setSlice i x s).cpl = s.cpl := (rfl)
@[simp] theorem State.setSlice_out (i : Nat) (x : SliceSt) : (State.setSlice i x s).out = s.out := (rfl)
@[simp] theorem State.setSlice_fresh (i : Nat) (x : SliceSt) : (State.setSlice i x s).fresh = s.fresh := (rfl)
@[simp] theorem State.setSlice_pending (i : Nat) (x : SliceSt) : (State.setSlice i x s).pending = s.pending := (rfl)

/-! setJp -/
@[simp] theorem State.setJp_regs (p : Nat) (x : JPortSt) : (State.setJp p x s).regs = s.regs := (rfl)
@[simp] theorem State.setJp_mem (p : Nat) (x : JPortSt) : (State.setJp p x s).mem = s.mem := (rfl)
@[simp] theorem State.setJp_sramSyn (p : Nat) (x : JPortSt) : (State.setJp p x s).sramSyn = s.sramSyn := (rfl)
@[simp] theorem State.setJp_bond (p : Nat) (x : JPortSt) : (State.setJp p x s).bond = s.bond := (rfl)
@[simp] theorem State.setJp_cores (p : Nat) (x : JPortSt) : (State.setJp p x s).cores = s.cores := (rfl)
@[simp] theorem State.setJp_clusters (p : Nat) (x : JPortSt) : (State.setJp p x s).clusters = s.clusters := (rfl)
@[simp] theorem State.setJp_insts (p : Nat) (x : JPortSt) : (State.setJp p x s).insts = s.insts := (rfl)
@[simp] theorem State.setJp_slices (p : Nat) (x : JPortSt) : (State.setJp p x s).slices = s.slices := (rfl)
@[simp] theorem State.setJp_dev (p : Nat) (x : JPortSt) : (State.setJp p x s).dev = s.dev := (rfl)
@[simp] theorem State.setJp_net (p : Nat) (x : JPortSt) : (State.setJp p x s).net = s.net := (rfl)
@[simp] theorem State.setJp_memc (p : Nat) (x : JPortSt) : (State.setJp p x s).memc = s.memc := (rfl)
@[simp] theorem State.setJp_jdev (p : Nat) (x : JPortSt) : (State.setJp p x s).jdev = s.jdev := (rfl)
@[simp] theorem State.setJp_host (p : Nat) (x : JPortSt) : (State.setJp p x s).host = s.host := (rfl)
@[simp] theorem State.setJp_pers (p : Nat) (x : JPortSt) : (State.setJp p x s).pers = s.pers := (rfl)
@[simp] theorem State.setJp_power (p : Nat) (x : JPortSt) : (State.setJp p x s).power = s.power := (rfl)
@[simp] theorem State.setJp_sec (p : Nat) (x : JPortSt) : (State.setJp p x s).sec = s.sec := (rfl)
@[simp] theorem State.setJp_mgmt (p : Nat) (x : JPortSt) : (State.setJp p x s).mgmt = s.mgmt := (rfl)
@[simp] theorem State.setJp_pat (p : Nat) (x : JPortSt) : (State.setJp p x s).pat = s.pat := (rfl)
@[simp] theorem State.setJp_logIn (p : Nat) (x : JPortSt) : (State.setJp p x s).logIn = s.logIn := (rfl)
@[simp] theorem State.setJp_cpl (p : Nat) (x : JPortSt) : (State.setJp p x s).cpl = s.cpl := (rfl)
@[simp] theorem State.setJp_out (p : Nat) (x : JPortSt) : (State.setJp p x s).out = s.out := (rfl)
@[simp] theorem State.setJp_fresh (p : Nat) (x : JPortSt) : (State.setJp p x s).fresh = s.fresh := (rfl)
@[simp] theorem State.setJp_pending (p : Nat) (x : JPortSt) : (State.setJp p x s).pending = s.pending := (rfl)

/-! setNet -/
@[simp] theorem State.setNet_regs (x : NetSt) : (State.setNet x s).regs = s.regs := (rfl)
@[simp] theorem State.setNet_mem (x : NetSt) : (State.setNet x s).mem = s.mem := (rfl)
@[simp] theorem State.setNet_sramSyn (x : NetSt) : (State.setNet x s).sramSyn = s.sramSyn := (rfl)
@[simp] theorem State.setNet_bond (x : NetSt) : (State.setNet x s).bond = s.bond := (rfl)
@[simp] theorem State.setNet_cores (x : NetSt) : (State.setNet x s).cores = s.cores := (rfl)
@[simp] theorem State.setNet_clusters (x : NetSt) : (State.setNet x s).clusters = s.clusters := (rfl)
@[simp] theorem State.setNet_insts (x : NetSt) : (State.setNet x s).insts = s.insts := (rfl)
@[simp] theorem State.setNet_slices (x : NetSt) : (State.setNet x s).slices = s.slices := (rfl)
@[simp] theorem State.setNet_dev (x : NetSt) : (State.setNet x s).dev = s.dev := (rfl)
@[simp] theorem State.setNet_memc (x : NetSt) : (State.setNet x s).memc = s.memc := (rfl)
@[simp] theorem State.setNet_jports (x : NetSt) : (State.setNet x s).jports = s.jports := (rfl)
@[simp] theorem State.setNet_jdev (x : NetSt) : (State.setNet x s).jdev = s.jdev := (rfl)
@[simp] theorem State.setNet_host (x : NetSt) : (State.setNet x s).host = s.host := (rfl)
@[simp] theorem State.setNet_pers (x : NetSt) : (State.setNet x s).pers = s.pers := (rfl)
@[simp] theorem State.setNet_power (x : NetSt) : (State.setNet x s).power = s.power := (rfl)
@[simp] theorem State.setNet_sec (x : NetSt) : (State.setNet x s).sec = s.sec := (rfl)
@[simp] theorem State.setNet_mgmt (x : NetSt) : (State.setNet x s).mgmt = s.mgmt := (rfl)
@[simp] theorem State.setNet_pat (x : NetSt) : (State.setNet x s).pat = s.pat := (rfl)
@[simp] theorem State.setNet_logIn (x : NetSt) : (State.setNet x s).logIn = s.logIn := (rfl)
@[simp] theorem State.setNet_cpl (x : NetSt) : (State.setNet x s).cpl = s.cpl := (rfl)
@[simp] theorem State.setNet_out (x : NetSt) : (State.setNet x s).out = s.out := (rfl)
@[simp] theorem State.setNet_fresh (x : NetSt) : (State.setNet x s).fresh = s.fresh := (rfl)
@[simp] theorem State.setNet_pending (x : NetSt) : (State.setNet x s).pending = s.pending := (rfl)

/-! emit -/
@[simp] theorem State.emit_regs (o : Output) : (State.emit o s).regs = s.regs := (rfl)
@[simp] theorem State.emit_mem (o : Output) : (State.emit o s).mem = s.mem := (rfl)
@[simp] theorem State.emit_sramSyn (o : Output) : (State.emit o s).sramSyn = s.sramSyn := (rfl)
@[simp] theorem State.emit_bond (o : Output) : (State.emit o s).bond = s.bond := (rfl)
@[simp] theorem State.emit_cores (o : Output) : (State.emit o s).cores = s.cores := (rfl)
@[simp] theorem State.emit_clusters (o : Output) : (State.emit o s).clusters = s.clusters := (rfl)
@[simp] theorem State.emit_insts (o : Output) : (State.emit o s).insts = s.insts := (rfl)
@[simp] theorem State.emit_slices (o : Output) : (State.emit o s).slices = s.slices := (rfl)
@[simp] theorem State.emit_dev (o : Output) : (State.emit o s).dev = s.dev := (rfl)
@[simp] theorem State.emit_net (o : Output) : (State.emit o s).net = s.net := (rfl)
@[simp] theorem State.emit_memc (o : Output) : (State.emit o s).memc = s.memc := (rfl)
@[simp] theorem State.emit_jports (o : Output) : (State.emit o s).jports = s.jports := (rfl)
@[simp] theorem State.emit_jdev (o : Output) : (State.emit o s).jdev = s.jdev := (rfl)
@[simp] theorem State.emit_host (o : Output) : (State.emit o s).host = s.host := (rfl)
@[simp] theorem State.emit_pers (o : Output) : (State.emit o s).pers = s.pers := (rfl)
@[simp] theorem State.emit_power (o : Output) : (State.emit o s).power = s.power := (rfl)
@[simp] theorem State.emit_sec (o : Output) : (State.emit o s).sec = s.sec := (rfl)
@[simp] theorem State.emit_mgmt (o : Output) : (State.emit o s).mgmt = s.mgmt := (rfl)
@[simp] theorem State.emit_pat (o : Output) : (State.emit o s).pat = s.pat := (rfl)
@[simp] theorem State.emit_logIn (o : Output) : (State.emit o s).logIn = s.logIn := (rfl)
@[simp] theorem State.emit_cpl (o : Output) : (State.emit o s).cpl = s.cpl := (rfl)
@[simp] theorem State.emit_fresh (o : Output) : (State.emit o s).fresh = s.fresh := (rfl)
@[simp] theorem State.emit_pending (o : Output) : (State.emit o s).pending = s.pending := (rfl)

/-! log -/
@[simp] theorem State.log_mem (t : Nat) (i : Option Nat) (l : List Nat) : (State.log t i l s).mem = s.mem := by unfold State.log; split <;> rfl
@[simp] theorem State.log_sramSyn (t : Nat) (i : Option Nat) (l : List Nat) : (State.log t i l s).sramSyn = s.sramSyn := by unfold State.log; split <;> rfl
@[simp] theorem State.log_bond (t : Nat) (i : Option Nat) (l : List Nat) : (State.log t i l s).bond = s.bond := by unfold State.log; split <;> rfl
@[simp] theorem State.log_cores (t : Nat) (i : Option Nat) (l : List Nat) : (State.log t i l s).cores = s.cores := by unfold State.log; split <;> rfl
@[simp] theorem State.log_clusters (t : Nat) (i : Option Nat) (l : List Nat) : (State.log t i l s).clusters = s.clusters := by unfold State.log; split <;> rfl
@[simp] theorem State.log_insts (t : Nat) (i : Option Nat) (l : List Nat) : (State.log t i l s).insts = s.insts := by unfold State.log; split <;> rfl
@[simp] theorem State.log_slices (t : Nat) (i : Option Nat) (l : List Nat) : (State.log t i l s).slices = s.slices := by unfold State.log; split <;> rfl
@[simp] theorem State.log_net (t : Nat) (i : Option Nat) (l : List Nat) : (State.log t i l s).net = s.net := by unfold State.log; split <;> rfl
@[simp] theorem State.log_memc (t : Nat) (i : Option Nat) (l : List Nat) : (State.log t i l s).memc = s.memc := by unfold State.log; split <;> rfl
@[simp] theorem State.log_jports (t : Nat) (i : Option Nat) (l : List Nat) : (State.log t i l s).jports = s.jports := by unfold State.log; split <;> rfl
@[simp] theorem State.log_jdev (t : Nat) (i : Option Nat) (l : List Nat) : (State.log t i l s).jdev = s.jdev := by unfold State.log; split <;> rfl
@[simp] theorem State.log_host (t : Nat) (i : Option Nat) (l : List Nat) : (State.log t i l s).host = s.host := by unfold State.log; split <;> rfl
@[simp] theorem State.log_pers (t : Nat) (i : Option Nat) (l : List Nat) : (State.log t i l s).pers = s.pers := by unfold State.log; split <;> rfl
@[simp] theorem State.log_power (t : Nat) (i : Option Nat) (l : List Nat) : (State.log t i l s).power = s.power := by unfold State.log; split <;> rfl
@[simp] theorem State.log_sec (t : Nat) (i : Option Nat) (l : List Nat) : (State.log t i l s).sec = s.sec := by unfold State.log; split <;> rfl
@[simp] theorem State.log_mgmt (t : Nat) (i : Option Nat) (l : List Nat) : (State.log t i l s).mgmt = s.mgmt := by unfold State.log; split <;> rfl
@[simp] theorem State.log_pat (t : Nat) (i : Option Nat) (l : List Nat) : (State.log t i l s).pat = s.pat := by unfold State.log; split <;> rfl
@[simp] theorem State.log_cpl (t : Nat) (i : Option Nat) (l : List Nat) : (State.log t i l s).cpl = s.cpl := by unfold State.log; split <;> rfl
@[simp] theorem State.log_out (t : Nat) (i : Option Nat) (l : List Nat) : (State.log t i l s).out = s.out := by unfold State.log; split <;> rfl
@[simp] theorem State.log_fresh (t : Nat) (i : Option Nat) (l : List Nat) : (State.log t i l s).fresh = s.fresh := by unfold State.log; split <;> rfl
@[simp] theorem State.log_pending (t : Nat) (i : Option Nat) (l : List Nat) : (State.log t i l s).pending = s.pending := by unfold State.log; split <;> rfl

/-! finish -/
@[simp] theorem State.finish_mem (q : Req) (c : Nat) (d : List Nat) (b : Bool) : (State.finish q c d b s).mem = s.mem := by simp only [State.finish, apply_ite State.mem, State.fs_mem, ite_self]
@[simp] theorem State.finish_sramSyn (q : Req) (c : Nat) (d : List Nat) (b : Bool) : (State.finish q c d b s).sramSyn = s.sramSyn := by simp only [State.finish, apply_ite State.sramSyn, State.fs_sramSyn, ite_self]
@[simp] theorem State.finish_bond (q : Req) (c : Nat) (d : List Nat) (b : Bool) : (State.finish q c d b s).bond = s.bond := by simp only [State.finish, apply_ite State.bond, State.fs_bond, ite_self]
@[simp] theorem State.finish_cores (q : Req) (c : Nat) (d : List Nat) (b : Bool) : (State.finish q c d b s).cores = s.cores := by simp only [State.finish, apply_ite State.cores, State.fs_cores, ite_self]
@[simp] theorem State.finish_clusters (q : Req) (c : Nat) (d : List Nat) (b : Bool) : (State.finish q c d b s).clusters = s.clusters := by simp only [State.finish, apply_ite State.clusters, State.fs_clusters, ite_self]
@[simp] theorem State.finish_insts (q : Req) (c : Nat) (d : List Nat) (b : Bool) : (State.finish q c d b s).insts = s.insts := by simp only [State.finish, apply_ite State.insts, State.fs_insts, ite_self]
@[simp] theorem State.finish_slices (q : Req) (c : Nat) (d : List Nat) (b : Bool) : (State.finish q c d b s).slices = s.slices := by simp only [State.finish, apply_ite State.slices, State.fs_slices, ite_self]
@[simp] theorem State.finish_dev (q : Req) (c : Nat) (d : List Nat) (b : Bool) : (State.finish q c d b s).dev = s.dev := by simp only [State.finish, apply_ite State.dev, State.fs_dev, ite_self]
@[simp] theorem State.finish_net (q : Req) (c : Nat) (d : List Nat) (b : Bool) : (State.finish q c d b s).net = s.net := by simp only [State.finish, apply_ite State.net, State.fs_net, ite_self]
@[simp] theorem State.finish_memc (q : Req) (c : Nat) (d : List Nat) (b : Bool) : (State.finish q c d b s).memc = s.memc := by simp only [State.finish, apply_ite State.memc, State.fs_memc, ite_self]
@[simp] theorem State.finish_jports (q : Req) (c : Nat) (d : List Nat) (b : Bool) : (State.finish q c d b s).jports = s.jports := by simp only [State.finish, apply_ite State.jports, State.fs_jports, ite_self]
@[simp] theorem State.finish_jdev (q : Req) (c : Nat) (d : List Nat) (b : Bool) : (State.finish q c d b s).jdev = s.jdev := by simp only [State.finish, apply_ite State.jdev, State.fs_jdev, ite_self]
@[simp] theorem State.finish_host (q : Req) (c : Nat) (d : List Nat) (b : Bool) : (State.finish q c d b s).host = s.host := by simp only [State.finish, apply_ite State.host, State.fs_host, ite_self]
@[simp] theorem State.finish_pers (q : Req) (c : Nat) (d : List Nat) (b : Bool) : (State.finish q c d b s).pers = s.pers := by simp only [State.finish, apply_ite State.pers, State.fs_pers, ite_self]
@[simp] theorem State.finish_power (q : Req) (c : Nat) (d : List Nat) (b : Bool) : (State.finish q c d b s).power = s.power := by simp only [State.finish, apply_ite State.power, State.fs_power, ite_self]
@[simp] theorem State.finish_sec (q : Req) (c : Nat) (d : List Nat) (b : Bool) : (State.finish q c d b s).sec = s.sec := by simp only [State.finish, apply_ite State.sec, State.fs_sec, ite_self]
@[simp] theorem State.finish_mgmt (q : Req) (c : Nat) (d : List Nat) (b : Bool) : (State.finish q c d b s).mgmt = s.mgmt := by simp only [State.finish, apply_ite State.mgmt, State.fs_mgmt, ite_self]
@[simp] theorem State.finish_pat (q : Req) (c : Nat) (d : List Nat) (b : Bool) : (State.finish q c d b s).pat = s.pat := by simp only [State.finish, apply_ite State.pat, State.fs_pat, ite_self]
@[simp] theorem State.finish_logIn (q : Req) (c : Nat) (d : List Nat) (b : Bool) : (State.finish q c d b s).logIn = s.logIn := by simp only [State.finish, apply_ite State.logIn, State.fs_logIn, ite_self]
@[simp] theorem State.finish_out (q : Req) (c : Nat) (d : List Nat) (b : Bool) : (State.finish q c d b s).out = s.out := by simp only [State.finish, apply_ite State.out, State.fs_out, ite_self]
@[simp] theorem State.finish_fresh (q : Req) (c : Nat) (d : List Nat) (b : Bool) : (State.finish q c d b s).fresh = s.fresh := by simp only [State.finish, apply_ite State.fresh, State.fs_fresh, ite_self]
@[simp] theorem State.finish_pending (q : Req) (c : Nat) (d : List Nat) (b : Bool) : (State.finish q c d b s).pending = s.pending := by simp only [State.finish, apply_ite State.pending, State.fs_pending, ite_self]

/-! hold -/
@[simp] theorem State.hold_regs (q : Req) (k : Nat) (a b : Option Nat) : (State.hold q k a b s).regs = s.regs := (rfl)
@[simp] theorem State.hold_mem (q : Req) (k : Nat) (a b : Option Nat) : (State.hold q k a b s).mem = s.mem := (rfl)
@[simp] theorem State.hold_sramSyn (q : Req) (k : Nat) (a b : Option Nat) : (State.hold q k a b s).sramSyn = s.sramSyn := (rfl)
@[simp] theorem State.hold_bond (q : Req) (k : Nat) (a b : Option Nat) : (State.hold q k a b s).bond = s.bond := (rfl)
@[simp] theorem State.hold_cores (q : Req) (k : Nat) (a b : Option Nat) : (State.hold q k a b s).cores = s.cores := (rfl)
@[simp] theorem State.hold_clusters (q : Req) (k : Nat) (a b : Option Nat) : (State.hold q k a b s).clusters = s.clusters := (rfl)
@[simp] theorem State.hold_insts (q : Req) (k : Nat) (a b : Option Nat) : (State.hold q k a b s).insts = s.insts := (rfl)
@[simp] theorem State.hold_slices (q : Req) (k : Nat) (a b : Option Nat) : (State.hold q k a b s).slices = s.slices := (rfl)
@[simp] theorem State.hold_net (q : Req) (k : Nat) (a b : Option Nat) : (State.hold q k a b s).net = s.net := (rfl)
@[simp] theorem State.hold_memc (q : Req) (k : Nat) (a b : Option Nat) : (State.hold q k a b s).memc = s.memc := (rfl)
@[simp] theorem State.hold_jports (q : Req) (k : Nat) (a b : Option Nat) : (State.hold q k a b s).jports = s.jports := (rfl)
@[simp] theorem State.hold_jdev (q : Req) (k : Nat) (a b : Option Nat) : (State.hold q k a b s).jdev = s.jdev := (rfl)
@[simp] theorem State.hold_host (q : Req) (k : Nat) (a b : Option Nat) : (State.hold q k a b s).host = s.host := (rfl)
@[simp] theorem State.hold_pers (q : Req) (k : Nat) (a b : Option Nat) : (State.hold q k a b s).pers = s.pers := (rfl)
@[simp] theorem State.hold_power (q : Req) (k : Nat) (a b : Option Nat) : (State.hold q k a b s).power = s.power := (rfl)
@[simp] theorem State.hold_sec (q : Req) (k : Nat) (a b : Option Nat) : (State.hold q k a b s).sec = s.sec := (rfl)
@[simp] theorem State.hold_mgmt (q : Req) (k : Nat) (a b : Option Nat) : (State.hold q k a b s).mgmt = s.mgmt := (rfl)
@[simp] theorem State.hold_pat (q : Req) (k : Nat) (a b : Option Nat) : (State.hold q k a b s).pat = s.pat := (rfl)
@[simp] theorem State.hold_logIn (q : Req) (k : Nat) (a b : Option Nat) : (State.hold q k a b s).logIn = s.logIn := (rfl)
@[simp] theorem State.hold_cpl (q : Req) (k : Nat) (a b : Option Nat) : (State.hold q k a b s).cpl = s.cpl := (rfl)
@[simp] theorem State.hold_out (q : Req) (k : Nat) (a b : Option Nat) : (State.hold q k a b s).out = s.out := (rfl)
@[simp] theorem State.hold_fresh (q : Req) (k : Nat) (a b : Option Nat) : (State.hold q k a b s).fresh = s.fresh := (rfl)
@[simp] theorem State.hold_pending (q : Req) (k : Nat) (a b : Option Nat) : (State.hold q k a b s).pending = s.pending := (rfl)

/-! done -/
@[simp] theorem State.done_mem (q : Req) (c : Nat) (d : List Nat) (b : Bool) : (State.done q c d b s).mem = s.mem := by simp only [State.done, State.hold_mem, State.finish_mem]
@[simp] theorem State.done_sramSyn (q : Req) (c : Nat) (d : List Nat) (b : Bool) : (State.done q c d b s).sramSyn = s.sramSyn := by simp only [State.done, State.hold_sramSyn, State.finish_sramSyn]
@[simp] theorem State.done_bond (q : Req) (c : Nat) (d : List Nat) (b : Bool) : (State.done q c d b s).bond = s.bond := by simp only [State.done, State.hold_bond, State.finish_bond]
@[simp] theorem State.done_cores (q : Req) (c : Nat) (d : List Nat) (b : Bool) : (State.done q c d b s).cores = s.cores := by simp only [State.done, State.hold_cores, State.finish_cores]
@[simp] theorem State.done_clusters (q : Req) (c : Nat) (d : List Nat) (b : Bool) : (State.done q c d b s).clusters = s.clusters := by simp only [State.done, State.hold_clusters, State.finish_clusters]
@[simp] theorem State.done_insts (q : Req) (c : Nat) (d : List Nat) (b : Bool) : (State.done q c d b s).insts = s.insts := by simp only [State.done, State.hold_insts, State.finish_insts]
@[simp] theorem State.done_slices (q : Req) (c : Nat) (d : List Nat) (b : Bool) : (State.done q c d b s).slices = s.slices := by simp only [State.done, State.hold_slices, State.finish_slices]
@[simp] theorem State.done_net (q : Req) (c : Nat) (d : List Nat) (b : Bool) : (State.done q c d b s).net = s.net := by simp only [State.done, State.hold_net, State.finish_net]
@[simp] theorem State.done_memc (q : Req) (c : Nat) (d : List Nat) (b : Bool) : (State.done q c d b s).memc = s.memc := by simp only [State.done, State.hold_memc, State.finish_memc]
@[simp] theorem State.done_jports (q : Req) (c : Nat) (d : List Nat) (b : Bool) : (State.done q c d b s).jports = s.jports := by simp only [State.done, State.hold_jports, State.finish_jports]
@[simp] theorem State.done_jdev (q : Req) (c : Nat) (d : List Nat) (b : Bool) : (State.done q c d b s).jdev = s.jdev := by simp only [State.done, State.hold_jdev, State.finish_jdev]
@[simp] theorem State.done_host (q : Req) (c : Nat) (d : List Nat) (b : Bool) : (State.done q c d b s).host = s.host := by simp only [State.done, State.hold_host, State.finish_host]
@[simp] theorem State.done_pers (q : Req) (c : Nat) (d : List Nat) (b : Bool) : (State.done q c d b s).pers = s.pers := by simp only [State.done, State.hold_pers, State.finish_pers]
@[simp] theorem State.done_power (q : Req) (c : Nat) (d : List Nat) (b : Bool) : (State.done q c d b s).power = s.power := by simp only [State.done, State.hold_power, State.finish_power]
@[simp] theorem State.done_sec (q : Req) (c : Nat) (d : List Nat) (b : Bool) : (State.done q c d b s).sec = s.sec := by simp only [State.done, State.hold_sec, State.finish_sec]
@[simp] theorem State.done_mgmt (q : Req) (c : Nat) (d : List Nat) (b : Bool) : (State.done q c d b s).mgmt = s.mgmt := by simp only [State.done, State.hold_mgmt, State.finish_mgmt]
@[simp] theorem State.done_pat (q : Req) (c : Nat) (d : List Nat) (b : Bool) : (State.done q c d b s).pat = s.pat := by simp only [State.done, State.hold_pat, State.finish_pat]
@[simp] theorem State.done_logIn (q : Req) (c : Nat) (d : List Nat) (b : Bool) : (State.done q c d b s).logIn = s.logIn := by simp only [State.done, State.hold_logIn, State.finish_logIn]
@[simp] theorem State.done_out (q : Req) (c : Nat) (d : List Nat) (b : Bool) : (State.done q c d b s).out = s.out := by simp only [State.done, State.hold_out, State.finish_out]
@[simp] theorem State.done_fresh (q : Req) (c : Nat) (d : List Nat) (b : Bool) : (State.done q c d b s).fresh = s.fresh := by simp only [State.done, State.hold_fresh, State.finish_fresh]
@[simp] theorem State.done_pending (q : Req) (c : Nat) (d : List Nat) (b : Bool) : (State.done q c d b s).pending = s.pending := by simp only [State.done, State.hold_pending, State.finish_pending]

/-! cross -/
@[simp] theorem State.cross_mem (q : Req) : (State.cross q s).mem = s.mem := by simp only [State.cross, State.done_mem]
@[simp] theorem State.cross_sramSyn (q : Req) : (State.cross q s).sramSyn = s.sramSyn := by simp only [State.cross, State.done_sramSyn]
@[simp] theorem State.cross_bond (q : Req) : (State.cross q s).bond = s.bond := by simp only [State.cross, State.done_bond]
@[simp] theorem State.cross_cores (q : Req) : (State.cross q s).cores = s.cores := by simp only [State.cross, State.done_cores]
@[simp] theorem State.cross_clusters (q : Req) : (State.cross q s).clusters = s.clusters := by simp only [State.cross, State.done_clusters]
@[simp] theorem State.cross_insts (q : Req) : (State.cross q s).insts = s.insts := by simp only [State.cross, State.done_insts]
@[simp] theorem State.cross_slices (q : Req) : (State.cross q s).slices = s.slices := by simp only [State.cross, State.done_slices]
@[simp] theorem State.cross_net (q : Req) : (State.cross q s).net = s.net := by simp only [State.cross, State.done_net]
@[simp] theorem State.cross_memc (q : Req) : (State.cross q s).memc = s.memc := by simp only [State.cross, State.done_memc]
@[simp] theorem State.cross_jports (q : Req) : (State.cross q s).jports = s.jports := by simp only [State.cross, State.done_jports]
@[simp] theorem State.cross_jdev (q : Req) : (State.cross q s).jdev = s.jdev := by simp only [State.cross, State.done_jdev]
@[simp] theorem State.cross_host (q : Req) : (State.cross q s).host = s.host := by simp only [State.cross, State.done_host]
@[simp] theorem State.cross_pers (q : Req) : (State.cross q s).pers = s.pers := by simp only [State.cross, State.done_pers]
@[simp] theorem State.cross_power (q : Req) : (State.cross q s).power = s.power := by simp only [State.cross, State.done_power]
@[simp] theorem State.cross_sec (q : Req) : (State.cross q s).sec = s.sec := by simp only [State.cross, State.done_sec]
@[simp] theorem State.cross_mgmt (q : Req) : (State.cross q s).mgmt = s.mgmt := by simp only [State.cross, State.done_mgmt]
@[simp] theorem State.cross_pat (q : Req) : (State.cross q s).pat = s.pat := by simp only [State.cross, State.done_pat]
@[simp] theorem State.cross_logIn (q : Req) : (State.cross q s).logIn = s.logIn := by simp only [State.cross, State.done_logIn]
@[simp] theorem State.cross_out (q : Req) : (State.cross q s).out = s.out := by simp only [State.cross, State.done_out]
@[simp] theorem State.cross_fresh (q : Req) : (State.cross q s).fresh = s.fresh := by simp only [State.cross, State.done_fresh]
@[simp] theorem State.cross_pending (q : Req) : (State.cross q s).pending = s.pending := by simp only [State.cross, State.done_pending]

/-! setPin -/
@[simp] theorem State.setPin_regs (n : Nat) (v : Bool) : (State.setPin n v s).regs = s.regs := (rfl)
@[simp] theorem State.setPin_mem (n : Nat) (v : Bool) : (State.setPin n v s).mem = s.mem := (rfl)
@[simp] theorem State.setPin_sramSyn (n : Nat) (v : Bool) : (State.setPin n v s).sramSyn = s.sramSyn := (rfl)
@[simp] theorem State.setPin_bond (n : Nat) (v : Bool) : (State.setPin n v s).bond = s.bond := (rfl)
@[simp] theorem State.setPin_cores (n : Nat) (v : Bool) : (State.setPin n v s).cores = s.cores := (rfl)
@[simp] theorem State.setPin_clusters (n : Nat) (v : Bool) : (State.setPin n v s).clusters = s.clusters := (rfl)
@[simp] theorem State.setPin_insts (n : Nat) (v : Bool) : (State.setPin n v s).insts = s.insts := (rfl)
@[simp] theorem State.setPin_slices (n : Nat) (v : Bool) : (State.setPin n v s).slices = s.slices := (rfl)
@[simp] theorem State.setPin_net (n : Nat) (v : Bool) : (State.setPin n v s).net = s.net := (rfl)
@[simp] theorem State.setPin_memc (n : Nat) (v : Bool) : (State.setPin n v s).memc = s.memc := (rfl)
@[simp] theorem State.setPin_jports (n : Nat) (v : Bool) : (State.setPin n v s).jports = s.jports := (rfl)
@[simp] theorem State.setPin_jdev (n : Nat) (v : Bool) : (State.setPin n v s).jdev = s.jdev := (rfl)
@[simp] theorem State.setPin_host (n : Nat) (v : Bool) : (State.setPin n v s).host = s.host := (rfl)
@[simp] theorem State.setPin_pers (n : Nat) (v : Bool) : (State.setPin n v s).pers = s.pers := (rfl)
@[simp] theorem State.setPin_power (n : Nat) (v : Bool) : (State.setPin n v s).power = s.power := (rfl)
@[simp] theorem State.setPin_sec (n : Nat) (v : Bool) : (State.setPin n v s).sec = s.sec := (rfl)
@[simp] theorem State.setPin_mgmt (n : Nat) (v : Bool) : (State.setPin n v s).mgmt = s.mgmt := (rfl)
@[simp] theorem State.setPin_pat (n : Nat) (v : Bool) : (State.setPin n v s).pat = s.pat := (rfl)
@[simp] theorem State.setPin_logIn (n : Nat) (v : Bool) : (State.setPin n v s).logIn = s.logIn := (rfl)
@[simp] theorem State.setPin_cpl (n : Nat) (v : Bool) : (State.setPin n v s).cpl = s.cpl := (rfl)
@[simp] theorem State.setPin_out (n : Nat) (v : Bool) : (State.setPin n v s).out = s.out := (rfl)
@[simp] theorem State.setPin_fresh (n : Nat) (v : Bool) : (State.setPin n v s).fresh = s.fresh := (rfl)
@[simp] theorem State.setPin_pending (n : Nat) (v : Bool) : (State.setPin n v s).pending = s.pending := (rfl)

/-! drive -/
@[simp] theorem State.drive_regs (n : Nat) (v : Bool) : (State.drive n v s).regs = s.regs := (rfl)
@[simp] theorem State.drive_mem (n : Nat) (v : Bool) : (State.drive n v s).mem = s.mem := (rfl)
@[simp] theorem State.drive_sramSyn (n : Nat) (v : Bool) : (State.drive n v s).sramSyn = s.sramSyn := (rfl)
@[simp] theorem State.drive_bond (n : Nat) (v : Bool) : (State.drive n v s).bond = s.bond := (rfl)
@[simp] theorem State.drive_cores (n : Nat) (v : Bool) : (State.drive n v s).cores = s.cores := (rfl)
@[simp] theorem State.drive_clusters (n : Nat) (v : Bool) : (State.drive n v s).clusters = s.clusters := (rfl)
@[simp] theorem State.drive_insts (n : Nat) (v : Bool) : (State.drive n v s).insts = s.insts := (rfl)
@[simp] theorem State.drive_slices (n : Nat) (v : Bool) : (State.drive n v s).slices = s.slices := (rfl)
@[simp] theorem State.drive_net (n : Nat) (v : Bool) : (State.drive n v s).net = s.net := (rfl)
@[simp] theorem State.drive_memc (n : Nat) (v : Bool) : (State.drive n v s).memc = s.memc := (rfl)
@[simp] theorem State.drive_jports (n : Nat) (v : Bool) : (State.drive n v s).jports = s.jports := (rfl)
@[simp] theorem State.drive_jdev (n : Nat) (v : Bool) : (State.drive n v s).jdev = s.jdev := (rfl)
@[simp] theorem State.drive_host (n : Nat) (v : Bool) : (State.drive n v s).host = s.host := (rfl)
@[simp] theorem State.drive_pers (n : Nat) (v : Bool) : (State.drive n v s).pers = s.pers := (rfl)
@[simp] theorem State.drive_power (n : Nat) (v : Bool) : (State.drive n v s).power = s.power := (rfl)
@[simp] theorem State.drive_sec (n : Nat) (v : Bool) : (State.drive n v s).sec = s.sec := (rfl)
@[simp] theorem State.drive_mgmt (n : Nat) (v : Bool) : (State.drive n v s).mgmt = s.mgmt := (rfl)
@[simp] theorem State.drive_pat (n : Nat) (v : Bool) : (State.drive n v s).pat = s.pat := (rfl)
@[simp] theorem State.drive_logIn (n : Nat) (v : Bool) : (State.drive n v s).logIn = s.logIn := (rfl)
@[simp] theorem State.drive_cpl (n : Nat) (v : Bool) : (State.drive n v s).cpl = s.cpl := (rfl)
@[simp] theorem State.drive_fresh (n : Nat) (v : Bool) : (State.drive n v s).fresh = s.fresh := (rfl)
@[simp] theorem State.drive_pending (n : Nat) (v : Bool) : (State.drive n v s).pending = s.pending := (rfl)

/-! setDevState -/
@[simp] theorem State.setDevState_mem (v : Nat) : (State.setDevState v s).mem = s.mem := by simp only [State.setDevState, State.fs_mem]
@[simp] theorem State.setDevState_sramSyn (v : Nat) : (State.setDevState v s).sramSyn = s.sramSyn := by simp only [State.setDevState, State.fs_sramSyn]
@[simp] theorem State.setDevState_bond (v : Nat) : (State.setDevState v s).bond = s.bond := by simp only [State.setDevState, State.fs_bond]
@[simp] theorem State.setDevState_cores (v : Nat) : (State.setDevState v s).cores = s.cores := by simp only [State.setDevState, State.fs_cores]
@[simp] theorem State.setDevState_clusters (v : Nat) : (State.setDevState v s).clusters = s.clusters := by simp only [State.setDevState, State.fs_clusters]
@[simp] theorem State.setDevState_insts (v : Nat) : (State.setDevState v s).insts = s.insts := by simp only [State.setDevState, State.fs_insts]
@[simp] theorem State.setDevState_slices (v : Nat) : (State.setDevState v s).slices = s.slices := by simp only [State.setDevState, State.fs_slices]
@[simp] theorem State.setDevState_dev (v : Nat) : (State.setDevState v s).dev = s.dev := by simp only [State.setDevState, State.fs_dev]
@[simp] theorem State.setDevState_net (v : Nat) : (State.setDevState v s).net = s.net := by simp only [State.setDevState, State.fs_net]
@[simp] theorem State.setDevState_memc (v : Nat) : (State.setDevState v s).memc = s.memc := by simp only [State.setDevState, State.fs_memc]
@[simp] theorem State.setDevState_jports (v : Nat) : (State.setDevState v s).jports = s.jports := by simp only [State.setDevState, State.fs_jports]
@[simp] theorem State.setDevState_jdev (v : Nat) : (State.setDevState v s).jdev = s.jdev := by simp only [State.setDevState, State.fs_jdev]
@[simp] theorem State.setDevState_host (v : Nat) : (State.setDevState v s).host = s.host := by simp only [State.setDevState, State.fs_host]
@[simp] theorem State.setDevState_pers (v : Nat) : (State.setDevState v s).pers = s.pers := by simp only [State.setDevState, State.fs_pers]
@[simp] theorem State.setDevState_power (v : Nat) : (State.setDevState v s).power = s.power := by simp only [State.setDevState, State.fs_power]
@[simp] theorem State.setDevState_sec (v : Nat) : (State.setDevState v s).sec = s.sec := by simp only [State.setDevState, State.fs_sec]
@[simp] theorem State.setDevState_mgmt (v : Nat) : (State.setDevState v s).mgmt = s.mgmt := by simp only [State.setDevState, State.fs_mgmt]
@[simp] theorem State.setDevState_pat (v : Nat) : (State.setDevState v s).pat = s.pat := by simp only [State.setDevState, State.fs_pat]
@[simp] theorem State.setDevState_logIn (v : Nat) : (State.setDevState v s).logIn = s.logIn := by simp only [State.setDevState, State.fs_logIn]
@[simp] theorem State.setDevState_cpl (v : Nat) : (State.setDevState v s).cpl = s.cpl := by simp only [State.setDevState, State.fs_cpl]
@[simp] theorem State.setDevState_out (v : Nat) : (State.setDevState v s).out = s.out := by simp only [State.setDevState, State.fs_out]
@[simp] theorem State.setDevState_fresh (v : Nat) : (State.setDevState v s).fresh = s.fresh := by simp only [State.setDevState, State.fs_fresh]
@[simp] theorem State.setDevState_pending (v : Nat) : (State.setDevState v s).pending = s.pending := by simp only [State.setDevState, State.fs_pending]

/-! stopCore -/
@[simp] theorem State.stopCore_mem (p c : Nat) : (State.stopCore p c s).mem = s.mem := by simp only [State.stopCore, State.emit_mem, State.fs_mem]
@[simp] theorem State.stopCore_sramSyn (p c : Nat) : (State.stopCore p c s).sramSyn = s.sramSyn := by simp only [State.stopCore, State.emit_sramSyn, State.fs_sramSyn]
@[simp] theorem State.stopCore_bond (p c : Nat) : (State.stopCore p c s).bond = s.bond := by simp only [State.stopCore, State.emit_bond, State.fs_bond]
@[simp] theorem State.stopCore_cores (p c : Nat) : (State.stopCore p c s).cores = s.cores := by simp only [State.stopCore, State.emit_cores, State.fs_cores]
@[simp] theorem State.stopCore_clusters (p c : Nat) : (State.stopCore p c s).clusters = s.clusters := by simp only [State.stopCore, State.emit_clusters, State.fs_clusters]
@[simp] theorem State.stopCore_insts (p c : Nat) : (State.stopCore p c s).insts = s.insts := by simp only [State.stopCore, State.emit_insts, State.fs_insts]
@[simp] theorem State.stopCore_slices (p c : Nat) : (State.stopCore p c s).slices = s.slices := by simp only [State.stopCore, State.emit_slices, State.fs_slices]
@[simp] theorem State.stopCore_dev (p c : Nat) : (State.stopCore p c s).dev = s.dev := by simp only [State.stopCore, State.emit_dev, State.fs_dev]
@[simp] theorem State.stopCore_net (p c : Nat) : (State.stopCore p c s).net = s.net := by simp only [State.stopCore, State.emit_net, State.fs_net]
@[simp] theorem State.stopCore_memc (p c : Nat) : (State.stopCore p c s).memc = s.memc := by simp only [State.stopCore, State.emit_memc, State.fs_memc]
@[simp] theorem State.stopCore_jports (p c : Nat) : (State.stopCore p c s).jports = s.jports := by simp only [State.stopCore, State.emit_jports, State.fs_jports]
@[simp] theorem State.stopCore_jdev (p c : Nat) : (State.stopCore p c s).jdev = s.jdev := by simp only [State.stopCore, State.emit_jdev, State.fs_jdev]
@[simp] theorem State.stopCore_host (p c : Nat) : (State.stopCore p c s).host = s.host := by simp only [State.stopCore, State.emit_host, State.fs_host]
@[simp] theorem State.stopCore_pers (p c : Nat) : (State.stopCore p c s).pers = s.pers := by simp only [State.stopCore, State.emit_pers, State.fs_pers]
@[simp] theorem State.stopCore_power (p c : Nat) : (State.stopCore p c s).power = s.power := by simp only [State.stopCore, State.emit_power, State.fs_power]
@[simp] theorem State.stopCore_sec (p c : Nat) : (State.stopCore p c s).sec = s.sec := by simp only [State.stopCore, State.emit_sec, State.fs_sec]
@[simp] theorem State.stopCore_mgmt (p c : Nat) : (State.stopCore p c s).mgmt = s.mgmt := by simp only [State.stopCore, State.emit_mgmt, State.fs_mgmt]
@[simp] theorem State.stopCore_pat (p c : Nat) : (State.stopCore p c s).pat = s.pat := by simp only [State.stopCore, State.emit_pat, State.fs_pat]
@[simp] theorem State.stopCore_logIn (p c : Nat) : (State.stopCore p c s).logIn = s.logIn := by simp only [State.stopCore, State.emit_logIn, State.fs_logIn]
@[simp] theorem State.stopCore_cpl (p c : Nat) : (State.stopCore p c s).cpl = s.cpl := by simp only [State.stopCore, State.emit_cpl, State.fs_cpl]
@[simp] theorem State.stopCore_fresh (p c : Nat) : (State.stopCore p c s).fresh = s.fresh := by simp only [State.stopCore, State.emit_fresh, State.fs_fresh]
@[simp] theorem State.stopCore_pending (p c : Nat) : (State.stopCore p c s).pending = s.pending := by simp only [State.stopCore, State.emit_pending, State.fs_pending]

/-! keep -/
@[simp] theorem State.keep_regs (q : Req) (k : Nat) (s0 : State) : (State.keep q k s0 s).regs = s.regs := (rfl)
@[simp] theorem State.keep_mem (q : Req) (k : Nat) (s0 : State) : (State.keep q k s0 s).mem = s.mem := (rfl)
@[simp] theorem State.keep_sramSyn (q : Req) (k : Nat) (s0 : State) : (State.keep q k s0 s).sramSyn = s.sramSyn := (rfl)
@[simp] theorem State.keep_bond (q : Req) (k : Nat) (s0 : State) : (State.keep q k s0 s).bond = s.bond := (rfl)
@[simp] theorem State.keep_cores (q : Req) (k : Nat) (s0 : State) : (State.keep q k s0 s).cores = s.cores := (rfl)
@[simp] theorem State.keep_clusters (q : Req) (k : Nat) (s0 : State) : (State.keep q k s0 s).clusters = s.clusters := (rfl)
@[simp] theorem State.keep_insts (q : Req) (k : Nat) (s0 : State) : (State.keep q k s0 s).insts = s.insts := (rfl)
@[simp] theorem State.keep_slices (q : Req) (k : Nat) (s0 : State) : (State.keep q k s0 s).slices = s.slices := (rfl)
@[simp] theorem State.keep_net (q : Req) (k : Nat) (s0 : State) : (State.keep q k s0 s).net = s.net := (rfl)
@[simp] theorem State.keep_memc (q : Req) (k : Nat) (s0 : State) : (State.keep q k s0 s).memc = s.memc := (rfl)
@[simp] theorem State.keep_jports (q : Req) (k : Nat) (s0 : State) : (State.keep q k s0 s).jports = s.jports := (rfl)
@[simp] theorem State.keep_jdev (q : Req) (k : Nat) (s0 : State) : (State.keep q k s0 s).jdev = s.jdev := (rfl)
@[simp] theorem State.keep_host (q : Req) (k : Nat) (s0 : State) : (State.keep q k s0 s).host = s.host := (rfl)
@[simp] theorem State.keep_pers (q : Req) (k : Nat) (s0 : State) : (State.keep q k s0 s).pers = s.pers := (rfl)
@[simp] theorem State.keep_power (q : Req) (k : Nat) (s0 : State) : (State.keep q k s0 s).power = s.power := (rfl)
@[simp] theorem State.keep_sec (q : Req) (k : Nat) (s0 : State) : (State.keep q k s0 s).sec = s.sec := (rfl)
@[simp] theorem State.keep_mgmt (q : Req) (k : Nat) (s0 : State) : (State.keep q k s0 s).mgmt = s.mgmt := (rfl)
@[simp] theorem State.keep_pat (q : Req) (k : Nat) (s0 : State) : (State.keep q k s0 s).pat = s.pat := (rfl)
@[simp] theorem State.keep_logIn (q : Req) (k : Nat) (s0 : State) : (State.keep q k s0 s).logIn = s.logIn := (rfl)
@[simp] theorem State.keep_cpl (q : Req) (k : Nat) (s0 : State) : (State.keep q k s0 s).cpl = s.cpl := (rfl)
@[simp] theorem State.keep_out (q : Req) (k : Nat) (s0 : State) : (State.keep q k s0 s).out = s.out := (rfl)
@[simp] theorem State.keep_fresh (q : Req) (k : Nat) (s0 : State) : (State.keep q k s0 s).fresh = s.fresh := (rfl)
@[simp] theorem State.keep_pending (q : Req) (k : Nat) (s0 : State) : (State.keep q k s0 s).pending = s.pending := (rfl)
@[simp] theorem State.setNet_net (x : NetSt) : (State.setNet x s).net = x := (rfl)

/-! setOut -/
@[simp] theorem State.setOut_regs (o : Nat) (x : OutSt) : (State.setOut o x s).regs = s.regs := (rfl)
@[simp] theorem State.setOut_mem (o : Nat) (x : OutSt) : (State.setOut o x s).mem = s.mem := (rfl)
@[simp] theorem State.setOut_sramSyn (o : Nat) (x : OutSt) : (State.setOut o x s).sramSyn = s.sramSyn := (rfl)
@[simp] theorem State.setOut_bond (o : Nat) (x : OutSt) : (State.setOut o x s).bond = s.bond := (rfl)
@[simp] theorem State.setOut_cores (o : Nat) (x : OutSt) : (State.setOut o x s).cores = s.cores := (rfl)
@[simp] theorem State.setOut_clusters (o : Nat) (x : OutSt) : (State.setOut o x s).clusters = s.clusters := (rfl)
@[simp] theorem State.setOut_insts (o : Nat) (x : OutSt) : (State.setOut o x s).insts = s.insts := (rfl)
@[simp] theorem State.setOut_slices (o : Nat) (x : OutSt) : (State.setOut o x s).slices = s.slices := (rfl)
@[simp] theorem State.setOut_dev (o : Nat) (x : OutSt) : (State.setOut o x s).dev = s.dev := (rfl)
@[simp] theorem State.setOut_memc (o : Nat) (x : OutSt) : (State.setOut o x s).memc = s.memc := (rfl)
@[simp] theorem State.setOut_jports (o : Nat) (x : OutSt) : (State.setOut o x s).jports = s.jports := (rfl)
@[simp] theorem State.setOut_jdev (o : Nat) (x : OutSt) : (State.setOut o x s).jdev = s.jdev := (rfl)
@[simp] theorem State.setOut_host (o : Nat) (x : OutSt) : (State.setOut o x s).host = s.host := (rfl)
@[simp] theorem State.setOut_pers (o : Nat) (x : OutSt) : (State.setOut o x s).pers = s.pers := (rfl)
@[simp] theorem State.setOut_power (o : Nat) (x : OutSt) : (State.setOut o x s).power = s.power := (rfl)
@[simp] theorem State.setOut_sec (o : Nat) (x : OutSt) : (State.setOut o x s).sec = s.sec := (rfl)
@[simp] theorem State.setOut_mgmt (o : Nat) (x : OutSt) : (State.setOut o x s).mgmt = s.mgmt := (rfl)
@[simp] theorem State.setOut_pat (o : Nat) (x : OutSt) : (State.setOut o x s).pat = s.pat := (rfl)
@[simp] theorem State.setOut_logIn (o : Nat) (x : OutSt) : (State.setOut o x s).logIn = s.logIn := (rfl)
@[simp] theorem State.setOut_cpl (o : Nat) (x : OutSt) : (State.setOut o x s).cpl = s.cpl := (rfl)
@[simp] theorem State.setOut_out (o : Nat) (x : OutSt) : (State.setOut o x s).out = s.out := (rfl)
@[simp] theorem State.setOut_fresh (o : Nat) (x : OutSt) : (State.setOut o x s).fresh = s.fresh := (rfl)
@[simp] theorem State.setOut_pending (o : Nat) (x : OutSt) : (State.setOut o x s).pending = s.pending := (rfl)

/-! setReplay -/
@[simp] theorem State.setReplay_regs (k : Nat) (l : List RepFlit) : (State.setReplay k l s).regs = s.regs := (rfl)
@[simp] theorem State.setReplay_mem (k : Nat) (l : List RepFlit) : (State.setReplay k l s).mem = s.mem := (rfl)
@[simp] theorem State.setReplay_sramSyn (k : Nat) (l : List RepFlit) : (State.setReplay k l s).sramSyn = s.sramSyn := (rfl)
@[simp] theorem State.setReplay_bond (k : Nat) (l : List RepFlit) : (State.setReplay k l s).bond = s.bond := (rfl)
@[simp] theorem State.setReplay_cores (k : Nat) (l : List RepFlit) : (State.setReplay k l s).cores = s.cores := (rfl)
@[simp] theorem State.setReplay_clusters (k : Nat) (l : List RepFlit) : (State.setReplay k l s).clusters = s.clusters := (rfl)
@[simp] theorem State.setReplay_insts (k : Nat) (l : List RepFlit) : (State.setReplay k l s).insts = s.insts := (rfl)
@[simp] theorem State.setReplay_slices (k : Nat) (l : List RepFlit) : (State.setReplay k l s).slices = s.slices := (rfl)
@[simp] theorem State.setReplay_dev (k : Nat) (l : List RepFlit) : (State.setReplay k l s).dev = s.dev := (rfl)
@[simp] theorem State.setReplay_memc (k : Nat) (l : List RepFlit) : (State.setReplay k l s).memc = s.memc := (rfl)
@[simp] theorem State.setReplay_jports (k : Nat) (l : List RepFlit) : (State.setReplay k l s).jports = s.jports := (rfl)
@[simp] theorem State.setReplay_jdev (k : Nat) (l : List RepFlit) : (State.setReplay k l s).jdev = s.jdev := (rfl)
@[simp] theorem State.setReplay_host (k : Nat) (l : List RepFlit) : (State.setReplay k l s).host = s.host := (rfl)
@[simp] theorem State.setReplay_pers (k : Nat) (l : List RepFlit) : (State.setReplay k l s).pers = s.pers := (rfl)
@[simp] theorem State.setReplay_power (k : Nat) (l : List RepFlit) : (State.setReplay k l s).power = s.power := (rfl)
@[simp] theorem State.setReplay_sec (k : Nat) (l : List RepFlit) : (State.setReplay k l s).sec = s.sec := (rfl)
@[simp] theorem State.setReplay_mgmt (k : Nat) (l : List RepFlit) : (State.setReplay k l s).mgmt = s.mgmt := (rfl)
@[simp] theorem State.setReplay_pat (k : Nat) (l : List RepFlit) : (State.setReplay k l s).pat = s.pat := (rfl)
@[simp] theorem State.setReplay_logIn (k : Nat) (l : List RepFlit) : (State.setReplay k l s).logIn = s.logIn := (rfl)
@[simp] theorem State.setReplay_cpl (k : Nat) (l : List RepFlit) : (State.setReplay k l s).cpl = s.cpl := (rfl)
@[simp] theorem State.setReplay_out (k : Nat) (l : List RepFlit) : (State.setReplay k l s).out = s.out := (rfl)
@[simp] theorem State.setReplay_fresh (k : Nat) (l : List RepFlit) : (State.setReplay k l s).fresh = s.fresh := (rfl)
@[simp] theorem State.setReplay_pending (k : Nat) (l : List RepFlit) : (State.setReplay k l s).pending = s.pending := (rfl)

/-! setFpm -/
@[simp] theorem State.setFpm_regs (w v : Nat) : (State.setFpm w v s).regs = s.regs := (rfl)
@[simp] theorem State.setFpm_mem (w v : Nat) : (State.setFpm w v s).mem = s.mem := (rfl)
@[simp] theorem State.setFpm_sramSyn (w v : Nat) : (State.setFpm w v s).sramSyn = s.sramSyn := (rfl)
@[simp] theorem State.setFpm_bond (w v : Nat) : (State.setFpm w v s).bond = s.bond := (rfl)
@[simp] theorem State.setFpm_cores (w v : Nat) : (State.setFpm w v s).cores = s.cores := (rfl)
@[simp] theorem State.setFpm_clusters (w v : Nat) : (State.setFpm w v s).clusters = s.clusters := (rfl)
@[simp] theorem State.setFpm_insts (w v : Nat) : (State.setFpm w v s).insts = s.insts := (rfl)
@[simp] theorem State.setFpm_slices (w v : Nat) : (State.setFpm w v s).slices = s.slices := (rfl)
@[simp] theorem State.setFpm_net (w v : Nat) : (State.setFpm w v s).net = s.net := (rfl)
@[simp] theorem State.setFpm_memc (w v : Nat) : (State.setFpm w v s).memc = s.memc := (rfl)
@[simp] theorem State.setFpm_jports (w v : Nat) : (State.setFpm w v s).jports = s.jports := (rfl)
@[simp] theorem State.setFpm_jdev (w v : Nat) : (State.setFpm w v s).jdev = s.jdev := (rfl)
@[simp] theorem State.setFpm_host (w v : Nat) : (State.setFpm w v s).host = s.host := (rfl)
@[simp] theorem State.setFpm_pers (w v : Nat) : (State.setFpm w v s).pers = s.pers := (rfl)
@[simp] theorem State.setFpm_power (w v : Nat) : (State.setFpm w v s).power = s.power := (rfl)
@[simp] theorem State.setFpm_sec (w v : Nat) : (State.setFpm w v s).sec = s.sec := (rfl)
@[simp] theorem State.setFpm_mgmt (w v : Nat) : (State.setFpm w v s).mgmt = s.mgmt := (rfl)
@[simp] theorem State.setFpm_pat (w v : Nat) : (State.setFpm w v s).pat = s.pat := (rfl)
@[simp] theorem State.setFpm_logIn (w v : Nat) : (State.setFpm w v s).logIn = s.logIn := (rfl)
@[simp] theorem State.setFpm_cpl (w v : Nat) : (State.setFpm w v s).cpl = s.cpl := (rfl)
@[simp] theorem State.setFpm_out (w v : Nat) : (State.setFpm w v s).out = s.out := (rfl)
@[simp] theorem State.setFpm_fresh (w v : Nat) : (State.setFpm w v s).fresh = s.fresh := (rfl)
@[simp] theorem State.setFpm_pending (w v : Nat) : (State.setFpm w v s).pending = s.pending := (rfl)

/-! setRing -/
@[simp] theorem State.setRing_regs (r : Nat) (x : RingSt) : (State.setRing r x s).regs = s.regs := (rfl)
@[simp] theorem State.setRing_mem (r : Nat) (x : RingSt) : (State.setRing r x s).mem = s.mem := (rfl)
@[simp] theorem State.setRing_sramSyn (r : Nat) (x : RingSt) : (State.setRing r x s).sramSyn = s.sramSyn := (rfl)
@[simp] theorem State.setRing_bond (r : Nat) (x : RingSt) : (State.setRing r x s).bond = s.bond := (rfl)
@[simp] theorem State.setRing_cores (r : Nat) (x : RingSt) : (State.setRing r x s).cores = s.cores := (rfl)
@[simp] theorem State.setRing_clusters (r : Nat) (x : RingSt) : (State.setRing r x s).clusters = s.clusters := (rfl)
@[simp] theorem State.setRing_insts (r : Nat) (x : RingSt) : (State.setRing r x s).insts = s.insts := (rfl)
@[simp] theorem State.setRing_slices (r : Nat) (x : RingSt) : (State.setRing r x s).slices = s.slices := (rfl)
@[simp] theorem State.setRing_dev (r : Nat) (x : RingSt) : (State.setRing r x s).dev = s.dev := (rfl)
@[simp] theorem State.setRing_net (r : Nat) (x : RingSt) : (State.setRing r x s).net = s.net := (rfl)
@[simp] theorem State.setRing_memc (r : Nat) (x : RingSt) : (State.setRing r x s).memc = s.memc := (rfl)
@[simp] theorem State.setRing_jports (r : Nat) (x : RingSt) : (State.setRing r x s).jports = s.jports := (rfl)
@[simp] theorem State.setRing_jdev (r : Nat) (x : RingSt) : (State.setRing r x s).jdev = s.jdev := (rfl)
@[simp] theorem State.setRing_pers (r : Nat) (x : RingSt) : (State.setRing r x s).pers = s.pers := (rfl)
@[simp] theorem State.setRing_power (r : Nat) (x : RingSt) : (State.setRing r x s).power = s.power := (rfl)
@[simp] theorem State.setRing_sec (r : Nat) (x : RingSt) : (State.setRing r x s).sec = s.sec := (rfl)
@[simp] theorem State.setRing_mgmt (r : Nat) (x : RingSt) : (State.setRing r x s).mgmt = s.mgmt := (rfl)
@[simp] theorem State.setRing_pat (r : Nat) (x : RingSt) : (State.setRing r x s).pat = s.pat := (rfl)
@[simp] theorem State.setRing_logIn (r : Nat) (x : RingSt) : (State.setRing r x s).logIn = s.logIn := (rfl)
@[simp] theorem State.setRing_cpl (r : Nat) (x : RingSt) : (State.setRing r x s).cpl = s.cpl := (rfl)
@[simp] theorem State.setRing_out (r : Nat) (x : RingSt) : (State.setRing r x s).out = s.out := (rfl)
@[simp] theorem State.setRing_fresh (r : Nat) (x : RingSt) : (State.setRing r x s).fresh = s.fresh := (rfl)
@[simp] theorem State.setRing_pending (r : Nat) (x : RingSt) : (State.setRing r x s).pending = s.pending := (rfl)

/-! setEth -/
@[simp] theorem State.setEth_regs (p : Nat) (x : EthSt) : (State.setEth p x s).regs = s.regs := (rfl)
@[simp] theorem State.setEth_mem (p : Nat) (x : EthSt) : (State.setEth p x s).mem = s.mem := (rfl)
@[simp] theorem State.setEth_sramSyn (p : Nat) (x : EthSt) : (State.setEth p x s).sramSyn = s.sramSyn := (rfl)
@[simp] theorem State.setEth_bond (p : Nat) (x : EthSt) : (State.setEth p x s).bond = s.bond := (rfl)
@[simp] theorem State.setEth_cores (p : Nat) (x : EthSt) : (State.setEth p x s).cores = s.cores := (rfl)
@[simp] theorem State.setEth_clusters (p : Nat) (x : EthSt) : (State.setEth p x s).clusters = s.clusters := (rfl)
@[simp] theorem State.setEth_insts (p : Nat) (x : EthSt) : (State.setEth p x s).insts = s.insts := (rfl)
@[simp] theorem State.setEth_slices (p : Nat) (x : EthSt) : (State.setEth p x s).slices = s.slices := (rfl)
@[simp] theorem State.setEth_dev (p : Nat) (x : EthSt) : (State.setEth p x s).dev = s.dev := (rfl)
@[simp] theorem State.setEth_net (p : Nat) (x : EthSt) : (State.setEth p x s).net = s.net := (rfl)
@[simp] theorem State.setEth_memc (p : Nat) (x : EthSt) : (State.setEth p x s).memc = s.memc := (rfl)
@[simp] theorem State.setEth_jports (p : Nat) (x : EthSt) : (State.setEth p x s).jports = s.jports := (rfl)
@[simp] theorem State.setEth_jdev (p : Nat) (x : EthSt) : (State.setEth p x s).jdev = s.jdev := (rfl)
@[simp] theorem State.setEth_pers (p : Nat) (x : EthSt) : (State.setEth p x s).pers = s.pers := (rfl)
@[simp] theorem State.setEth_power (p : Nat) (x : EthSt) : (State.setEth p x s).power = s.power := (rfl)
@[simp] theorem State.setEth_sec (p : Nat) (x : EthSt) : (State.setEth p x s).sec = s.sec := (rfl)
@[simp] theorem State.setEth_mgmt (p : Nat) (x : EthSt) : (State.setEth p x s).mgmt = s.mgmt := (rfl)
@[simp] theorem State.setEth_pat (p : Nat) (x : EthSt) : (State.setEth p x s).pat = s.pat := (rfl)
@[simp] theorem State.setEth_logIn (p : Nat) (x : EthSt) : (State.setEth p x s).logIn = s.logIn := (rfl)
@[simp] theorem State.setEth_cpl (p : Nat) (x : EthSt) : (State.setEth p x s).cpl = s.cpl := (rfl)
@[simp] theorem State.setEth_out (p : Nat) (x : EthSt) : (State.setEth p x s).out = s.out := (rfl)
@[simp] theorem State.setEth_fresh (p : Nat) (x : EthSt) : (State.setEth p x s).fresh = s.fresh := (rfl)
@[simp] theorem State.setEth_pending (p : Nat) (x : EthSt) : (State.setEth p x s).pending = s.pending := (rfl)

/-! setStage -/
@[simp] theorem State.setStage_regs (e : Nat) (l : List EgrEnt) : (State.setStage e l s).regs = s.regs := (rfl)
@[simp] theorem State.setStage_mem (e : Nat) (l : List EgrEnt) : (State.setStage e l s).mem = s.mem := (rfl)
@[simp] theorem State.setStage_sramSyn (e : Nat) (l : List EgrEnt) : (State.setStage e l s).sramSyn = s.sramSyn := (rfl)
@[simp] theorem State.setStage_bond (e : Nat) (l : List EgrEnt) : (State.setStage e l s).bond = s.bond := (rfl)
@[simp] theorem State.setStage_cores (e : Nat) (l : List EgrEnt) : (State.setStage e l s).cores = s.cores := (rfl)
@[simp] theorem State.setStage_clusters (e : Nat) (l : List EgrEnt) : (State.setStage e l s).clusters = s.clusters := (rfl)
@[simp] theorem State.setStage_insts (e : Nat) (l : List EgrEnt) : (State.setStage e l s).insts = s.insts := (rfl)
@[simp] theorem State.setStage_slices (e : Nat) (l : List EgrEnt) : (State.setStage e l s).slices = s.slices := (rfl)
@[simp] theorem State.setStage_dev (e : Nat) (l : List EgrEnt) : (State.setStage e l s).dev = s.dev := (rfl)
@[simp] theorem State.setStage_net (e : Nat) (l : List EgrEnt) : (State.setStage e l s).net = s.net := (rfl)
@[simp] theorem State.setStage_memc (e : Nat) (l : List EgrEnt) : (State.setStage e l s).memc = s.memc := (rfl)
@[simp] theorem State.setStage_jports (e : Nat) (l : List EgrEnt) : (State.setStage e l s).jports = s.jports := (rfl)
@[simp] theorem State.setStage_jdev (e : Nat) (l : List EgrEnt) : (State.setStage e l s).jdev = s.jdev := (rfl)
@[simp] theorem State.setStage_pers (e : Nat) (l : List EgrEnt) : (State.setStage e l s).pers = s.pers := (rfl)
@[simp] theorem State.setStage_power (e : Nat) (l : List EgrEnt) : (State.setStage e l s).power = s.power := (rfl)
@[simp] theorem State.setStage_sec (e : Nat) (l : List EgrEnt) : (State.setStage e l s).sec = s.sec := (rfl)
@[simp] theorem State.setStage_mgmt (e : Nat) (l : List EgrEnt) : (State.setStage e l s).mgmt = s.mgmt := (rfl)
@[simp] theorem State.setStage_pat (e : Nat) (l : List EgrEnt) : (State.setStage e l s).pat = s.pat := (rfl)
@[simp] theorem State.setStage_logIn (e : Nat) (l : List EgrEnt) : (State.setStage e l s).logIn = s.logIn := (rfl)
@[simp] theorem State.setStage_cpl (e : Nat) (l : List EgrEnt) : (State.setStage e l s).cpl = s.cpl := (rfl)
@[simp] theorem State.setStage_out (e : Nat) (l : List EgrEnt) : (State.setStage e l s).out = s.out := (rfl)
@[simp] theorem State.setStage_fresh (e : Nat) (l : List EgrEnt) : (State.setStage e l s).fresh = s.fresh := (rfl)
@[simp] theorem State.setStage_pending (e : Nat) (l : List EgrEnt) : (State.setStage e l s).pending = s.pending := (rfl)

/-! setDlv -/
@[simp] theorem State.setDlv_regs (c k : Nat) (l : List EvtIn) : (State.setDlv c k l s).regs = s.regs := (rfl)
@[simp] theorem State.setDlv_mem (c k : Nat) (l : List EvtIn) : (State.setDlv c k l s).mem = s.mem := (rfl)
@[simp] theorem State.setDlv_sramSyn (c k : Nat) (l : List EvtIn) : (State.setDlv c k l s).sramSyn = s.sramSyn := (rfl)
@[simp] theorem State.setDlv_bond (c k : Nat) (l : List EvtIn) : (State.setDlv c k l s).bond = s.bond := (rfl)
@[simp] theorem State.setDlv_cores (c k : Nat) (l : List EvtIn) : (State.setDlv c k l s).cores = s.cores := (rfl)
@[simp] theorem State.setDlv_insts (c k : Nat) (l : List EvtIn) : (State.setDlv c k l s).insts = s.insts := (rfl)
@[simp] theorem State.setDlv_slices (c k : Nat) (l : List EvtIn) : (State.setDlv c k l s).slices = s.slices := (rfl)
@[simp] theorem State.setDlv_dev (c k : Nat) (l : List EvtIn) : (State.setDlv c k l s).dev = s.dev := (rfl)
@[simp] theorem State.setDlv_net (c k : Nat) (l : List EvtIn) : (State.setDlv c k l s).net = s.net := (rfl)
@[simp] theorem State.setDlv_memc (c k : Nat) (l : List EvtIn) : (State.setDlv c k l s).memc = s.memc := (rfl)
@[simp] theorem State.setDlv_jports (c k : Nat) (l : List EvtIn) : (State.setDlv c k l s).jports = s.jports := (rfl)
@[simp] theorem State.setDlv_jdev (c k : Nat) (l : List EvtIn) : (State.setDlv c k l s).jdev = s.jdev := (rfl)
@[simp] theorem State.setDlv_host (c k : Nat) (l : List EvtIn) : (State.setDlv c k l s).host = s.host := (rfl)
@[simp] theorem State.setDlv_pers (c k : Nat) (l : List EvtIn) : (State.setDlv c k l s).pers = s.pers := (rfl)
@[simp] theorem State.setDlv_power (c k : Nat) (l : List EvtIn) : (State.setDlv c k l s).power = s.power := (rfl)
@[simp] theorem State.setDlv_sec (c k : Nat) (l : List EvtIn) : (State.setDlv c k l s).sec = s.sec := (rfl)
@[simp] theorem State.setDlv_mgmt (c k : Nat) (l : List EvtIn) : (State.setDlv c k l s).mgmt = s.mgmt := (rfl)
@[simp] theorem State.setDlv_pat (c k : Nat) (l : List EvtIn) : (State.setDlv c k l s).pat = s.pat := (rfl)
@[simp] theorem State.setDlv_logIn (c k : Nat) (l : List EvtIn) : (State.setDlv c k l s).logIn = s.logIn := (rfl)
@[simp] theorem State.setDlv_cpl (c k : Nat) (l : List EvtIn) : (State.setDlv c k l s).cpl = s.cpl := (rfl)
@[simp] theorem State.setDlv_out (c k : Nat) (l : List EvtIn) : (State.setDlv c k l s).out = s.out := (rfl)
@[simp] theorem State.setDlv_fresh (c k : Nat) (l : List EvtIn) : (State.setDlv c k l s).fresh = s.fresh := (rfl)
@[simp] theorem State.setDlv_pending (c k : Nat) (l : List EvtIn) : (State.setDlv c k l s).pending = s.pending := (rfl)

/-! setQ -/
@[simp] theorem State.setQ_regs (p : Nat) (x : QueueSt) : (State.setQ p x s).regs = s.regs := (rfl)
@[simp] theorem State.setQ_mem (p : Nat) (x : QueueSt) : (State.setQ p x s).mem = s.mem := (rfl)
@[simp] theorem State.setQ_sramSyn (p : Nat) (x : QueueSt) : (State.setQ p x s).sramSyn = s.sramSyn := (rfl)
@[simp] theorem State.setQ_bond (p : Nat) (x : QueueSt) : (State.setQ p x s).bond = s.bond := (rfl)
@[simp] theorem State.setQ_clusters (p : Nat) (x : QueueSt) : (State.setQ p x s).clusters = s.clusters := (rfl)
@[simp] theorem State.setQ_insts (p : Nat) (x : QueueSt) : (State.setQ p x s).insts = s.insts := (rfl)
@[simp] theorem State.setQ_slices (p : Nat) (x : QueueSt) : (State.setQ p x s).slices = s.slices := (rfl)
@[simp] theorem State.setQ_dev (p : Nat) (x : QueueSt) : (State.setQ p x s).dev = s.dev := (rfl)
@[simp] theorem State.setQ_net (p : Nat) (x : QueueSt) : (State.setQ p x s).net = s.net := (rfl)
@[simp] theorem State.setQ_memc (p : Nat) (x : QueueSt) : (State.setQ p x s).memc = s.memc := (rfl)
@[simp] theorem State.setQ_jports (p : Nat) (x : QueueSt) : (State.setQ p x s).jports = s.jports := (rfl)
@[simp] theorem State.setQ_jdev (p : Nat) (x : QueueSt) : (State.setQ p x s).jdev = s.jdev := (rfl)
@[simp] theorem State.setQ_host (p : Nat) (x : QueueSt) : (State.setQ p x s).host = s.host := (rfl)
@[simp] theorem State.setQ_pers (p : Nat) (x : QueueSt) : (State.setQ p x s).pers = s.pers := (rfl)
@[simp] theorem State.setQ_power (p : Nat) (x : QueueSt) : (State.setQ p x s).power = s.power := (rfl)
@[simp] theorem State.setQ_sec (p : Nat) (x : QueueSt) : (State.setQ p x s).sec = s.sec := (rfl)
@[simp] theorem State.setQ_mgmt (p : Nat) (x : QueueSt) : (State.setQ p x s).mgmt = s.mgmt := (rfl)
@[simp] theorem State.setQ_pat (p : Nat) (x : QueueSt) : (State.setQ p x s).pat = s.pat := (rfl)
@[simp] theorem State.setQ_logIn (p : Nat) (x : QueueSt) : (State.setQ p x s).logIn = s.logIn := (rfl)
@[simp] theorem State.setQ_cpl (p : Nat) (x : QueueSt) : (State.setQ p x s).cpl = s.cpl := (rfl)
@[simp] theorem State.setQ_out (p : Nat) (x : QueueSt) : (State.setQ p x s).out = s.out := (rfl)
@[simp] theorem State.setQ_fresh (p : Nat) (x : QueueSt) : (State.setQ p x s).fresh = s.fresh := (rfl)
@[simp] theorem State.setQ_pending (p : Nat) (x : QueueSt) : (State.setQ p x s).pending = s.pending := (rfl)

end Sys2Proof.Machine
end

