-- ==== Sys2Proof/Laws/Reads.lean ====
section
/-! SUPPORT. The readers of State: each depends on one field, and what it gives after each named update. -/
namespace Sys2Proof.Machine

/-! Bit fields -/

theorem bits_eq (v lo w : Nat) : bits v lo w = v / 2 ^ lo % 2 ^ w := by simp [bits, Nat.shiftRight_eq_div_pow]
theorem bits_lt (v lo w : Nat) : bits v lo w < 2 ^ w := Nat.mod_lt _ (Nat.two_pow_pos w)
theorem testBit_bits (v lo w i : Nat) : (bits v lo w).testBit i = (decide (i < w) && v.testBit (lo + i)) := by
  simp [bits, Nat.testBit_mod_two_pow, Nat.testBit_shiftRight]
theorem testBit_setBits (v lo w x i : Nat) :
    (setBits v lo w x).testBit i = if i < lo then v.testBit i else if i < lo + w then x.testBit (i - lo) else v.testBit i := by
  have h : setBits v lo w x = 2 ^ lo * (2 ^ w * (v / 2 ^ (lo + w)) + x % 2 ^ w) + v % 2 ^ lo := by
    unfold setBits
    rw [Nat.mul_add, ← Nat.mul_assoc, ← Nat.pow_add]
    rw [Nat.mul_comm (x % 2 ^ w), Nat.mul_comm (v / 2 ^ (lo + w))]
    omega
  rw [h, Nat.testBit_two_pow_mul_add _ (Nat.mod_lt _ (Nat.two_pow_pos lo))]
  by_cases h1 : i < lo
  · simp [h1, Nat.testBit_mod_two_pow]
  · rw [if_neg h1, if_neg h1, Nat.testBit_two_pow_mul_add _ (Nat.mod_lt _ (Nat.two_pow_pos w))]
    by_cases h2 : i < lo + w
    · have h3 : i - lo < w := by omega
      rw [if_pos h2, if_pos h3, Nat.testBit_mod_two_pow]
      simp [h3]
    · have h3 : ¬ i - lo < w := by omega
      rw [if_neg h2, if_neg h3, Nat.testBit_div_two_pow]
      congr 1
      omega
theorem bits_setBits (v lo w x : Nat) : bits (setBits v lo w x) lo w = x % 2 ^ w := by
  apply Nat.eq_of_testBit_eq
  intro i
  rw [testBit_bits, testBit_setBits, Nat.testBit_mod_two_pow]
  by_cases h : i < w
  · have h1 : ¬ lo + i < lo := by omega
    simp [h, h1]
  · simp [h]
theorem bits_setBits_disj (v lo w x lo' w' : Nat) (h : lo' + w' ≤ lo ∨ lo + w ≤ lo') :
    bits (setBits v lo w x) lo' w' = bits v lo' w' := by
  apply Nat.eq_of_testBit_eq
  intro i
  rw [testBit_bits, testBit_bits, testBit_setBits]
  by_cases hi : i < w'
  · rcases h with h | h
    · have : lo' + i < lo := by omega
      simp [hi, this]
    · have h1 : ¬ lo' + i < lo := by omega
      have h2 : ¬ lo' + i < lo + w := by omega
      simp [hi, h1, h2]
  · simp [hi]
theorem bits_mod (v n lo w : Nat) (h : lo + w ≤ n) : bits (v % 2 ^ n) lo w = bits v lo w := by
  apply Nat.eq_of_testBit_eq
  intro i
  rw [testBit_bits, testBit_bits, Nat.testBit_mod_two_pow]
  by_cases hi : i < w
  · have : lo + i < n := by omega
    simp [this]
  · simp [hi]

variable (s : State)

/-! Register words and fields -/

theorem State.rd_lt (k : Nat) : s.rd k < 2 ^ 32 := (sget resetVal k s.regs).isLt
@[simp] theorem State.rd_wr_same (k v : Nat) : (State.wr k v s).rd k = v % 2 ^ 32 := by
  simp [State.rd, State.wr]
theorem State.rd_wr_ne {j k : Nat} (h : j ≠ k) (v : Nat) : (State.wr k v s).rd j = s.rd j := by
  simp [State.rd, State.wr, sget_sset_ne _ h]
theorem State.fv_wr_ne {j k : Nat} {g : Fld} (hg : g.lo + g.w ≤ 32) (h : j ≠ k) (v : Nat) : (State.wr k v s).fv j g = s.fv j g := by
  simp [State.fv, hg, State.rd_wr_ne s h]
theorem State.fv_wr_same {k : Nat} {g : Fld} (hg : g.lo + g.w ≤ 32) (v : Nat) : (State.wr k v s).fv k g = bits v g.lo g.w := by
  simp only [State.fv, hg, if_true, State.rd_wr_same]
  exact bits_mod v 32 _ _ hg
theorem State.rd_fs_ne {j k : Nat} {f : Fld} (hf : f.lo + f.w ≤ 32) (h : j ≠ k) (v : Nat) : (State.fs k f v s).rd j = s.rd j := by
  simp [State.fs, hf, State.rd_wr_ne s h]
theorem State.fv_fs_ne {j k : Nat} {f g : Fld} (hf : f.lo + f.w ≤ 32) (hg : g.lo + g.w ≤ 32) (h : j ≠ k) (v : Nat) :
    (State.fs k f v s).fv j g = s.fv j g := by
  simp [State.fv, hg, State.rd_fs_ne s hf h]
/-- A field reads what was written to it. -/
theorem State.fv_fs_same {k : Nat} {f : Fld} (hf : f.lo + f.w ≤ 32) (v : Nat) : (State.fs k f v s).fv k f = v % 2 ^ f.w := by
  simp only [State.fs, hf, if_true]
  rw [State.fv_wr_same s hf, bits_setBits]
/-- A write of a field leaves the other fields of its register. -/
theorem State.fv_fs_disj {k : Nat} {f g : Fld} (hf : f.lo + f.w ≤ 32) (hg : g.lo + g.w ≤ 32)
    (h : g.lo + g.w ≤ f.lo ∨ f.lo + f.w ≤ g.lo) (v : Nat) : (State.fs k f v s).fv k g = s.fv k g := by
  simp only [State.fs, hf, if_true]
  rw [State.fv_wr_same s hg, bits_setBits_disj _ _ _ _ _ _ h]
  simp [State.fv, hg]
theorem State.rd_inc_ne {j k : Nat} (h : j ≠ k) (n : Nat) : (State.inc k n s).rd j = s.rd j := State.rd_wr_ne s h _
theorem satU_lt (w v : Nat) : satU w v < 2 ^ w := by
  unfold satU
  split
  · assumption
  · have := Nat.two_pow_pos w
    omega
@[simp] theorem State.rd_inc_same (k n : Nat) : (State.inc k n s).rd k = satU 32 (s.rd k + n) := by
  rw [State.inc, State.rd_wr_same, Nat.mod_eq_of_lt (satU_lt 32 _)]
theorem State.rd_wr64_low (k v : Nat) : (State.wr64 k v s).rd k = v % 2 ^ 32 := by
  rw [State.wr64, State.rd_wr_ne _ (by omega), State.rd_wr_same]
  omega
theorem State.rd_wr64_high (k v : Nat) : (State.wr64 k v s).rd (k + 4) = v / 2 ^ 32 % 2 ^ 32 := by
  rw [State.wr64, State.rd_wr_same]
  omega
@[simp] theorem State.rd64_wr64_same (k v : Nat) : (State.wr64 k v s).rd64 k = v % 2 ^ 64 := by
  rw [State.rd64, State.rd_wr64_low, State.rd_wr64_high]
  omega
theorem State.rd_wr64_ne {j k : Nat} (h : j ≠ k) (h' : j ≠ k + 4) (v : Nat) : (State.wr64 k v s).rd j = s.rd j := by
  rw [State.wr64, State.rd_wr_ne _ h', State.rd_wr_ne _ h]
theorem State.rd64_wr64_ne {j k : Nat} (h : j ≠ k) (h1 : j ≠ k + 4) (h2 : j + 4 ≠ k) (v : Nat) :
    (State.wr64 k v s).rd64 j = s.rd64 j := by
  rw [State.rd64, State.rd64, State.rd_wr64_ne s h h1, State.rd_wr64_ne s h2 (by omega)]
theorem State.rd_resetRegs (j a n : Nat) :
    (State.resetRegs a n s).rd j = if a ≤ j ∧ j < a + n then (resetVal j).toNat else s.rd j := by
  simp only [State.rd, State.resetRegs, sget_sclear]
  split <;> rfl

/-! Units and bytes -/

@[simp] theorem State.core_setCore_same (p : Nat) (x : CoreSt) : (State.setCore p x s).core p = x := by simp [State.core, State.setCore]
theorem State.core_setCore_ne {p r : Nat} (h : r ≠ p) (x : CoreSt) : (State.setCore p x s).core r = s.core r := by
  simp [State.core, State.setCore, sget_sset_ne _ h]
@[simp] theorem State.cluster_setCluster_same (c : Nat) (x : ClusterSt) : (State.setCluster c x s).cluster c = x := by
  simp [State.cluster, State.setCluster]
theorem State.cluster_setCluster_ne {c d : Nat} (h : d ≠ c) (x : ClusterSt) : (State.setCluster c x s).cluster d = s.cluster d := by
  simp [State.cluster, State.setCluster, sget_sset_ne _ h]
@[simp] theorem State.inst_setInst_same (i : Nat) (x : InstSt) : (State.setInst i x s).inst i = x := by simp [State.inst, State.setInst]
theorem State.inst_setInst_ne {i j : Nat} (h : j ≠ i) (x : InstSt) : (State.setInst i x s).inst j = s.inst j := by
  simp [State.inst, State.setInst, sget_sset_ne _ h]
@[simp] theorem State.slice_setSlice_same (i : Nat) (x : SliceSt) : (State.setSlice i x s).slice i = x := by
  simp [State.slice, State.setSlice]
theorem State.slice_setSlice_ne {i j : Nat} (h : j ≠ i) (x : SliceSt) : (State.setSlice i x s).slice j = s.slice j := by
  simp [State.slice, State.setSlice, sget_sset_ne _ h]
@[simp] theorem State.jp_setJp_same (p : Nat) (x : JPortSt) : (State.setJp p x s).jp p = x := by simp [State.jp, State.setJp]
theorem State.jp_setJp_ne {p r : Nat} (h : r ≠ p) (x : JPortSt) : (State.setJp p x s).jp r = s.jp r := by
  simp [State.jp, State.setJp, sget_sset_ne _ h]
@[simp] theorem State.rdB_wrB_same (a : Nat) (v : Byte) : (State.wrB a v s).rdB a = v := by simp [State.rdB, State.wrB]
theorem State.rdB_wrB_ne {a b : Nat} (h : b ≠ a) (v : Byte) : (State.wrB a v s).rdB b = s.rdB b := by
  simp [State.rdB, State.wrB, sget_sset_ne _ h]
theorem State.rdB_clrN (b a n : Nat) : (State.clrN a n s).rdB b = if a ≤ b ∧ b < a + n then 0#8 else s.rdB b := by
  simp only [State.rdB, State.clrN, sget_sclear]

/-! rd after the updates that leave `regs` -/
theorem State.rd_congr {s t : State} (h : t.regs = s.regs) (j : Nat) : t.rd j = s.rd j := by simp only [State.rd, h]
@[simp] theorem State.rd_wrB (a : Nat) (v : Byte) (j : Nat) : (State.wrB a v s).rd j = s.rd j := State.rd_congr (State.wrB_regs s a v) j
@[simp] theorem State.rd_clrN (a n : Nat) (j : Nat) : (State.clrN a n s).rd j = s.rd j := State.rd_congr (State.clrN_regs s a n) j
@[simp] theorem State.rd_setCore (p : Nat) (x : CoreSt) (j : Nat) : (State.setCore p x s).rd j = s.rd j := State.rd_congr (State.setCore_regs s p x) j
@[simp] theorem State.rd_setCluster (c : Nat) (x : ClusterSt) (j : Nat) : (State.setCluster c x s).rd j = s.rd j := State.rd_congr (State.setCluster_regs s c x) j
@[simp] theorem State.rd_setInst (i : Nat) (x : InstSt) (j : Nat) : (State.setInst i x s).rd j = s.rd j := State.rd_congr (State.setInst_regs s i x) j
@[simp] theorem State.rd_setSlice (i : Nat) (x : SliceSt) (j : Nat) : (State.setSlice i x s).rd j = s.rd j := State.rd_congr (State.setSlice_regs s i x) j
@[simp] theorem State.rd_setJp (p : Nat) (x : JPortSt) (j : Nat) : (State.setJp p x s).rd j = s.rd j := State.rd_congr (State.setJp_regs s p x) j
@[simp] theorem State.rd_setNet (x : NetSt) (j : Nat) : (State.setNet x s).rd j = s.rd j := State.rd_congr (State.setNet_regs s x) j
@[simp] theorem State.rd_emit (o : Output) (j : Nat) : (State.emit o s).rd j = s.rd j := State.rd_congr (State.emit_regs s o) j
@[simp] theorem State.rd_hold (q : Req) (k : Nat) (a b : Option Nat) (j : Nat) : (State.hold q k a b s).rd j = s.rd j := State.rd_congr (State.hold_regs s q k a b) j
@[simp] theorem State.rd_setPin (n : Nat) (v : Bool) (j : Nat) : (State.setPin n v s).rd j = s.rd j := State.rd_congr (State.setPin_regs s n v) j
@[simp] theorem State.rd_drive (n : Nat) (v : Bool) (j : Nat) : (State.drive n v s).rd j = s.rd j := State.rd_congr (State.drive_regs s n v) j
@[simp] theorem State.rd_keep (q : Req) (k : Nat) (s0 : State) (j : Nat) : (State.keep q k s0 s).rd j = s.rd j := State.rd_congr (State.keep_regs s q k s0) j

/-! rd64 after the updates that leave `regs` -/
theorem State.rd64_congr {s t : State} (h : t.regs = s.regs) (j : Nat) : t.rd64 j = s.rd64 j := by simp only [State.rd64, State.rd, h]
@[simp] theorem State.rd64_wrB (a : Nat) (v : Byte) (j : Nat) : (State.wrB a v s).rd64 j = s.rd64 j := State.rd64_congr (State.wrB_regs s a v) j
@[simp] theorem State.rd64_clrN (a n : Nat) (j : Nat) : (State.clrN a n s).rd64 j = s.rd64 j := State.rd64_congr (State.clrN_regs s a n) j
@[simp] theorem State.rd64_setCore (p : Nat) (x : CoreSt) (j : Nat) : (State.setCore p x s).rd64 j = s.rd64 j := State.rd64_congr (State.setCore_regs s p x) j
@[simp] theorem State.rd64_setCluster (c : Nat) (x : ClusterSt) (j : Nat) : (State.setCluster c x s).rd64 j = s.rd64 j := State.rd64_congr (State.setCluster_regs s c x) j
@[simp] theorem State.rd64_setInst (i : Nat) (x : InstSt) (j : Nat) : (State.setInst i x s).rd64 j = s.rd64 j := State.rd64_congr (State.setInst_regs s i x) j
@[simp] theorem State.rd64_setSlice (i : Nat) (x : SliceSt) (j : Nat) : (State.setSlice i x s).rd64 j = s.rd64 j := State.rd64_congr (State.setSlice_regs s i x) j
@[simp] theorem State.rd64_setJp (p : Nat) (x : JPortSt) (j : Nat) : (State.setJp p x s).rd64 j = s.rd64 j := State.rd64_congr (State.setJp_regs s p x) j
@[simp] theorem State.rd64_setNet (x : NetSt) (j : Nat) : (State.setNet x s).rd64 j = s.rd64 j := State.rd64_congr (State.setNet_regs s x) j
@[simp] theorem State.rd64_emit (o : Output) (j : Nat) : (State.emit o s).rd64 j = s.rd64 j := State.rd64_congr (State.emit_regs s o) j
@[simp] theorem State.rd64_hold (q : Req) (k : Nat) (a b : Option Nat) (j : Nat) : (State.hold q k a b s).rd64 j = s.rd64 j := State.rd64_congr (State.hold_regs s q k a b) j
@[simp] theorem State.rd64_setPin (n : Nat) (v : Bool) (j : Nat) : (State.setPin n v s).rd64 j = s.rd64 j := State.rd64_congr (State.setPin_regs s n v) j
@[simp] theorem State.rd64_drive (n : Nat) (v : Bool) (j : Nat) : (State.drive n v s).rd64 j = s.rd64 j := State.rd64_congr (State.drive_regs s n v) j
@[simp] theorem State.rd64_keep (q : Req) (k : Nat) (s0 : State) (j : Nat) : (State.keep q k s0 s).rd64 j = s.rd64 j := State.rd64_congr (State.keep_regs s q k s0) j

/-! fv after the updates that leave `regs` -/
theorem State.fv_congr {s t : State} (h : t.regs = s.regs) (j : Nat) (g : Fld) : t.fv j g = s.fv j g := by simp only [State.fv, State.rd64, State.rd, h]
@[simp] theorem State.fv_wrB (a : Nat) (v : Byte) (j : Nat) (g : Fld) : (State.wrB a v s).fv j g = s.fv j g := State.fv_congr (State.wrB_regs s a v) j g
@[simp] theorem State.fv_clrN (a n : Nat) (j : Nat) (g : Fld) : (State.clrN a n s).fv j g = s.fv j g := State.fv_congr (State.clrN_regs s a n) j g
@[simp] theorem State.fv_setCore (p : Nat) (x : CoreSt) (j : Nat) (g : Fld) : (State.setCore p x s).fv j g = s.fv j g := State.fv_congr (State.setCore_regs s p x) j g
@[simp] theorem State.fv_setCluster (c : Nat) (x : ClusterSt) (j : Nat) (g : Fld) : (State.setCluster c x s).fv j g = s.fv j g := State.fv_congr (State.setCluster_regs s c x) j g
@[simp] theorem State.fv_setInst (i : Nat) (x : InstSt) (j : Nat) (g : Fld) : (State.setInst i x s).fv j g = s.fv j g := State.fv_congr (State.setInst_regs s i x) j g
@[simp] theorem State.fv_setSlice (i : Nat) (x : SliceSt) (j : Nat) (g : Fld) : (State.setSlice i x s).fv j g = s.fv j g := State.fv_congr (State.setSlice_regs s i x) j g
@[simp] theorem State.fv_setJp (p : Nat) (x : JPortSt) (j : Nat) (g : Fld) : (State.setJp p x s).fv j g = s.fv j g := State.fv_congr (State.setJp_regs s p x) j g
@[simp] theorem State.fv_setNet (x : NetSt) (j : Nat) (g : Fld) : (State.setNet x s).fv j g = s.fv j g := State.fv_congr (State.setNet_regs s x) j g
@[simp] theorem State.fv_emit (o : Output) (j : Nat) (g : Fld) : (State.emit o s).fv j g = s.fv j g := State.fv_congr (State.emit_regs s o) j g
@[simp] theorem State.fv_hold (q : Req) (k : Nat) (a b : Option Nat) (j : Nat) (g : Fld) : (State.hold q k a b s).fv j g = s.fv j g := State.fv_congr (State.hold_regs s q k a b) j g
@[simp] theorem State.fv_setPin (n : Nat) (v : Bool) (j : Nat) (g : Fld) : (State.setPin n v s).fv j g = s.fv j g := State.fv_congr (State.setPin_regs s n v) j g
@[simp] theorem State.fv_drive (n : Nat) (v : Bool) (j : Nat) (g : Fld) : (State.drive n v s).fv j g = s.fv j g := State.fv_congr (State.drive_regs s n v) j g
@[simp] theorem State.fv_keep (q : Req) (k : Nat) (s0 : State) (j : Nat) (g : Fld) : (State.keep q k s0 s).fv j g = s.fv j g := State.fv_congr (State.keep_regs s q k s0) j g

/-! fb after the updates that leave `regs` -/
theorem State.fb_congr {s t : State} (h : t.regs = s.regs) (j : Nat) (g : Fld) : t.fb j g = s.fb j g := by simp only [State.fb, State.fv, State.rd64, State.rd, h]
@[simp] theorem State.fb_wrB (a : Nat) (v : Byte) (j : Nat) (g : Fld) : (State.wrB a v s).fb j g = s.fb j g := State.fb_congr (State.wrB_regs s a v) j g
@[simp] theorem State.fb_clrN (a n : Nat) (j : Nat) (g : Fld) : (State.clrN a n s).fb j g = s.fb j g := State.fb_congr (State.clrN_regs s a n) j g
@[simp] theorem State.fb_setCore (p : Nat) (x : CoreSt) (j : Nat) (g : Fld) : (State.setCore p x s).fb j g = s.fb j g := State.fb_congr (State.setCore_regs s p x) j g
@[simp] theorem State.fb_setCluster (c : Nat) (x : ClusterSt) (j : Nat) (g : Fld) : (State.setCluster c x s).fb j g = s.fb j g := State.fb_congr (State.setCluster_regs s c x) j g
@[simp] theorem State.fb_setInst (i : Nat) (x : InstSt) (j : Nat) (g : Fld) : (State.setInst i x s).fb j g = s.fb j g := State.fb_congr (State.setInst_regs s i x) j g
@[simp] theorem State.fb_setSlice (i : Nat) (x : SliceSt) (j : Nat) (g : Fld) : (State.setSlice i x s).fb j g = s.fb j g := State.fb_congr (State.setSlice_regs s i x) j g
@[simp] theorem State.fb_setJp (p : Nat) (x : JPortSt) (j : Nat) (g : Fld) : (State.setJp p x s).fb j g = s.fb j g := State.fb_congr (State.setJp_regs s p x) j g
@[simp] theorem State.fb_setNet (x : NetSt) (j : Nat) (g : Fld) : (State.setNet x s).fb j g = s.fb j g := State.fb_congr (State.setNet_regs s x) j g
@[simp] theorem State.fb_emit (o : Output) (j : Nat) (g : Fld) : (State.emit o s).fb j g = s.fb j g := State.fb_congr (State.emit_regs s o) j g
@[simp] theorem State.fb_hold (q : Req) (k : Nat) (a b : Option Nat) (j : Nat) (g : Fld) : (State.hold q k a b s).fb j g = s.fb j g := State.fb_congr (State.hold_regs s q k a b) j g
@[simp] theorem State.fb_setPin (n : Nat) (v : Bool) (j : Nat) (g : Fld) : (State.setPin n v s).fb j g = s.fb j g := State.fb_congr (State.setPin_regs s n v) j g
@[simp] theorem State.fb_drive (n : Nat) (v : Bool) (j : Nat) (g : Fld) : (State.drive n v s).fb j g = s.fb j g := State.fb_congr (State.drive_regs s n v) j g
@[simp] theorem State.fb_keep (q : Req) (k : Nat) (s0 : State) (j : Nat) (g : Fld) : (State.keep q k s0 s).fb j g = s.fb j g := State.fb_congr (State.keep_regs s q k s0) j g

/-! core after the updates that leave `cores` -/
theorem State.core_congr {s t : State} (h : t.cores = s.cores) (j : Nat) : t.core j = s.core j := by simp only [State.core, h]
@[simp] theorem State.core_wr (k v : Nat) (j : Nat) : (State.wr k v s).core j = s.core j := State.core_congr (State.wr_cores s k v) j
@[simp] theorem State.core_resetRegs (a n : Nat) (j : Nat) : (State.resetRegs a n s).core j = s.core j := State.core_congr (State.resetRegs_cores s a n) j
@[simp] theorem State.core_wr64 (k v : Nat) (j : Nat) : (State.wr64 k v s).core j = s.core j := State.core_congr (State.wr64_cores s k v) j
@[simp] theorem State.core_fs (k : Nat) (f : Fld) (v : Nat) (j : Nat) : (State.fs k f v s).core j = s.core j := State.core_congr (State.fs_cores s k f v) j
@[simp] theorem State.core_inc (k n : Nat) (j : Nat) : (State.inc k n s).core j = s.core j := State.core_congr (State.inc_cores s k n) j
@[simp] theorem State.core_inc64 (k n : Nat) (j : Nat) : (State.inc64 k n s).core j = s.core j := State.core_congr (State.inc64_cores s k n) j
@[simp] theorem State.core_wrB (a : Nat) (v : Byte) (j : Nat) : (State.wrB a v s).core j = s.core j := State.core_congr (State.wrB_cores s a v) j
@[simp] theorem State.core_clrN (a n : Nat) (j : Nat) : (State.clrN a n s).core j = s.core j := State.core_congr (State.clrN_cores s a n) j
@[simp] theorem State.core_setCluster (c : Nat) (x : ClusterSt) (j : Nat) : (State.setCluster c x s).core j = s.core j := State.core_congr (State.setCluster_cores s c x) j
@[simp] theorem State.core_setInst (i : Nat) (x : InstSt) (j : Nat) : (State.setInst i x s).core j = s.core j := State.core_congr (State.setInst_cores s i x) j
@[simp] theorem State.core_setSlice (i : Nat) (x : SliceSt) (j : Nat) : (State.setSlice i x s).core j = s.core j := State.core_congr (State.setSlice_cores s i x) j
@[simp] theorem State.core_setJp (p : Nat) (x : JPortSt) (j : Nat) : (State.setJp p x s).core j = s.core j := State.core_congr (State.setJp_cores s p x) j
@[simp] theorem State.core_setNet (x : NetSt) (j : Nat) : (State.setNet x s).core j = s.core j := State.core_congr (State.setNet_cores s x) j
@[simp] theorem State.core_emit (o : Output) (j : Nat) : (State.emit o s).core j = s.core j := State.core_congr (State.emit_cores s o) j
@[simp] theorem State.core_log (t : Nat) (i : Option Nat) (l : List Nat) (j : Nat) : (State.log t i l s).core j = s.core j := State.core_congr (State.log_cores s t i l) j
@[simp] theorem State.core_finish (q : Req) (c : Nat) (d : List Nat) (b : Bool) (j : Nat) : (State.finish q c d b s).core j = s.core j := State.core_congr (State.finish_cores s q c d b) j
@[simp] theorem State.core_hold (q : Req) (k : Nat) (a b : Option Nat) (j : Nat) : (State.hold q k a b s).core j = s.core j := State.core_congr (State.hold_cores s q k a b) j
@[simp] theorem State.core_done (q : Req) (c : Nat) (d : List Nat) (b : Bool) (j : Nat) : (State.done q c d b s).core j = s.core j := State.core_congr (State.done_cores s q c d b) j
@[simp] theorem State.core_cross (q : Req) (j : Nat) : (State.cross q s).core j = s.core j := State.core_congr (State.cross_cores s q) j
@[simp] theorem State.core_setPin (n : Nat) (v : Bool) (j : Nat) : (State.setPin n v s).core j = s.core j := State.core_congr (State.setPin_cores s n v) j
@[simp] theorem State.core_drive (n : Nat) (v : Bool) (j : Nat) : (State.drive n v s).core j = s.core j := State.core_congr (State.drive_cores s n v) j
@[simp] theorem State.core_setDevState (v : Nat) (j : Nat) : (State.setDevState v s).core j = s.core j := State.core_congr (State.setDevState_cores s v) j
@[simp] theorem State.core_stopCore (p c : Nat) (j : Nat) : (State.stopCore p c s).core j = s.core j := State.core_congr (State.stopCore_cores s p c) j
@[simp] theorem State.core_keep (q : Req) (k : Nat) (s0 : State) (j : Nat) : (State.keep q k s0 s).core j = s.core j := State.core_congr (State.keep_cores s q k s0) j

/-! cluster after the updates that leave `clusters` -/
theorem State.cluster_congr {s t : State} (h : t.clusters = s.clusters) (j : Nat) : t.cluster j = s.cluster j := by simp only [State.cluster, h]
@[simp] theorem State.cluster_wr (k v : Nat) (j : Nat) : (State.wr k v s).cluster j = s.cluster j := State.cluster_congr (State.wr_clusters s k v) j
@[simp] theorem State.cluster_resetRegs (a n : Nat) (j : Nat) : (State.resetRegs a n s).cluster j = s.cluster j := State.cluster_congr (State.resetRegs_clusters s a n) j
@[simp] theorem State.cluster_wr64 (k v : Nat) (j : Nat) : (State.wr64 k v s).cluster j = s.cluster j := State.cluster_congr (State.wr64_clusters s k v) j
@[simp] theorem State.cluster_fs (k : Nat) (f : Fld) (v : Nat) (j : Nat) : (State.fs k f v s).cluster j = s.cluster j := State.cluster_congr (State.fs_clusters s k f v) j
@[simp] theorem State.cluster_inc (k n : Nat) (j : Nat) : (State.inc k n s).cluster j = s.cluster j := State.cluster_congr (State.inc_clusters s k n) j
@[simp] theorem State.cluster_inc64 (k n : Nat) (j : Nat) : (State.inc64 k n s).cluster j = s.cluster j := State.cluster_congr (State.inc64_clusters s k n) j
@[simp] theorem State.cluster_wrB (a : Nat) (v : Byte) (j : Nat) : (State.wrB a v s).cluster j = s.cluster j := State.cluster_congr (State.wrB_clusters s a v) j
@[simp] theorem State.cluster_clrN (a n : Nat) (j : Nat) : (State.clrN a n s).cluster j = s.cluster j := State.cluster_congr (State.clrN_clusters s a n) j
@[simp] theorem State.cluster_setCore (p : Nat) (x : CoreSt) (j : Nat) : (State.setCore p x s).cluster j = s.cluster j := State.cluster_congr (State.setCore_clusters s p x) j
@[simp] theorem State.cluster_setInst (i : Nat) (x : InstSt) (j : Nat) : (State.setInst i x s).cluster j = s.cluster j := State.cluster_congr (State.setInst_clusters s i x) j
@[simp] theorem State.cluster_setSlice (i : Nat) (x : SliceSt) (j : Nat) : (State.setSlice i x s).cluster j = s.cluster j := State.cluster_congr (State.setSlice_clusters s i x) j
@[simp] theorem State.cluster_setJp (p : Nat) (x : JPortSt) (j : Nat) : (State.setJp p x s).cluster j = s.cluster j := State.cluster_congr (State.setJp_clusters s p x) j
@[simp] theorem State.cluster_setNet (x : NetSt) (j : Nat) : (State.setNet x s).cluster j = s.cluster j := State.cluster_congr (State.setNet_clusters s x) j
@[simp] theorem State.cluster_emit (o : Output) (j : Nat) : (State.emit o s).cluster j = s.cluster j := State.cluster_congr (State.emit_clusters s o) j
@[simp] theorem State.cluster_log (t : Nat) (i : Option Nat) (l : List Nat) (j : Nat) : (State.log t i l s).cluster j = s.cluster j := State.cluster_congr (State.log_clusters s t i l) j
@[simp] theorem State.cluster_finish (q : Req) (c : Nat) (d : List Nat) (b : Bool) (j : Nat) : (State.finish q c d b s).cluster j = s.cluster j := State.cluster_congr (State.finish_clusters s q c d b) j
@[simp] theorem State.cluster_hold (q : Req) (k : Nat) (a b : Option Nat) (j : Nat) : (State.hold q k a b s).cluster j = s.cluster j := State.cluster_congr (State.hold_clusters s q k a b) j
@[simp] theorem State.cluster_done (q : Req) (c : Nat) (d : List Nat) (b : Bool) (j : Nat) : (State.done q c d b s).cluster j = s.cluster j := State.cluster_congr (State.done_clusters s q c d b) j
@[simp] theorem State.cluster_cross (q : Req) (j : Nat) : (State.cross q s).cluster j = s.cluster j := State.cluster_congr (State.cross_clusters s q) j
@[simp] theorem State.cluster_setPin (n : Nat) (v : Bool) (j : Nat) : (State.setPin n v s).cluster j = s.cluster j := State.cluster_congr (State.setPin_clusters s n v) j
@[simp] theorem State.cluster_drive (n : Nat) (v : Bool) (j : Nat) : (State.drive n v s).cluster j = s.cluster j := State.cluster_congr (State.drive_clusters s n v) j
@[simp] theorem State.cluster_setDevState (v : Nat) (j : Nat) : (State.setDevState v s).cluster j = s.cluster j := State.cluster_congr (State.setDevState_clusters s v) j
@[simp] theorem State.cluster_stopCore (p c : Nat) (j : Nat) : (State.stopCore p c s).cluster j = s.cluster j := State.cluster_congr (State.stopCore_clusters s p c) j
@[simp] theorem State.cluster_keep (q : Req) (k : Nat) (s0 : State) (j : Nat) : (State.keep q k s0 s).cluster j = s.cluster j := State.cluster_congr (State.keep_clusters s q k s0) j

/-! inst after the updates that leave `insts` -/
theorem State.inst_congr {s t : State} (h : t.insts = s.insts) (j : Nat) : t.inst j = s.inst j := by simp only [State.inst, h]
@[simp] theorem State.inst_wr (k v : Nat) (j : Nat) : (State.wr k v s).inst j = s.inst j := State.inst_congr (State.wr_insts s k v) j
@[simp] theorem State.inst_resetRegs (a n : Nat) (j : Nat) : (State.resetRegs a n s).inst j = s.inst j := State.inst_congr (State.resetRegs_insts s a n) j
@[simp] theorem State.inst_wr64 (k v : Nat) (j : Nat) : (State.wr64 k v s).inst j = s.inst j := State.inst_congr (State.wr64_insts s k v) j
@[simp] theorem State.inst_fs (k : Nat) (f : Fld) (v : Nat) (j : Nat) : (State.fs k f v s).inst j = s.inst j := State.inst_congr (State.fs_insts s k f v) j
@[simp] theorem State.inst_inc (k n : Nat) (j : Nat) : (State.inc k n s).inst j = s.inst j := State.inst_congr (State.inc_insts s k n) j
@[simp] theorem State.inst_inc64 (k n : Nat) (j : Nat) : (State.inc64 k n s).inst j = s.inst j := State.inst_congr (State.inc64_insts s k n) j
@[simp] theorem State.inst_wrB (a : Nat) (v : Byte) (j : Nat) : (State.wrB a v s).inst j = s.inst j := State.inst_congr (State.wrB_insts s a v) j
@[simp] theorem State.inst_clrN (a n : Nat) (j : Nat) : (State.clrN a n s).inst j = s.inst j := State.inst_congr (State.clrN_insts s a n) j
@[simp] theorem State.inst_setCore (p : Nat) (x : CoreSt) (j : Nat) : (State.setCore p x s).inst j = s.inst j := State.inst_congr (State.setCore_insts s p x) j
@[simp] theorem State.inst_setCluster (c : Nat) (x : ClusterSt) (j : Nat) : (State.setCluster c x s).inst j = s.inst j := State.inst_congr (State.setCluster_insts s c x) j
@[simp] theorem State.inst_setSlice (i : Nat) (x : SliceSt) (j : Nat) : (State.setSlice i x s).inst j = s.inst j := State.inst_congr (State.setSlice_insts s i x) j
@[simp] theorem State.inst_setJp (p : Nat) (x : JPortSt) (j : Nat) : (State.setJp p x s).inst j = s.inst j := State.inst_congr (State.setJp_insts s p x) j
@[simp] theorem State.inst_setNet (x : NetSt) (j : Nat) : (State.setNet x s).inst j = s.inst j := State.inst_congr (State.setNet_insts s x) j
@[simp] theorem State.inst_emit (o : Output) (j : Nat) : (State.emit o s).inst j = s.inst j := State.inst_congr (State.emit_insts s o) j
@[simp] theorem State.inst_log (t : Nat) (i : Option Nat) (l : List Nat) (j : Nat) : (State.log t i l s).inst j = s.inst j := State.inst_congr (State.log_insts s t i l) j
@[simp] theorem State.inst_finish (q : Req) (c : Nat) (d : List Nat) (b : Bool) (j : Nat) : (State.finish q c d b s).inst j = s.inst j := State.inst_congr (State.finish_insts s q c d b) j
@[simp] theorem State.inst_hold (q : Req) (k : Nat) (a b : Option Nat) (j : Nat) : (State.hold q k a b s).inst j = s.inst j := State.inst_congr (State.hold_insts s q k a b) j
@[simp] theorem State.inst_done (q : Req) (c : Nat) (d : List Nat) (b : Bool) (j : Nat) : (State.done q c d b s).inst j = s.inst j := State.inst_congr (State.done_insts s q c d b) j
@[simp] theorem State.inst_cross (q : Req) (j : Nat) : (State.cross q s).inst j = s.inst j := State.inst_congr (State.cross_insts s q) j
@[simp] theorem State.inst_setPin (n : Nat) (v : Bool) (j : Nat) : (State.setPin n v s).inst j = s.inst j := State.inst_congr (State.setPin_insts s n v) j
@[simp] theorem State.inst_drive (n : Nat) (v : Bool) (j : Nat) : (State.drive n v s).inst j = s.inst j := State.inst_congr (State.drive_insts s n v) j
@[simp] theorem State.inst_setDevState (v : Nat) (j : Nat) : (State.setDevState v s).inst j = s.inst j := State.inst_congr (State.setDevState_insts s v) j
@[simp] theorem State.inst_stopCore (p c : Nat) (j : Nat) : (State.stopCore p c s).inst j = s.inst j := State.inst_congr (State.stopCore_insts s p c) j
@[simp] theorem State.inst_keep (q : Req) (k : Nat) (s0 : State) (j : Nat) : (State.keep q k s0 s).inst j = s.inst j := State.inst_congr (State.keep_insts s q k s0) j

/-! slice after the updates that leave `slices` -/
theorem State.slice_congr {s t : State} (h : t.slices = s.slices) (j : Nat) : t.slice j = s.slice j := by simp only [State.slice, h]
@[simp] theorem State.slice_wr (k v : Nat) (j : Nat) : (State.wr k v s).slice j = s.slice j := State.slice_congr (State.wr_slices s k v) j
@[simp] theorem State.slice_resetRegs (a n : Nat) (j : Nat) : (State.resetRegs a n s).slice j = s.slice j := State.slice_congr (State.resetRegs_slices s a n) j
@[simp] theorem State.slice_wr64 (k v : Nat) (j : Nat) : (State.wr64 k v s).slice j = s.slice j := State.slice_congr (State.wr64_slices s k v) j
@[simp] theorem State.slice_fs (k : Nat) (f : Fld) (v : Nat) (j : Nat) : (State.fs k f v s).slice j = s.slice j := State.slice_congr (State.fs_slices s k f v) j
@[simp] theorem State.slice_inc (k n : Nat) (j : Nat) : (State.inc k n s).slice j = s.slice j := State.slice_congr (State.inc_slices s k n) j
@[simp] theorem State.slice_inc64 (k n : Nat) (j : Nat) : (State.inc64 k n s).slice j = s.slice j := State.slice_congr (State.inc64_slices s k n) j
@[simp] theorem State.slice_wrB (a : Nat) (v : Byte) (j : Nat) : (State.wrB a v s).slice j = s.slice j := State.slice_congr (State.wrB_slices s a v) j
@[simp] theorem State.slice_clrN (a n : Nat) (j : Nat) : (State.clrN a n s).slice j = s.slice j := State.slice_congr (State.clrN_slices s a n) j
@[simp] theorem State.slice_setCore (p : Nat) (x : CoreSt) (j : Nat) : (State.setCore p x s).slice j = s.slice j := State.slice_congr (State.setCore_slices s p x) j
@[simp] theorem State.slice_setCluster (c : Nat) (x : ClusterSt) (j : Nat) : (State.setCluster c x s).slice j = s.slice j := State.slice_congr (State.setCluster_slices s c x) j
@[simp] theorem State.slice_setInst (i : Nat) (x : InstSt) (j : Nat) : (State.setInst i x s).slice j = s.slice j := State.slice_congr (State.setInst_slices s i x) j
@[simp] theorem State.slice_setJp (p : Nat) (x : JPortSt) (j : Nat) : (State.setJp p x s).slice j = s.slice j := State.slice_congr (State.setJp_slices s p x) j
@[simp] theorem State.slice_setNet (x : NetSt) (j : Nat) : (State.setNet x s).slice j = s.slice j := State.slice_congr (State.setNet_slices s x) j
@[simp] theorem State.slice_emit (o : Output) (j : Nat) : (State.emit o s).slice j = s.slice j := State.slice_congr (State.emit_slices s o) j
@[simp] theorem State.slice_log (t : Nat) (i : Option Nat) (l : List Nat) (j : Nat) : (State.log t i l s).slice j = s.slice j := State.slice_congr (State.log_slices s t i l) j
@[simp] theorem State.slice_finish (q : Req) (c : Nat) (d : List Nat) (b : Bool) (j : Nat) : (State.finish q c d b s).slice j = s.slice j := State.slice_congr (State.finish_slices s q c d b) j
@[simp] theorem State.slice_hold (q : Req) (k : Nat) (a b : Option Nat) (j : Nat) : (State.hold q k a b s).slice j = s.slice j := State.slice_congr (State.hold_slices s q k a b) j
@[simp] theorem State.slice_done (q : Req) (c : Nat) (d : List Nat) (b : Bool) (j : Nat) : (State.done q c d b s).slice j = s.slice j := State.slice_congr (State.done_slices s q c d b) j
@[simp] theorem State.slice_cross (q : Req) (j : Nat) : (State.cross q s).slice j = s.slice j := State.slice_congr (State.cross_slices s q) j
@[simp] theorem State.slice_setPin (n : Nat) (v : Bool) (j : Nat) : (State.setPin n v s).slice j = s.slice j := State.slice_congr (State.setPin_slices s n v) j
@[simp] theorem State.slice_drive (n : Nat) (v : Bool) (j : Nat) : (State.drive n v s).slice j = s.slice j := State.slice_congr (State.drive_slices s n v) j
@[simp] theorem State.slice_setDevState (v : Nat) (j : Nat) : (State.setDevState v s).slice j = s.slice j := State.slice_congr (State.setDevState_slices s v) j
@[simp] theorem State.slice_stopCore (p c : Nat) (j : Nat) : (State.stopCore p c s).slice j = s.slice j := State.slice_congr (State.stopCore_slices s p c) j
@[simp] theorem State.slice_keep (q : Req) (k : Nat) (s0 : State) (j : Nat) : (State.keep q k s0 s).slice j = s.slice j := State.slice_congr (State.keep_slices s q k s0) j

/-! jp after the updates that leave `jports` -/
theorem State.jp_congr {s t : State} (h : t.jports = s.jports) (j : Nat) : t.jp j = s.jp j := by simp only [State.jp, h]
@[simp] theorem State.jp_wr (k v : Nat) (j : Nat) : (State.wr k v s).jp j = s.jp j := State.jp_congr (State.wr_jports s k v) j
@[simp] theorem State.jp_resetRegs (a n : Nat) (j : Nat) : (State.resetRegs a n s).jp j = s.jp j := State.jp_congr (State.resetRegs_jports s a n) j
@[simp] theorem State.jp_wr64 (k v : Nat) (j : Nat) : (State.wr64 k v s).jp j = s.jp j := State.jp_congr (State.wr64_jports s k v) j
@[simp] theorem State.jp_fs (k : Nat) (f : Fld) (v : Nat) (j : Nat) : (State.fs k f v s).jp j = s.jp j := State.jp_congr (State.fs_jports s k f v) j
@[simp] theorem State.jp_inc (k n : Nat) (j : Nat) : (State.inc k n s).jp j = s.jp j := State.jp_congr (State.inc_jports s k n) j
@[simp] theorem State.jp_inc64 (k n : Nat) (j : Nat) : (State.inc64 k n s).jp j = s.jp j := State.jp_congr (State.inc64_jports s k n) j
@[simp] theorem State.jp_wrB (a : Nat) (v : Byte) (j : Nat) : (State.wrB a v s).jp j = s.jp j := State.jp_congr (State.wrB_jports s a v) j
@[simp] theorem State.jp_clrN (a n : Nat) (j : Nat) : (State.clrN a n s).jp j = s.jp j := State.jp_congr (State.clrN_jports s a n) j
@[simp] theorem State.jp_setCore (p : Nat) (x : CoreSt) (j : Nat) : (State.setCore p x s).jp j = s.jp j := State.jp_congr (State.setCore_jports s p x) j
@[simp] theorem State.jp_setCluster (c : Nat) (x : ClusterSt) (j : Nat) : (State.setCluster c x s).jp j = s.jp j := State.jp_congr (State.setCluster_jports s c x) j
@[simp] theorem State.jp_setInst (i : Nat) (x : InstSt) (j : Nat) : (State.setInst i x s).jp j = s.jp j := State.jp_congr (State.setInst_jports s i x) j
@[simp] theorem State.jp_setSlice (i : Nat) (x : SliceSt) (j : Nat) : (State.setSlice i x s).jp j = s.jp j := State.jp_congr (State.setSlice_jports s i x) j
@[simp] theorem State.jp_setNet (x : NetSt) (j : Nat) : (State.setNet x s).jp j = s.jp j := State.jp_congr (State.setNet_jports s x) j
@[simp] theorem State.jp_emit (o : Output) (j : Nat) : (State.emit o s).jp j = s.jp j := State.jp_congr (State.emit_jports s o) j
@[simp] theorem State.jp_log (t : Nat) (i : Option Nat) (l : List Nat) (j : Nat) : (State.log t i l s).jp j = s.jp j := State.jp_congr (State.log_jports s t i l) j
@[simp] theorem State.jp_finish (q : Req) (c : Nat) (d : List Nat) (b : Bool) (j : Nat) : (State.finish q c d b s).jp j = s.jp j := State.jp_congr (State.finish_jports s q c d b) j
@[simp] theorem State.jp_hold (q : Req) (k : Nat) (a b : Option Nat) (j : Nat) : (State.hold q k a b s).jp j = s.jp j := State.jp_congr (State.hold_jports s q k a b) j
@[simp] theorem State.jp_done (q : Req) (c : Nat) (d : List Nat) (b : Bool) (j : Nat) : (State.done q c d b s).jp j = s.jp j := State.jp_congr (State.done_jports s q c d b) j
@[simp] theorem State.jp_cross (q : Req) (j : Nat) : (State.cross q s).jp j = s.jp j := State.jp_congr (State.cross_jports s q) j
@[simp] theorem State.jp_setPin (n : Nat) (v : Bool) (j : Nat) : (State.setPin n v s).jp j = s.jp j := State.jp_congr (State.setPin_jports s n v) j
@[simp] theorem State.jp_drive (n : Nat) (v : Bool) (j : Nat) : (State.drive n v s).jp j = s.jp j := State.jp_congr (State.drive_jports s n v) j
@[simp] theorem State.jp_setDevState (v : Nat) (j : Nat) : (State.setDevState v s).jp j = s.jp j := State.jp_congr (State.setDevState_jports s v) j
@[simp] theorem State.jp_stopCore (p c : Nat) (j : Nat) : (State.stopCore p c s).jp j = s.jp j := State.jp_congr (State.stopCore_jports s p c) j
@[simp] theorem State.jp_keep (q : Req) (k : Nat) (s0 : State) (j : Nat) : (State.keep q k s0 s).jp j = s.jp j := State.jp_congr (State.keep_jports s q k s0) j

/-! rdB after the updates that leave `mem` -/
theorem State.rdB_congr {s t : State} (h : t.mem = s.mem) (j : Nat) : t.rdB j = s.rdB j := by simp only [State.rdB, h]
@[simp] theorem State.rdB_wr (k v : Nat) (j : Nat) : (State.wr k v s).rdB j = s.rdB j := State.rdB_congr (State.wr_mem s k v) j
@[simp] theorem State.rdB_resetRegs (a n : Nat) (j : Nat) : (State.resetRegs a n s).rdB j = s.rdB j := State.rdB_congr (State.resetRegs_mem s a n) j
@[simp] theorem State.rdB_wr64 (k v : Nat) (j : Nat) : (State.wr64 k v s).rdB j = s.rdB j := State.rdB_congr (State.wr64_mem s k v) j
@[simp] theorem State.rdB_fs (k : Nat) (f : Fld) (v : Nat) (j : Nat) : (State.fs k f v s).rdB j = s.rdB j := State.rdB_congr (State.fs_mem s k f v) j
@[simp] theorem State.rdB_inc (k n : Nat) (j : Nat) : (State.inc k n s).rdB j = s.rdB j := State.rdB_congr (State.inc_mem s k n) j
@[simp] theorem State.rdB_inc64 (k n : Nat) (j : Nat) : (State.inc64 k n s).rdB j = s.rdB j := State.rdB_congr (State.inc64_mem s k n) j
@[simp] theorem State.rdB_setCore (p : Nat) (x : CoreSt) (j : Nat) : (State.setCore p x s).rdB j = s.rdB j := State.rdB_congr (State.setCore_mem s p x) j
@[simp] theorem State.rdB_setCluster (c : Nat) (x : ClusterSt) (j : Nat) : (State.setCluster c x s).rdB j = s.rdB j := State.rdB_congr (State.setCluster_mem s c x) j
@[simp] theorem State.rdB_setInst (i : Nat) (x : InstSt) (j : Nat) : (State.setInst i x s).rdB j = s.rdB j := State.rdB_congr (State.setInst_mem s i x) j
@[simp] theorem State.rdB_setSlice (i : Nat) (x : SliceSt) (j : Nat) : (State.setSlice i x s).rdB j = s.rdB j := State.rdB_congr (State.setSlice_mem s i x) j
@[simp] theorem State.rdB_setJp (p : Nat) (x : JPortSt) (j : Nat) : (State.setJp p x s).rdB j = s.rdB j := State.rdB_congr (State.setJp_mem s p x) j
@[simp] theorem State.rdB_setNet (x : NetSt) (j : Nat) : (State.setNet x s).rdB j = s.rdB j := State.rdB_congr (State.setNet_mem s x) j
@[simp] theorem State.rdB_emit (o : Output) (j : Nat) : (State.emit o s).rdB j = s.rdB j := State.rdB_congr (State.emit_mem s o) j
@[simp] theorem State.rdB_log (t : Nat) (i : Option Nat) (l : List Nat) (j : Nat) : (State.log t i l s).rdB j = s.rdB j := State.rdB_congr (State.log_mem s t i l) j
@[simp] theorem State.rdB_finish (q : Req) (c : Nat) (d : List Nat) (b : Bool) (j : Nat) : (State.finish q c d b s).rdB j = s.rdB j := State.rdB_congr (State.finish_mem s q c d b) j
@[simp] theorem State.rdB_hold (q : Req) (k : Nat) (a b : Option Nat) (j : Nat) : (State.hold q k a b s).rdB j = s.rdB j := State.rdB_congr (State.hold_mem s q k a b) j
@[simp] theorem State.rdB_done (q : Req) (c : Nat) (d : List Nat) (b : Bool) (j : Nat) : (State.done q c d b s).rdB j = s.rdB j := State.rdB_congr (State.done_mem s q c d b) j
@[simp] theorem State.rdB_cross (q : Req) (j : Nat) : (State.cross q s).rdB j = s.rdB j := State.rdB_congr (State.cross_mem s q) j
@[simp] theorem State.rdB_setPin (n : Nat) (v : Bool) (j : Nat) : (State.setPin n v s).rdB j = s.rdB j := State.rdB_congr (State.setPin_mem s n v) j
@[simp] theorem State.rdB_drive (n : Nat) (v : Bool) (j : Nat) : (State.drive n v s).rdB j = s.rdB j := State.rdB_congr (State.drive_mem s n v) j
@[simp] theorem State.rdB_setDevState (v : Nat) (j : Nat) : (State.setDevState v s).rdB j = s.rdB j := State.rdB_congr (State.setDevState_mem s v) j
@[simp] theorem State.rdB_stopCore (p c : Nat) (j : Nat) : (State.stopCore p c s).rdB j = s.rdB j := State.rdB_congr (State.stopCore_mem s p c) j
@[simp] theorem State.rdB_keep (q : Req) (k : Nat) (s0 : State) (j : Nat) : (State.keep q k s0 s).rdB j = s.rdB j := State.rdB_congr (State.keep_mem s q k s0) j

end Sys2Proof.Machine
end

