-- ==== Sys2Proof/Laws/Hub.lean ====
section
/-! SUPPORT. The control hub and the completion of an access. -/
namespace Sys2Proof.Machine

/-- An access that the hub admits is performed. -/
theorem State.hub_admitted {s : State} {q : Req} {n : Nat} (h : s.admits q n = true) (f : State → State) : s.hub q n f = f s := by
  simp only [State.admits, Bool.and_eq_true, Bool.not_eq_true'] at h
  obtain ⟨⟨h1, h2⟩, h3⟩ := h
  cases q with
  | vf i => simp only [Bool.not_eq_true'] at h1; simp only [State.hub, h1, h2, h3, Bool.or_self, Bool.false_eq_true, if_false]
  | _ => simp only [State.hub, h2, h3, Bool.or_self, Bool.false_eq_true, if_false]

@[simp] theorem State.finish_cpl (s : State) (q : Req) (c : Nat) (d : List Nat) (b : Bool) :
    (State.finish q c d b s).cpl = ⟨q, c, d, b⟩ :: s.cpl := by
  simp only [State.finish]
  split <;> simp
@[simp] theorem State.done_cpl (s : State) (q : Req) (c : Nat) (d : List Nat) (b : Bool) :
    (State.done q c d b s).cpl = ⟨q, c, d, b⟩ :: s.cpl := by simp [State.done]
@[simp] theorem State.cross_cpl (s : State) (q : Req) : (State.cross q s).cpl = ⟨q, cREFUSED, [], true⟩ :: s.cpl := by simp [State.cross]
/-- A completion with code OK leaves every register. -/
@[simp] theorem State.finish_ok_rd (s : State) (q : Req) (d : List Nat) (b : Bool) (k : Nat) : (State.finish q cOK d b s).rd k = s.rd k := by
  simp [State.finish, State.rd]
@[simp] theorem State.done_ok_rd (s : State) (q : Req) (d : List Nat) (b : Bool) (k : Nat) : (State.done q cOK d b s).rd k = s.rd k := by
  simp [State.done]
/-- A completion with any code leaves every register but the requester's GLB_CFG_ERR. -/
theorem State.done_rd_ne (s : State) (q : Req) (c : Nat) (d : List Nat) (b : Bool) {k : Nat} (h : k ≠ GLB_CFG_ERR (reqIx q)) :
    (State.done q c d b s).rd k = s.rd k := by
  rw [State.done, State.rd_hold]
  by_cases hc : c = cOK
  · rw [hc, State.finish_ok_rd]
  · have : (State.finish q c d b s).regs = (State.fs (GLB_CFG_ERR (reqIx q)) GLB_CFG_ERR.LAST_CODE c s).regs := by
      simp only [State.finish, hc, if_false]
    rw [State.rd_congr this, State.rd_fs_ne s (by decide) h]

end Sys2Proof.Machine
end

