-- ==== Sys2Proof/Laws/LineCode.lean ====
section
/-! SUPPORT. The line coding of a Jarisk link at the zero word: it is a codeword, and it descrambles to the zero message. -/
namespace Sys2Proof.Machine

theorem gfMul_zero (x : Nat) : gfMul 0 x = 0 := by simp [gfMul, List.range_succ]

theorem gfHorner_zeros (x n : Nat) : gfHorner x (List.replicate n 0) = 0 := by
  induction n with
  | zero => rfl
  | succ n ih => simpa [gfHorner, List.replicate_succ, gfMul_zero] using ih

theorem rsDecode_zeros (n : Nat) : rsDecode (List.replicate n 0) = some (List.replicate n 0, []) := by
  simp [rsDecode, rsSyn, gfHorner_zeros]

/-- A fold whose step keeps its start ends where it started. -/
theorem foldl_stays {α β : Type} (f : α → β → α) (a : α) (l : List β) (h : ∀ b ∈ l, f a b = a) : l.foldl f a = a := by
  induction l with
  | nil => rfl
  | cons b l ih => rw [List.foldl_cons, h b (by simp)]; exact ih fun c hc => h c (by simp [hc])

theorem symsMsg_zeros (n : Nat) : symsMsg (List.replicate n 0) = 0 := by
  refine foldl_stays _ _ _ fun y hy => ?_
  have h := List.eq_of_mem_replicate (List.mem_of_mem_take (List.of_mem_zip hy).1)
  simp [h]

theorem descramble_zero : descramble 0 0 = (0, 0) :=
  foldl_stays _ _ _ fun i _ => by simp [scrTap, scrPush, b2n]

end Sys2Proof.Machine
end

