-- ==== Sys2Proof/Laws/Open.lean ====
section
/-! SUPPORT. What the admission predicates of the statements say about the shared guards: an admitted access is performed. -/
namespace Sys2Proof.Machine

variable {s : State} {q : Req}

/-- An access that the gate admits is performed. -/
theorem State.gate_open {n : Nat} (h : s.gateOpen q n = true) (f : State → State) : s.gate q n f = f s := by
  simp only [State.gateOpen, Bool.and_eq_true] at h
  obtain ⟨ha, hv⟩ := h
  cases q with
  | vf i =>
    have hs : s.fv (SEC_INST i.val) SEC_INST.STATE ≠ 0 := by simpa using hv
    simp only [State.gate, hs, and_false, if_false]
    exact State.hub_admitted ha f
  | _ => exact State.hub_admitted ha f
/-- An access while the hub is down completes RETRY and does nothing else, but for an interface in ERROR. -/
theorem State.hub_down {n : Nat} (h : s.dev.hubDown = true) (hq : ∀ i, q ≠ .vf i) (f : State → State) : s.hub q n f = s.done q cRETRY [] false := by
  cases q with
  | vf i => exact absurd rfl (hq i)
  | _ => simp only [State.hub, h, Bool.true_or, if_true, Bool.false_eq_true, if_false]
/-- An access to a unit that is there, and that no load holds, is performed. -/
theorem State.late_open {g b w : Bool} (hg : g = false) (hw : w = false) (f : State → State) : State.late q g b w f s = f s := by
  subst hg hw; rfl
/-- An access that a device-wide unit admits passes the hub. -/
theorem State.hub_dev {n : Nat} (h : s.devOpen q n = true) (f : State → State) : s.hub q n f = f s :=
  State.hub_admitted (by simp only [State.devOpen, Bool.and_eq_true] at h; exact h.1) f
theorem State.devOpen_isVf {n : Nat} (h : s.devOpen q n = true) : isVf q = false := by
  simp only [State.devOpen, Bool.and_eq_true, Bool.not_eq_true'] at h; exact h.2
theorem State.clRight_gate {c : Nat} (h : s.clRight q c = true) : s.gateOpen q 9 = true := by
  simp only [State.clRight, Bool.and_eq_true] at h; exact h.1.1.1
theorem State.instOpen_gate {i : Nat} (h : s.instOpen q i = true) : s.gateOpen q 6 = true := by
  simp only [State.instOpen, Bool.and_eq_true] at h; exact h.1.1
theorem State.timerOpen_gate {n : Nat} (h : s.timerOpen q n = true) : s.gateOpen q 5 = true := by
  simp only [State.timerOpen, Bool.and_eq_true] at h; exact h.1.1
theorem State.jlkOpen_gate {p : Nat} (h : s.jlkOpen q p = true) : s.gateOpen q 6 = true := by
  simp only [State.jlkOpen, Bool.and_eq_true] at h; exact h.1.1
theorem State.ethOpen_gate {p : Nat} (h : s.ethOpen q p = true) : s.gateOpen q 11 = true := by
  simp only [State.ethOpen, Bool.and_eq_true] at h; exact h.1.1.1
theorem State.fnOpen_admits {f : Nat} (h : s.fnOpen q f = true) : s.admits q 5 = true := by
  simp only [State.fnOpen, Bool.and_eq_true] at h; exact h.1
theorem State.coreOpen_gate {p : Nat} {w : Bool} (h : s.coreOpen q p w = true) : s.gateOpen q 9 = true := by
  simp only [State.coreOpen, Bool.and_eq_true] at h; exact h.1
theorem State.coreOpen_guard {p : Nat} {w : Bool} (h : s.coreOpen q p w = true) : coreGuard q p w s = none := by
  simp only [State.coreOpen, Bool.and_eq_true, Option.isNone_iff_eq_none] at h; exact h.2

/-! The shared guards on what the predicates admit -/

theorem onPat_open (h : s.devOpen q 0 = true) (f : State → State) : onPat q f s = f s := by
  simp [onPat, State.hub_dev h, State.devOpen_isVf h]
theorem onMgt_open (h : s.devOpen q 0 = true) (f : State → State) : onMgt q f s = f s := by
  simp [onMgt, State.hub_dev h, State.devOpen_isVf h]
theorem onSec_open (h : s.devOpen q 0 = true) (f : State → State) : onSec q f s = f s := by
  simp [onSec, State.hub_dev h, State.devOpen_isVf h]
theorem onPwr_open (h : s.devOpen q 2 = true) (f : State → State) : onPwr q f s = f s := by
  simp [onPwr, State.hub_dev h, State.devOpen_isVf h]
theorem onDev_open (h : s.gateOpen q 6 = true) (hq : isVf q = false) (f : State → State) : onDev q f s = f s := by
  simp [onDev, State.gate_open h, hq]
theorem onJlk_open {p : Nat} (h : s.jlkOpen q p = true) (f : State → State) (b : Bool := false) : onJlk q p f s b = f s := by
  simp only [State.jlkOpen, Bool.and_eq_true, Bool.not_eq_true'] at h
  rw [onJlk, onDev_open h.1.1 h.1.2, State.late_open h.2 rfl]
theorem onCore_open {p : Nat} {w : Bool} (h : s.coreOpen q p w = true) (f : State → State) (b : Bool := false) : onCore q p w f s b = f (clusterWake (p / 32) s) := by
  simp [onCore, State.gate_open (State.coreOpen_gate h), State.coreOpen_guard h]
theorem onInst_open {i : Nat} {w c : Bool} (h : s.instOpen q i = true) (f : State → State) : onInst q i w c f s = f s := by
  have hg := State.instOpen_gate h
  simp only [State.instOpen, Bool.and_eq_true, Bool.not_eq_true'] at h
  rw [onInst, State.gate_open hg, State.late_open rfl (by simp [heldWrite, h.1.2])]
  cases q <;> simp_all [isVf, entitled, confWrite]
theorem onTimer_open {n : Nat} {w : Bool} (h : s.timerOpen q n = true) (f : State → State) : onTimer q n w f s = f s := by
  have hg := State.timerOpen_gate h
  simp only [State.timerOpen, Bool.and_eq_true, Bool.not_eq_true', Bool.and_eq_false_iff] at h
  rw [onTimer, State.gate_open hg]
  simp only
  rw [State.late_open rfl (by rcases h.1.2 with h | h <;> simp [h])]
  cases q <;> simp_all
theorem onFn_open {f : Nat} {w : Bool} (h : s.fnOpen q f = true) (g : State → State) : onFn q f w g s = g s := by
  have hg := State.fnOpen_admits h
  simp only [State.fnOpen, Bool.and_eq_true] at h
  simp only [onFn, State.hub_admitted hg]
  cases q <;> simp_all <;> grind
theorem onEth_open {p : Nat} {w : Bool} (h : s.ethOpen q p = true) (f : State → State) (b : Bool := false) : onEth q p w f s b = f s := by
  have hg := State.ethOpen_gate h
  simp only [State.ethOpen, Bool.and_eq_true, Bool.not_eq_true', Bool.and_eq_false_iff] at h
  rw [onEth, State.gate_open hg]
  simp only
  rw [State.late_open h.1.1.2 (by rcases h.1.2 with h | h <;> simp [h])]
  cases q <;> simp_all [isVf]
/-- What `clFree` says of a write that a load would hold. -/
theorem heldWrite_free {c : Nat} {w : Bool} (h : s.clFree c = true) : heldWrite (s.clInst c) w s = false := by
  unfold State.clFree at h
  cases hi : s.clInst c <;> simp_all [heldWrite]
theorem onCluster_right {c : Nat} {w k : Bool} (h : s.clRight q c = true) (f : State → State) (b : Bool := false) :
    onCluster q c w true k f s b = f s := by
  have hg := State.clRight_gate h
  simp only [State.clRight, Bool.and_eq_true, Bool.not_eq_true'] at h
  obtain ⟨⟨⟨-, hc⟩, ha⟩, hr⟩ := h
  rw [onCluster, State.gate_open hg, State.late_open hc (heldWrite_free ha)]
  cases hi : s.clInst c <;> cases q <;> simp_all [isVf, entitled, confWrite]
theorem onCluster_open {c : Nat} {w v k : Bool} (h : s.clusterOpen q c = true) (f : State → State) (b : Bool := false) :
    onCluster q c w v k f s b = f s := by
  simp only [State.clusterOpen, Bool.and_eq_true, Bool.not_eq_true'] at h
  obtain ⟨⟨⟨hg, hv⟩, hc⟩, ha⟩ := h
  rw [onCluster, State.gate_open hg, State.late_open hc (by cases hi : s.clInst c <;> simp_all [heldWrite])]
  cases hi : s.clInst c <;> cases q <;> simp_all [isVf, entitled, confWrite]

/-- A record posted to a queue with room is appended, and nothing else changes. -/
theorem State.log_room (h : s.logRoom 1) (t : Nat) (i : Option Nat) (l : List Nat) :
    s.log t i l = { s with logIn := s.logIn ++ [⟨t, i, l, s.rd64 TIME64⟩] } := by
  simp only [State.log, if_pos (show s.logIn.length < 1024 by omega)]

end Sys2Proof.Machine
end

