-- ==== Sys2Proof/Laws/Wf.lean ====
section
/-! SUPPORT. Every operation over the register file and the on-die memory keeps their canonical form. -/
namespace Sys2Proof.Machine

variable {α : Type}

/-! Keeping only some entries -/

theorem srising_filter {lo : Option Nat} (f : Nat × α → Bool) {m : SMap α} (h : srising lo m = true) :
    srising lo (m.filter f) = true := by
  induction m generalizing lo with
  | nil => rfl
  | cons x t ih =>
    obtain ⟨k, v⟩ := x
    simp only [srising, Bool.and_eq_true] at h
    by_cases hk : f (k, v) = true
    · simp only [List.filter_cons_of_pos hk, srising, Bool.and_eq_true]
      exact ⟨h.1, ih h.2⟩
    · simp only [List.filter_cons_of_neg hk]
      refine srising_mono (ih h.2) ?_
      rintro b rfl
      exact ⟨k, rfl, by have := h.1; simp at this; omega⟩
theorem swf_filter [DecidableEq α] (d : Nat → α) (f : Nat × α → Bool) {m : SMap α} (h : swf d m = true) :
    swf d (m.filter f) = true := by
  simp only [swf, Bool.and_eq_true, snodef_iff] at h ⊢
  exact ⟨srising_filter f h.1, fun x hx => h.2 x (List.mem_filter.1 hx).1⟩

/-! The invariant depends on the two maps alone -/

theorem State.Inv_congr {s t : State} (hr : t.regs = s.regs) (hm : t.mem = s.mem) : t.Inv ↔ s.Inv := by
  simp only [State.Inv, hr, hm]
theorem State.Inv.congr {s t : State} (h : s.Inv) (hr : t.regs = s.regs) (hm : t.mem = s.mem) : t.Inv :=
  (State.Inv_congr hr hm).2 h

variable {s : State}

/-! Register writes -/

theorem State.Inv.wr (h : s.Inv) (k v : Nat) : (State.wr k v s).Inv := ⟨swf_sset _ _ _ _ h.1, h.2⟩
theorem State.Inv.wr64 (h : s.Inv) (k v : Nat) : (State.wr64 k v s).Inv := (h.wr _ _).wr _ _
theorem State.Inv.fs (h : s.Inv) (k : Nat) (f : Fld) (v : Nat) : (State.fs k f v s).Inv := by
  unfold State.fs
  split
  · exact h.wr _ _
  · exact h.wr64 _ _
theorem State.Inv.wrFlds (h : s.Inv) (k v : Nat) (l : List Fld) : (State.wrFlds k v l s).Inv := by
  unfold State.wrFlds
  induction l generalizing s with
  | nil => exact h
  | cons f t ih => exact ih (h.fs _ _ _)
theorem State.Inv.inc (h : s.Inv) (k n : Nat) : (State.inc k n s).Inv := h.wr _ _
theorem State.Inv.inc64 (h : s.Inv) (k n : Nat) : (State.inc64 k n s).Inv := h.wr64 _ _
theorem State.Inv.resetRegs (h : s.Inv) (a n : Nat) : (State.resetRegs a n s).Inv := ⟨swf_sclear _ _ _ _ h.1, h.2⟩

/-! Memory writes -/

theorem State.Inv.wrB (h : s.Inv) (a : Nat) (v : Byte) : (State.wrB a v s).Inv := ⟨h.1, swf_sset _ _ _ _ h.2⟩
theorem State.Inv.wrN (h : s.Inv) (a : Nat) (l : List Byte) : (State.wrN a l s).Inv := by
  unfold State.wrN
  suffices ∀ (p : Nat × State), p.2.Inv → (l.foldl (fun (p : Nat × State) b => (p.1 + 1, p.2.wrB p.1 b)) p).2.Inv from this (a, s) h
  induction l with
  | nil => exact fun _ h => h
  | cons b t ih => exact fun p hp => ih _ (hp.wrB _ _)
theorem State.Inv.wrLE (h : s.Inv) (n a v : Nat) : (State.wrLE n a v s).Inv := h.wrN _ _
theorem State.Inv.clrN (h : s.Inv) (a n : Nat) : (State.clrN a n s).Inv := ⟨h.1, swf_sclear _ _ _ _ h.2⟩
theorem State.Inv.copyN (h : s.Inv) (src dst n : Nat) : (State.copyN src dst n s).Inv := by
  unfold State.copyN
  suffices ∀ (l : List Host.Cell) (t : State), t.Inv → (l.foldl (fun s x => State.wrB (dst + (x.1 - src)) x.2 s) t).Inv from this _ _ (h.clrN _ _)
  intro l
  induction l with
  | nil => exact fun _ h => h
  | cons b t ih => exact fun p hp => ih _ (hp.wrB _ _)
theorem State.Inv.clearSlice (h : s.Inv) (x : Nat) : (clearSlice x s).Inv := ⟨h.1, swf_filter _ _ h.2⟩
theorem State.Inv.wrSram (h : s.Inv) (p o v : Nat) : (State.wrSram p o v s).Inv :=
  (h.wrLE 4 (sramBase p + o) v).congr rfl rfl
theorem State.Inv.clrSram (h : s.Inv) (p o n : Nat) : (State.clrSram p o n s).Inv :=
  (h.clrN (sramBase p + o) n).congr rfl rfl
theorem State.Inv.wrNs (h : s.Inv) (a : Nat) (l : List Byte) : (State.wrNs a l s).Inv := (h.wrN a l).congr rfl rfl
theorem State.Inv.clrNs (h : s.Inv) (a n : Nat) : (State.clrNs a n s).Inv := (h.clrN a n).congr rfl rfl
theorem State.Inv.wrSeg (h : s.Inv) (p w v : Nat) : (State.wrSeg p w v s).Inv := by
  unfold State.wrSeg
  split
  · simp only
    split
    · split
      · exact (h.wrLE _ _ _).wrLE _ _ _
      · exact h.wrLE _ _ _
    · exact h.wrLE _ _ _
  · exact h
theorem State.Inv.wrSegD (h : s.Inv) (p w v : Nat) : (State.wrSegD p w v s).Inv := (h.wrSeg _ _ _).wrSeg _ _ _

/-! Unit state, messages and completions -/

theorem State.Inv.setCore (h : s.Inv) (p : Nat) (x : CoreSt) : (State.setCore p x s).Inv := h
theorem State.Inv.setCluster (h : s.Inv) (c : Nat) (x : ClusterSt) : (State.setCluster c x s).Inv := h
theorem State.Inv.setInst (h : s.Inv) (i : Nat) (x : InstSt) : (State.setInst i x s).Inv := h
theorem State.Inv.setSlice (h : s.Inv) (i : Nat) (x : SliceSt) : (State.setSlice i x s).Inv := h
theorem State.Inv.emit (h : s.Inv) (o : Output) : (State.emit o s).Inv := h
theorem State.Inv.hold (h : s.Inv) (q : Req) (k : Nat) (a b : Option Nat) : (State.hold q k a b s).Inv := h
theorem State.Inv.log (h : s.Inv) (t : Nat) (i : Option Nat) (l : List Nat) : (State.log t i l s).Inv := by
  unfold State.log
  split
  · exact h
  · exact (h.inc _ _).congr rfl rfl
theorem State.Inv.finish (h : s.Inv) (q : Req) (c : Nat) (d : List Nat) (b : Bool) : (State.finish q c d b s).Inv := by
  unfold State.finish
  simp only
  split
  · exact h
  · exact (h.fs _ _ _).congr rfl rfl
theorem State.Inv.done (h : s.Inv) (q : Req) (c : Nat) (d : List Nat) (b : Bool) : (State.done q c d b s).Inv := (h.finish q c d b).hold _ _ _ _
theorem State.Inv.cross (h : s.Inv) (q : Req) : (State.cross q s).Inv := h.done _ _ _ _
theorem State.Inv.stopCore (h : s.Inv) (p c : Nat) : (State.stopCore p c s).Inv := ((h.fs _ _ _).fs _ _ _).emit _
theorem State.Inv.hub (h : s.Inv) (q : Req) (n : Nat) {f : State → State} (hf : (f s).Inv) : (State.hub q n f s).Inv := by
  have hg : ∀ c b, (State.done q c [] b s).Inv := fun c b => h.done _ _ _ _
  cases q <;> simp only [State.hub] <;> repeat' split
  all_goals first | exact hf | exact hg _ _
theorem State.Inv.late (h : s.Inv) (q : Req) (g b w : Bool) {f : State → State} (hf : (f s).Inv) : (State.late q g b w f s).Inv := by
  have hd : ∀ c, (State.done q c [] false s).Inv := fun c => h.done _ _ _ _
  unfold State.late
  repeat' split
  all_goals first | exact hf | exact hd _
theorem State.Inv.gate (h : s.Inv) (q : Req) (n : Nat) {f : State → State} (hf : (f s).Inv) : (State.gate q n f s).Inv := by
  unfold State.gate
  split
  · split
    · exact h.cross _
    · exact h.hub _ _ hf
  · exact h.hub _ _ hf

end Sys2Proof.Machine
end

