-- ==== Sys2Proof/WellFormed.lean ====
section
/-! DEFINITION. Well-formed commands: the sizes the spec gives the packets, records, keys and descriptors that a command brings. -/
namespace Sys2Proof

/-- An ENQ carries its entry of 80 bytes; the other queue operations carry nothing (R258). -/
def QdescIn.wf (n : Nat) (d : QdescIn) : Bool := decide (d.words.length = n)
/-- A window access of R15 transfers 1 to 256 bytes. -/
def WinOp.wf : WinOp → Bool
  | .rd n => decide (1 ≤ n ∧ n ≤ 256)
  | .wr d => decide (1 ≤ d.length ∧ d.length ≤ 256)
/-- A write of shared memory brings 1 to 256 bytes (R258). -/
def dataWf (d : List Byte) : Bool := decide (1 ≤ d.length ∧ d.length ≤ 256)
/-- A 32-byte nonce of the Security Protocol (PRESUMED, log entry 7). -/
def nonceWf (l : List Byte) : Bool := decide (l.length = 32)
def SpdmReq.wf : SpdmReq → Bool
  | .challenge _ n => nonceWf n
  | .measurements _ _ _ n => nonceWf n
  | _ => true

/-- The size checks of a command; every other operand is bounded by its type. -/
def Instr.wf : Instr → Bool
  | .memoryWindowAccess _ _ op | .coreSramWindowAccess _ _ _ op | .segmentWindowAccess _ _ _ _ op => op.wf
  | .qdescEnq _ _ d => d.wf 20
  | .qdescDoorbell _ _ d | .qdescHold _ _ d | .qdescRelease _ _ d => d.wf 0
  | .sliceWrReq _ d _ => dataWf d
  | .jlkRawSend _ _ d => dataWf d
  | .lcfReceive _ l => l.all fun c => decide (c.length = 9)
  | .fittingTick _ tx rx => decide (tx.length = 9 ∧ rx.length = 9)
  | .bulkDescStart _ _ w => decide (w.length = 16)
  | .claim _ _ l => decide (l.length = 32)
  | .setPatternKey _ _ l => decide (l.length = 32)
  | .setSignKey _ _ l => decide (l.length = 96)
  | .getReport _ _ l => nonceWf l
  | .spdmRequest r => r.wf
  | .logPost _ _ l => decide (l.length ≤ 10)
  | _ => true

end Sys2Proof
end

