-- ==== Sys2Proof/Tests/Slice0.lean ====
section
/-! SUPPORT. Tests: small states that meet the hypotheses of the statements, the witnesses, examples of spec/, vectors. -/
open Sys2Proof Sys2Proof.Machine
namespace Sys2Proof.Tests
set_option Elab.async false

/-- The device in Ready. -/
def ready : State := State.reset.setDevState 2
/-- Instance 0 is Active and owns cluster 0 through block 0. -/
def own : State := ((ready.fs (DNET_BLK 0) DNET_BLK.INST 0).fs (DNET_BLK 0) DNET_BLK.IVAL 1).fs (SEC_INST 0) SEC_INST.STATE 1
/-- Core 0 with 256 compartments, halted. -/
def coreHalted : State := ((own.wr (CORE_NCOMP 0) 256).wr (CORE_MIR_BASE 0) 0x1000)
/-- Core 0 running at step 5. -/
def coreRun : State :=
  ((coreHalted.fs (CORE_STATE 0) CORE_STATE.STATE 0).fs (CORE_STATE 0) CORE_STATE.HALTED 0).fs (CORE_STEP 0) CORE_STEP.CUR 5
    |>.fs (CORE_CTRL 0) CORE_CTRL.IDLE_DLY 16
/-- Core 0 halted with a program entry that leaves the program store. -/
def coreBad : State := coreHalted.wrSram 0 0 1
/-- A checked 64-bit word over `k` bits. -/
def sealed (k v : Nat) : Nat := setBits v k (chkR k + 1) (secEnc k v)
/-- An axon entry: base 0x100, one synapse, format 0. -/
def axnGood : Nat := sealed 41 (0x100 + 1 * 2 ^ 20)
/-- A spike to core 0, axon 0, delay 1 step, sent in step 5. -/
def evtGood : EvtIn := { ev := BitVec.ofNat 64 (secEnc 36 0 % 64 * 2 ^ 22), hpar := (secEnc 36 0 / 64) % 2 == 1, sstep5 := 5, scl := 0, rem := false, rank := 0, inst := 0 }
/-- Core 0 running with one good axon entry at segment word 0x40. -/
def evtState : State := (((coreRun.wr (CORE_AXT_LEN 0) 1).wr (CORE_AXT_BASE 0) 0x40)).wrSegD 0 0x40 axnGood
/-- A fan-out directory entry with one fan-out entry at word 0x80, and that entry: core 16, axon 7. -/
def emitDir : Nat := sealed 32 (0x80 + 1 * 2 ^ 20)
def emitFan : Nat := sealed 46 (0x10 + 7 * 2 ^ 12)
/-- Core 0 with one spike of compartment 0 staged. -/
def emitState : State :=
  (((((coreRun.fs (DNET_BLK 1) DNET_BLK.INST 0).fs (DNET_BLK 1) DNET_BLK.IVAL 1).wr (CORE_FOD_BASE 0) 0x60).wrSegD 0 0x60 emitDir).wrSegD 0 0x80 emitFan).setCore 0 { coreRun.core 0 with phase := .updated, stgN := 1 }
/-- A good dense descriptor: one product of four signed bytes from scratch to scratch. -/
def macDesc : List Nat := [4369, 2049, 4, 49152, 1024, 49168, 1024, 49184, 1024, 0, 0, 0, 0, 0, 0, 3663986688]
/-- The queue entry that carries it. -/
def macEnt : QTaken := ⟨0, 0, 1, 0, 0, [0, 0, 0, 0] ++ macDesc⟩
/-- Core 0 with queue 0 dense and that entry presented to the array; and with it as the job. -/
def macState : State := (coreRun.fs (Q_CFG 0 0) Q_CFG.KIND 1).setCore 0 { coreRun.core 0 with q := { taken := [macEnt] } }
def macBusy : State := macHold 0 (some macDesc) macState
/-- Instance 0 at the root runs in Lockstep with core 0 its one participant; step 5 is open and done. -/
def seqRun : State :=
  (((coreRun.fs (STEP_SGRP 0) STEP_SGRP.ROOT 1).fs (STEP_STATUS 0) STEP_STATUS.STATE 1).fs (STEP_CUR 0) STEP_CUR.STEP 5).setInst 0
    { parts := [0], opened := some 5, doneCl := [(0, 0, 0)] }
/-- The same with a token under way. -/
def seqToken : State := seqRun.setInst 0 { parts := [0], opened := some 6, tokens := [⟨some 5, some 6, 100⟩] }
/-- Instance 0 in Timed mode at step 5 with the next tick due. -/
def timedRun : State :=
  ((seqRun.fs (STEP_CTRL 0) STEP_CTRL.MODE 1).fs (STEP_CTRL 0) STEP_CTRL.LAGMAX 1).wr64 TIME64 1000000000 |>.setInst 0
    { parts := [0], opened := some 5, committed := some 5, nextTick := 6 }
/-- A capture pending in mode `m`: number 1, step or time 5. -/
def measSt (m : Nat) : State :=
  let s := ready.fs SYNC_MEAS_STAT SYNC_MEAS_STAT.PEND 1
  { s with dev := { s.dev with meas := some (m, 1, 5) } }
/-- A capture made, which every unit but sync node 15 has acknowledged. -/
def measAck : State :=
  let s := (measSt 0).fs SYNC_MEAS_STAT SYNC_MEAS_STAT.BUSY 1
  { s with dev := { s.dev with measAcks := (measUnits s).filter (· != .node 15) } }
/-- Core 0 with queue 0 of kind `k`, four slots at 0x10000. -/
def qSt (k : Nat) : State := (((coreRun.fs (Q_CFG 0 0) Q_CFG.KIND k).fs (Q_CFG 0 0) Q_CFG.DEPTH 4).wr (Q_BASE 0 0) 0x10000).fs (DNET_BLK 0) DNET_BLK.VALID 1
/-- A packet for it with operation `op` and an entry of kind `k`. -/
def qPk (op cnt k : Nat) : QdescIn := ⟨BitVec.ofNat 2 op, 0, BitVec.ofNat 10 cnt, false, BitVec.ofNat 32 k :: List.replicate 19 7, 0, 0, 5, 0x41, none⟩
/-- The queue with one sealed entry of body `l` put in. -/
def qWith (k croute : Nat) (l : List Nat) : State := qPut 0 0 0 0 ([k + croute * 2 ^ 16, 0, 0x20000, 0] ++ l) (qSt k)
/-- A move of four bytes from scratch 0x18000 to scratch 0x18010. -/
def moveDesc : List Nat := [1, 98304, 98320, 4, 0, 0, 0, 0, 0, 0, 0, 0, 0, 0, 0, 461963264]
/-- A gathering context on queue 0 with contributors 0 to 3. -/
def gathSt : State :=
  (((((qSt 3).wr (Q_GCFG 0 0) (0x40 + 4 * 2 ^ 8 + 2 ^ 14 + 3 * 2 ^ 16)).wr (Q_GACC 0 0) (0x14000 + 2 ^ 18)).wr (Q_GTMO 0 0) 9).fs (JLK_OWNRANK 0) JLK_OWNRANK.VALID 1)
/-- The same with a contribution of 7 by contributor 1. -/
def gathSome : State := gAdd 0 0 0 1 [7] gathSt
/-- Slice `x` belongs to instance 0 of `own`. -/
def sliceSt (x : Nat) : State := (own.fs (SHM_OWN x) SHM_OWN.VALID 1).fs SHM_TEST SHM_TEST.EN 1
/-- A request of instance 0 at slice offset `a`. -/
def slReq (a : Nat) : SlReq := ⟨0x41, some 0, BitVec.ofNat 48 (shmBase + a), 0, 9⟩
/-- Ports 0 and 1 Up with eight lanes, fabric address 5, instance 0 of rank 1; rank 2 is instance 0 at address 7, reached by port 0. -/
def jlkSt : State :=
  let up := fun (p : Nat) (s : State) => ((((s.fs (JLK_STATUS p) JLK_STATUS.STATE 4).fs (JLK_STATUS p) JLK_STATUS.WIDTH 8).wr (JLK_PEER p) (7 + p + 2 ^ 31)).wr (JLK_LANEMAP p) 0x76543210
    |>.setJp p { granted := [(0, 100), (2, 100), (3, 100)] })
  let s := (((up 1 (up 0 own)).wr JLK_FADDR 5).fs (JLK_OWNRANK 0) JLK_OWNRANK.VALID 1).fs (JLK_OWNRANK 0) JLK_OWNRANK.RANK 1
  wrRoute 8 (1 + 0xFFF0 + 2 ^ 16) (wrRoute 7 (0xFFF0 + 2 ^ 16) (wrRank 0 2 (7 + 2 ^ 20) s))
/-- Port 0 in link state `v`. -/
def jlkIn (v : Nat) : State := jlkSt.fs (JLK_STATUS 0) JLK_STATUS.STATE v
/-- A packet for this device in a receive buffer of port 0: channel, kind, argument word, body. -/
def jlkRx (vc jk w1 : Nat) (b : List Byte) (s : State) : State :=
  let w0 := 5 + 7 * 2 ^ 16 + vc * 2 ^ 32 + jk * 2 ^ 34 + (b.length - 1) % 256 * 2 ^ 46
  let y := (w0, jpSeal w0 w1, b)
  if vc = 0 then s.setJp 0 { s.jp 0 with rxMgt := [y] } else s.setJp 0 { s.jp 0 with rxReq := [y] }
def jlkW0 (vc jk n : Nat) : Nat := 5 + 7 * 2 ^ 16 + vc * 2 ^ 32 + jk * 2 ^ 34 + (n - 1) % 256 * 2 ^ 46
/-- A request of instance 0 to rank 2 at offset `a`. -/
def jlkReq (a : Nat) : SlReq := ⟨0x41, some 0, BitVec.ofNat 48 (2 * 2 ^ 36 + a), 0, 9⟩
/-- An event record for this device from rank 2 and its EVT64. -/
def jlkRec : Nat := hdrSeal (5 + 2 * 2 ^ 16 + 2 ^ 56)
/-- An empty group and its LCF with acknowledgement `ack` and next sequence number `nx`. -/
def jlkGroup : List (Nat × List Byte) := List.replicate 19 (0, List.replicate 64 0)
def jlkLcf (nx ack : Nat) : List Byte :=
  let l := leBytes 4 (nx + ack * 2 ^ 12) ++ List.replicate 8 0 ++ leBytes 4 (7 + 2 ^ 31) ++ leBytes 4 0 ++ leBytes 4 8 ++ List.replicate 32 0
  let l := l ++ leBytes 4 (jlkGroup.foldl slotCrc 0xFFFFFFFF ^^^ 0xFFFFFFFF)
  l ++ leBytes 4 (crc32 l)
/-- Instance 0 runs a step; ring 0 of function `f` has type `ty` and 64 entries. -/
def hostSt (f ty : Nat) : State :=
  let s := (own.fs (STEP_STATUS 0) STEP_STATUS.STATE 1).fs (DNET_BLK 0) DNET_BLK.VALID 1
  ((s.fs (RING_CFG f 0) RING_CFG.TYPE ty).fs (RING_CFG f 0) RING_CFG.EN 1).fs (RING_MOD f 0) RING_MOD.CNT 0
/-- Event port 0 up and owned by instance 0. -/
def ethUp : State :=
  (((hostSt 1 1).fs (ETH_OWN 0) ETH_OWN.VALID 1).fs (ETH_CTRL 0) ETH_CTRL.EN 1).fs (ETH_STATUS 0) ETH_STATUS.UP 1
/-- A broadcast frame of 64 bytes without its FCS. -/
def ethFrame : List Byte := List.replicate 6 0xFF ++ List.replicate 54 1
/-- An encoder program that emits one event of axon 0, then ends. -/
def encSt : State :=
  (((ethUp.fs (ETH_ENC_CTRL 0) ETH_ENC_CTRL.EN 1).fs (ETH_MATCH 0 0) ETH_MATCH.EN 1).wr (ETH_PROG 0 0) (0x18 * 2 ^ 27 + 0x1C * 2 ^ 20 + 0x1C * 2 ^ 15 + 0x1C * 2 ^ 10)).wr (ETH_PROG 0 1) (0x1F * 2 ^ 27)
    |>.setEth 0 { rx := [(ethFrame, 5)] }
/-- A descriptor that fills four bytes of module memory at 0x100. -/
def fillDesc : List Nat := [2, 0, 0, 0, 256, 0, 4, 67305985, 0, 0, 0, 0, 0, 0, 0, 752812032]
/-- Step 5 of instance 0 closed and committed, with one event staged at the host port bound to ring 0 of function 1. -/
def egrSt : State :=
  ((hostSt 1 2).setStage 0 [⟨0, 3, 4, false, 9, 5, 2⟩]).setInst 0 { closeT := [(5, 100)], committed := some 5 } |>.wr64 TIME64 1000000000
/-- The ring state with instance 0's window of module memory and that descriptor in an engine. -/
def bulkSt : State :=
  let s := (hostSt 1 3).fs (MEMC_WIN 0) MEMC_WIN.LEN 1 |>.fs (MEMC_WIN 0) MEMC_WIN.EN 1
  { s with host := { s.host with jobs := [⟨1, 0, 0, 0, fillDesc⟩] } }
/-- A full image of PID 7, unsigned: CAPREQ with 5 empty entries, STRUCT that names no block, and the trailer, with their checks. -/
def patPlain : List Byte := leBytes 256
  0x57e99babd4e25fd070a173f3440d525aac4097fdcb56e33640b4ad2de442731ee89916c3286e94ac35e9d4e3850d47b7aca1b9c50000000000000000000000000000003000000000000000000000007fffffffffffffffff0d4d217500000000000000000000000000000008000000000000000000000002000000000000000000000000000000000000000000000000000000000000000000000000000000009d021e5500000000000000000000000000000028000000000000000000000001eee969b8000000000000000000000000000000000000000000000000000000000000000000000000000000000000000700000003000001000000000154504d4c
/-- The same with one CAPREQ entry, signed by the secret exponent 1. -/
def patSigned : List Byte := leBytes 320
  0x8cbed15bad43f4a1f91ca25e27a187c9b859e57b39a91603a06f89f8bea03cca42597d2e60e0528e1958bc07693a3743b70a7672385e543a6c2955bf5df20255382a5482e041f759989ba78b623b1d6e74ad20f31ec7b18e37058bbe22ca87aa48dd20b6dffe8b54089bfde77bbc9ecc5f5dc8eddab4827007d4e16c5c651f5cceab5c3b4119a1ffe15231494670af988b76a3460000000000000000000000000000009000000000000000000000007fffffffffffffffff0d4d21750000000000000000000000000000000800000000000000000000000200000000000000002dcb5afe000000000000000000000000000000080000000000000000000000014194b134000000000000000000000000000000000000000000000000000000000000000000000000000000000000000700000003000001400004000154504d4c
/-- Signing key slot 0 holds the public key of the secret exponent 1. -/
def keySt (s : State) : State :=
  let k := (leBytes 48 ecGx).reverse ++ (leBytes 48 ecGy).reverse
  ((List.range 24).foldl (fun s w => s.wr (SEC_KEY 0 w) (leNat ((k.drop (4 * w)).take 4))) s).wr (SEC_KEY_VALID 0) 1
/-- Module memory that holds `b` from address 0 under the device's key; the image of 256 bytes, or the signed one of 320, there for the
physical function. -/
def memSt (b : List Byte) : State :=
  { ready with memc := { ready.memc with cells := b.zipIdx.map fun x => (x.2, (ready.memc.devKey, x.1.toNat)) } }
def patSt : State := (memSt patPlain).wr (PAT_LEN 1) 256
def patSgn : State := keySt ((memSt patSigned).wr (PAT_LEN 1) 320)
/-- A request of the physical function for instance 2 and slot 1. -/
def patRq (op len : Nat) : PatReq := ⟨some 1, op, 2, 1, false, true, 0, len⟩
/-- The loader works on a request of the management processor. -/
def patBusySt : State := { ready with pat := { cur := some ⟨some 17, 1, 0, 0, false, true, 0, 0⟩ } }
/-- The signed image waits for the thimble, to be stored in slot 1. -/
def patSgnWait : State := { patSgn with pat := { cur := some (patRq 2 320), image := patSigned } }
/-- Partition 0 under reset with three reports in and its last half-row fused off. -/
def rstLast : State :=
  let s := ready.fs MGT_RST_STAT MGT_RST_STAT.BUSY 1
  let s := (partRow 0 3).foldl (fun s c => s.setCluster c { s.cluster c with fused := true }) s
  { s with mgmt := { s.mgmt with rstRep := [(0, 0), (0, 1), (0, 2)] } }
/-- Standby with every wake source enabled and one good feed. -/
def stdby : State := ((ready.setDevState dsStandby).fs PWR_WAKE_EN PWR_WAKE_EN.SRC 0x3F).wr PWR_FEED_STAT 1
/-- Bring-up at stage 11 with every Jarisk port dark for its time. -/
def gateSt : State :=
  let s := (ready.setDevState dsBringup).fs MGT_BOOT_STAT MGT_BOOT_STAT.STAGE 11
  (List.range 12).foldl (fun s p => (s.fs (JLK_STATUS p) JLK_STATUS.STATE jsDark).setJp p { s.jp p with darkDone := true }) s
/-- Every cluster may doze and nothing runs. -/
def dozeSt : State := (ready.fs (CLA_PWR_CTRL 0) CLA_PWR_CTRL.DOZE_EN 1).fs (CLA_PWR_CTRL 3) CLA_PWR_CTRL.DOZE_EN 1
/-- Cluster 9 on its oscillator with its PLL locked. -/
def oscSt : State := { (ready.setOsc 9 true) with power := { ready.power with pll := [9] } }
/-- Cluster 5 off in power state `a`; and on with a request `a` that drains it. -/
def offSt (a : Nat) : State := ready.setClPwr 5 a
def drainSt (a : Nat) : State := seam [5] true { ready with power := { ready.power with reqs := [⟨5, a, [], []⟩] } }
/-- Sensors 0 and 3 at 110 °C, throttling enabled from 95 °C. -/
def hotSt : State :=
  ((ready.wr (MGT_SENS 0) 880).wr (MGT_SENS 3) 880).wr MGT_THERM_CTRL 0 |>.fs MGT_THERM_CTRL MGT_THERM_CTRL.EN 1 |>.fs MGT_THERM_CTRL MGT_THERM_CTRL.TPT 95
/-- Cluster 0 protected with rewinds enabled and slot 16 its spare; core 2 has stopped with a fault. -/
def foSt : State :=
  (((own.wr (CORE_NCOMP 2) 256).fs (CLA_FO_CTRL 0) CLA_FO_CTRL.EN 1).fs (CORE_STATE 2) CORE_STATE.FAULT 1).fs (CORE_STATE 2) CORE_STATE.FCAUSE 3
/-- Core 0 the one participant, with an entry pending in its open step and no spare. -/
def hangSt : State :=
  let s := ((coreRun.fs (CLA_FO_CTRL 0) CLA_FO_CTRL.EN 1).fs (CLA_FO_STAT 0) CLA_FO_STAT.SPSLOT 0).setInst 0 { parts := [0], opened := some 5 }
  let s := (ringPut 0 5 false 0 0 s).getD s
  s.setCore 0 { s.core 0 with phase := .walked }
/-- Segment 4 of cluster 0 is failing. -/
def migSt : State := own.wr (CLA_SEG_FAILING 0) 0x10
/-- Instance 3 Active with a wrapped generation 8 and a bulk descriptor of generation 9 in an engine. -/
def fenceSt : State :=
  let s := (((ready.fs (SEC_INST 3) SEC_INST.STATE 1).fs (SEC_INST 3) SEC_INST.WRAPPED 1).fs (SEC_INST 3) SEC_INST.GEN 8)
  { s with host := { s.host with jobs := [⟨1, 0, 3, 9, fillDesc⟩] } }
/-- Instance 3 Fencing for operation `op` of requester copy 2; instance 0 Clearing for it. -/
def fencing (op : Nat) : State := setInstCmd 3 (some ⟨some 2, op, false, op == 4, false, none⟩) (ready.fs (SEC_INST 3) SEC_INST.STATE 3)
def clearing (op : Nat) : State := setInstCmd 0 (some ⟨some 2, op, false, op == 4, false, none⟩) (own.fs (SEC_INST 0) SEC_INST.STATE 4)
/-- Secured session 4, which claims instance 0. -/
def sessSt : State := { own with sec := { own.sec with sessions := [4] } }
def heldSt : State := { sessSt with sec := { sessSt.sec with claims := [(0, some (4, [1]))] } }
/-- Orderly removal in phase `n`. -/
def remSt (n : Nat) : State := setPhase n (ready.setDevState dsDraining)
/-- A firmware update of component `c` in state `st`. -/
def fwSt (st c : Nat) : State :=
  let f : FwImg := ⟨2, 1, [0, 0, 0, 0], []⟩
  let s := (setPend c (some f) { ready with mgmt := { ready.mgmt with fwu := some (c, f) } }).fs MGT_FWU_STAT MGT_FWU_STAT.STATE st
  (s.fs MGT_FWU_STAT MGT_FWU_STAT.COMP c).fs MGT_FWU_STAT MGT_FWU_STAT.HEALTHY (b2n (st == 3))

/-! States that meet the hypotheses of each clause of each statement -/

/-- The zero codeword carries no LCF. -/
theorem zero_message_bad : groupOk ((jlkSt.setJp 0 { rxN := 8, rxSync := true }).jp 0).rxSlots
    ((cwSlots (descramble ((jlkSt.setJp 0 { rxN := 8, rxSync := true }).jp 0).rxScr (symsMsg (List.replicate 544 0))).1).headD (0, [])) = false := by
  have h : ((jlkSt.setJp 0 { rxN := 8, rxSync := true }).jp 0).rxScr = 0 := by decide +kernel
  rw [h, symsMsg_zeros, descramble_zero]
  decide +kernel

theorem witness_EveryStepKeepsStoredInvariant :
    (∃ (s t : State), s.Inv ∧ step s = .next t) := by
  exact ⟨State.reset, _, ⟨by decide, by decide⟩, rfl⟩
theorem witness_EveryCommandLeavesTheQueue :
    (∃ (c : Instr) (s t : State), exec c s = .next t) := by
  exact ⟨.timeRefLoss, State.reset, _, rfl⟩
theorem witness_EpochsAreLENStepsLong :
    (∃ (s : State) (p : Fin 2048), 0 < s.fv (LRN_EPOCH p.val) LRN_EPOCH.LEN ∧ s.fb (LRN_CTRL p.val) LRN_CTRL.EN = true ∧ s.fb (LRN_STAT p.val) LRN_STAT.FAULT = false) := by
  exact ⟨ready.fs (LRN_CTRL 0) LRN_CTRL.EN 1, 0, by decide⟩
theorem witness_EmptyQueuePassesOneTimeCycle :
    (∃ (s : State), s.pending = []) ∧
    (∃ (s : State), (s.pending = []) ∧ (s.clusters = [] ∧ s.cores = [] ∧ s.jports = []) ∧ (s.net.outs = [] ∧ s.net.edge = [] ∧ s.pat.cur = none) ∧ (s.dev.slewLeft = 0 ∧ (∀ i : Fin 16, stepState i.val s = stStopped))) := by
  refine ⟨?_, ?_⟩
  · exact ⟨ready, by decide +kernel⟩
  · exact ⟨ready.wr TIME_RATE 5, by decide +kernel⟩
theorem witness_PlainRegisterAccessesComplete :
    (∃ (s : State) (q : Req), s.admits q 0 = true) ∧
    (∃ (s : State) (q : Req) (a : Word), (s.admits q 0 = true) ∧ (a.toNat % 4 = 0) ∧ (locate a.toNat = none)) ∧
    (∃ (s : State) (q : Req) (a : Word) (n : Fin 3), (s.admits q 0 = true) ∧ (0x48 ≤ a.toNat ∧ a.toNat < 0x4C) ∧ (a.toNat % 2 ^ n.val = 0)) ∧
    (∃ (s : State) (q : Req), s.admits q 0 = true) ∧
    (∃ (s : State) (q : Req), s.admits q 0 = true) := by
  refine ⟨?_, ?_, ?_, ?_, ?_⟩
  · exact ⟨ready, .vf 3, by decide +kernel⟩
  · exact ⟨ready, .pf, 0x80000, by decide +kernel⟩
  · exact ⟨ready.wr (GLB_SCRATCH 2) 0x12345678, .mp, 0x4A, 1, by decide +kernel⟩
  · exact ⟨ready, .fm, by decide +kernel⟩
  · exact ⟨ready.wr (GLB_CFG_ERR 1) 0x403, .pf, by decide +kernel⟩
theorem witness_NarrowAndUnalignedAccessesAreRefused :
    (∃ (s : State) (q : Req) (a : Word) (n : Fin 3), (s.admits q 0 = true) ∧ (0x48 ≤ a.toNat ∧ a.toNat + n.val + 1 ≤ 0x4C)) ∧
    (∃ (s : State) (q : Req) (a : Word) (n : Fin 8), (s.admits q 0 = true) ∧ (0x48 ≤ a.toNat) ∧ (n.val = 2 ∨ n.val = 4 ∨ n.val = 5 ∨ n.val = 6 ∨ a.toNat % (n.val + 1) ≠ 0)) := by
  refine ⟨?_, ?_⟩
  · exact ⟨ready, .pf, 0x49, 2, by decide +kernel⟩
  · exact ⟨ready, .vf 0, 0x4A, 3, by decide +kernel⟩
theorem witness_RegisterPairsFollowTheirHoldRules :
    (∃ (s : State) (q : Req), (s.admits q 6 = true) ∧ (isVf q = false)) ∧
    (∃ (s : State) (q : Req), (s.admits q 6 = true) ∧ (isVf q = false)) ∧
    (∃ (s : State) (q : Req), (s.admits q 6 = true) ∧ (isVf q = false)) ∧
    (∃ (s : State) (q : Req), (s.admits q 6 = true) ∧ (isVf q = false)) ∧
    (∃ (s : State) (q : Req), (s.admits q 6 = true) ∧ (isVf q = false) ∧ ((heldWord s.dev.low (reqIx q) SYNC_MEAS_TIME).getD 0 < 2 ^ 32)) := by
  refine ⟨?_, ?_, ?_, ?_, ?_⟩
  · exact ⟨ready, .pf, by decide +kernel⟩
  · exact ⟨ready.wr64 SYNC_MEAS_TIME 0x500000006, .mp, by decide +kernel⟩
  · exact ⟨ready.hold .pf SYNC_MEAS_TIME (some 9) none, .pf, by decide +kernel⟩
  · exact ⟨ready, .fm, by decide +kernel⟩
  · exact ⟨ready.hold .pf SYNC_MEAS_TIME none (some 5), .pf, by decide +kernel⟩
theorem witness_InstanceBoundaryAndMulticastAccesses :
    (∃ (s : State) (v : InstNo) (j : InstNo), (s.admits (.vf v) 6 = true) ∧ (v ≠ j)) ∧
    (∃ (s : State) (v : Word), (s.admits .mp 0 = true) ∧ ((∀ c : Fin 64, s.clGone c.val = false ∧ s.clInst c.val = none)) ∧ (v.toNat % 16 ≠ 0)) := by
  refine ⟨?_, ?_⟩
  · exact ⟨ready, 0, 1, by decide +kernel⟩
  · exact ⟨ready, 0x15, by decide +kernel⟩
theorem witness_MemoryWindowsReadAndWriteTheirBytes :
    (∃ (s : State) (q : Req) (a : BitVec 48) (d : List Byte), s.memOpen q a.toNat (.wr d) = true) ∧
    (∃ (s : State) (q : Req) (a : BitVec 48) (n : Nat), s.memOpen q a.toNat (.rd n) = true) ∧
    (∃ (s : State) (q : Req) (p : Fin 2048) (o : BitVec 18) (d : List Byte), (s.sramOpen q p.val o.toNat (.wr d) = true) ∧ (s.sramSyn = [])) ∧
    (∃ (s : State) (q : Req) (p : Fin 2048) (o : BitVec 18) (n : Nat), (s.sramOpen q p.val o.toNat (.rd n) = true) ∧ (s.sramSyn = [])) ∧
    (∃ (s : State) (q : Req) (c : Cl) (g : Fin 32) (o : BitVec 21) (d : List Byte), (s.segOpen q c.val g.val o.toNat (.wr d) = true) ∧ ((s.cluster c.val).migrate = none)) ∧
    (∃ (s : State) (q : Req) (c : Cl) (g : Fin 32) (o : BitVec 21) (n : Nat), s.segOpen q c.val g.val o.toNat (.rd n) = true) := by
  refine ⟨?_, ?_, ?_, ?_, ?_, ?_⟩
  · exact ⟨ready, .pf, 0x1FFFFFFF40, [1, 2, 3], by decide +kernel⟩
  · exact ⟨ready, .mp, 0x100, 256, by decide +kernel⟩
  · exact ⟨ready, .pf, 5, 0x27FFC, [1, 2, 3, 4], by decide +kernel⟩
  · exact ⟨ready, .mp, 0, 0x10, 5, by decide +kernel⟩
  · exact ⟨ready, .pf, 63, 16, 0x17FF00, [9, 8], by decide +kernel⟩
  · exact ⟨ready, .fm, 1, 0, 0, 1, by decide +kernel⟩
theorem witness_SegmentSwitchAndSupervisorFailure :
    (∃ (s : State) (q : Req) (c : Cl) (k : Sl) (v : Word), (s.clusterOpen q c.val = true) ∧ (coreState (pcid c k) s = stOff ∨ halted (pcid c k) s = true) ∧ (s.slotGone (pcid c k) = false) ∧ (bit v.toNat 31 = true ∧ bits v.toNat 0 5 ≤ 16) ∧ (bit (s.fv (CLA_SEGOK c.val) CLA_SEGOK.OK) (bits v.toNat 0 5) = true) ∧ (slotOf c.val (bits v.toNat 0 5) s = none ∨ slotOf c.val (bits v.toNat 0 5) s = some k.val) ∧ ((s.cluster c.val).swaps = [])) ∧
    (∃ (s : State) (c : Cl) (k : Sl) (o : Option Nat) (g : Nat) (r : List (Nat × Option Nat × Option Nat)), ((s.cluster c.val).swaps = (k.val, o, some g) :: r) ∧ (g ≤ 16)) ∧
    (∃ (s : State) (b : Fin 8), s.net.bandsDown.contains b.val = false) := by
  refine ⟨?_, ?_, ?_⟩
  · exact ⟨ready, .mp, 2, 16, 0x80000010, by decide +kernel⟩
  · exact ⟨ready.setCluster 3 { swaps := [(1, some 1, some 16)] }, 3, 1, some 1, 16, [], by decide +kernel⟩
  · exact ⟨ready, 7, by decide +kernel⟩
theorem witness_EventsAreFiledOrCountedAtTheDataPort :
    (∃ (s : State) (c : Cl) (k : Sl) (e : EvtIn) (v : Nat), (s.faulted (pcid c k) = false ∧ (s.core (pcid c k)).closing = []) ∧ ((secDec 36 (bits e.ev.toNat 28 36) (bits e.ev.toNat 22 6 + 64 * b2n e.hpar)).1 = some (bits e.ev.toNat 28 36)) ∧ (bits e.ev.toNat 60 4 ≤ 1 ∧ bits e.ev.toNat 32 16 < axtLen (pcid c k) s) ∧ (rdAxn (pcid c k) (bits e.ev.toNat 32 16) s = (some v, s) ∧ bits v 36 4 ≤ 5 ∧ bits v 20 16 ≠ 0) ∧ (1 ≤ evtDelay (pcid c k) e s ∧ evtDelay (pcid c k) e s ≤ 16) ∧ ((ringPut (pcid c k) ((cur (pcid c k) s + evtDelay (pcid c k) e s) % 16) false 0 0 s).isSome = true)) ∧
    (∃ (s : State) (c : Cl) (k : Sl) (e : EvtIn) (u : State), (s.clGone c.val = false ∧ s.fb (CLA_SLOTTAB c.val (evPos e.ev.toNat)) CLA_SLOTTAB.VALID = true ∧ s.fv (CLA_SLOTTAB c.val (evPos e.ev.toNat)) CLA_SLOTTAB.SLOT = k.val) ∧ (coreState (pcid c k) s = stRun ∧ portOpen (pcid c k) s = true) ∧ (s.clInst c.val = some e.inst.toNat ∧ s.dev.drainCl.contains c.val = false ∧ resetting e.inst.toNat s = false) ∧ (s.dlv c.val (evPos e.ev.toNat) = [] ∧ (s.cluster c.val).spill = []) ∧ (coreEvent (pcid c k) e (s.setDlv c.val (evPos e.ev.toNat) [e]) = some u) ∧ ((u.cluster c.val).spill = [] ∧ (u.cluster c.val).fences = [] ∧ u.net.outs = [])) ∧
    (∃ (s : State) (c : Cl) (e : EvtIn), (s.clGone c.val = false) ∧ (s.fb (CLA_SLOTTAB c.val (evPos e.ev.toNat)) CLA_SLOTTAB.VALID = false)) ∧
    (∃ (s : State) (c : Cl) (k : Sl) (e : EvtIn), (s.clGone c.val = false ∧ s.fb (CLA_SLOTTAB c.val (evPos e.ev.toNat)) CLA_SLOTTAB.VALID = true ∧ s.fv (CLA_SLOTTAB c.val (evPos e.ev.toNat)) CLA_SLOTTAB.SLOT = k.val) ∧ (coreState (pcid c k) s ≠ stOff ∧ s.clInst c.val ≠ some e.inst.toNat)) ∧
    (∃ (s : State) (c : Cl) (k : Sl) (waited : Word) (l : Nat) (e : EvtIn) (u : State), (s.lcid (pcid c k) = some l ∧ s.dlv c.val (l % 16) = [e]) ∧ (s.fb (CLA_SLOTTAB c.val (l % 16)) CLA_SLOTTAB.VALID = true ∧ s.fv (CLA_SLOTTAB c.val (l % 16)) CLA_SLOTTAB.SLOT = k.val) ∧ (portOpen (pcid c k) s = true) ∧ (coreEvent (pcid c k) e (s.inc (CORE_PEND_FULL (pcid c k)) waited.toNat) = some u) ∧ ((u.cluster c.val).spill = [] ∧ (u.cluster c.val).fences = [] ∧ u.net.outs = [])) ∧
    (∃ (s : State) (c : Cl) (k : Sl) (slot : Fin 16), ((s.core (pcid c k)).closing.contains slot.val = true) ∧ (posQueue (pcid c k) s = [] ∧ (s.cluster c.val).spill = [] ∧ s.net.outs = [])) := by
  refine ⟨?_, ?_, ?_, ?_, ?_, ?_⟩
  · exact ⟨evtState, 0, 0, evtGood, axnGood, by decide +kernel⟩
  · exact ⟨evtState, 0, 0, evtGood, (coreEvent 0 evtGood (evtState.setDlv 0 0 [evtGood])).getD evtState, by decide +kernel⟩
  · exact ⟨ready.fs (CLA_SLOTTAB 1 0) CLA_SLOTTAB.VALID 0, 1, evtGood, by decide +kernel⟩
  · exact ⟨evtState, 0, 0, { evtGood with inst := 7 }, by decide +kernel⟩
  · exact ⟨evtState.setDlv 0 0 [evtGood], 0, 0, 40, 0, evtGood, (coreEvent 0 evtGood ((evtState.setDlv 0 0 [evtGood]).inc (CORE_PEND_FULL 0) 40)).getD evtState, by decide +kernel⟩
  · exact ⟨ready.setCore 3 { closing := [15, 2] }, 0, 3, 15, by decide +kernel⟩
theorem witness_CoreStepPhasesFollowInOrder :
    (∃ (s : State) (c : Cl) (k : Sl) (n : BitVec 48), ((s.core (pcid c k)).phase = .idle ∧ (s.core (pcid c k)).heldOpens = [n.toNat] ∧ s.sramSyn = []) ∧ (coreState (pcid c k) s = stRun ∧ openable (pcid c k) n.toNat s = true) ∧ ((ringSlot (pcid c k) (n.toNat % 16) s).n = 0)) ∧
    (∃ (s : State) (c : Cl) (k : Sl), ((s.core (pcid c k)).phase = .walked) ∧ (s.faulted (pcid c k) = false)) ∧
    (∃ (s : State) (c : Cl) (k : Sl) (d : Nat) (f : Nat) (i : Nat), (s.faulted (pcid c k) = false ∧ (s.cluster c.val).noInject = false ∧ s.sramSyn = []) ∧ (0 < (s.core (pcid c k)).stgN ∧ s.clInst c.val = some i) ∧ (s.segChk (pcid c k) (s.fv (CORE_FOD_BASE (pcid c k)) CORE_FOD_BASE.BASE + 2 * bits (stagedWord (pcid c k) s) 0 13) 32 32 false = (some d, s)) ∧ ((s.core (pcid c k)).emitIdx < bits d 20 12) ∧ (s.segChk (pcid c k) (bits d 0 20 + 2 * (s.core (pcid c k)).emitIdx) 46 46 false = (some f, s)) ∧ (bit f 44 = false ∧ s.ownsBlk i (bits f 0 12 / 16) = true ∧ s.fv (DNET_BLK (bits f 0 12 / 16)) DNET_BLK.CLNUM ≠ c.val) ∧ ((s.cluster c.val).inj = [] ∧ s.net.outs = [])) ∧
    (∃ (s : State) (c : Cl) (k : Sl), ((s.core (pcid c k)).phase = .updated ∧ (s.core (pcid c k)).stgN = 0) ∧ (s.faulted (pcid c k) = false)) ∧
    (∃ (s : State) (c : Cl) (k : Sl), ((s.core (pcid c k)).phase = .done ∧ (s.core (pcid c k)).closeFor = some (cur (pcid c k) s) ∧ s.faulted (pcid c k) = false) ∧ (closeDue (pcid c k) (cur (pcid c k) s) s = false) ∧ ((basteClose (pcid c k) (s.setCore (pcid c k) { s.core (pcid c k) with closeFor := none })).faulted (pcid c k) = false)) ∧
    (∃ (s : State) (c : Cl) (k : Sl), ((s.core (pcid c k)).phase = .closed ∧ s.faulted (pcid c k) = false) ∧ (lrnEn (pcid c k) s = false ∧ (s.cluster c.val).migrate = none) ∧ (s.clParts c.val = [] ∧ (commitMirror (pcid c k) (cur (pcid c k) s) s).faulted (pcid c k) = false) ∧ ((ringSlot (pcid c k) (cur (pcid c k) s % 16) s).later = 0)) ∧
    (∃ (s : State) (c : Cl) (k : Sl), (s.core (pcid c k)).phase = .closing ∧ s.faulted (pcid c k) = false) ∧
    (∃ (s : State) (c : Cl) (k : Sl), (coreState (pcid c k) s = stRun ∧ s.fb (CORE_CTRL (pcid c k)) CORE_CTRL.IDLE_DLY = true ∧ s.faulted (pcid c k) = false) ∧ ((s.core (pcid c k)).phase = .idle ∧ posQueue (pcid c k) s = [] ∧ (s.core (pcid c k)).mac.job = none ∧ (s.core (pcid c k)).q.inBuf = [] ∧ (s.core (pcid c k)).q.taken = [])) := by
  refine ⟨?_, ?_, ?_, ?_, ?_, ?_, ?_, ?_⟩
  · exact ⟨coreRun.setCore 0 { heldOpens := [7] }, 0, 0, 7, by decide +kernel⟩
  · exact ⟨coreRun.setCore 0 { phase := .walked }, 0, 0, by decide +kernel⟩
  · exact ⟨emitState, 0, 0, emitDir, emitFan, 0, by decide +kernel⟩
  · exact ⟨coreRun.setCore 0 { phase := .updated }, 0, 0, by decide +kernel⟩
  · exact ⟨coreRun.setCore 0 { phase := .done, closeFor := some 5 }, 0, 0, by decide +kernel⟩
  · exact ⟨coreRun.setCore 0 { phase := .closed }, 0, 0, by decide +kernel⟩
  · exact ⟨coreRun.setCore 0 { phase := .closing }, 0, 0, by decide +kernel⟩
  · exact ⟨coreRun, 0, 0, by decide +kernel⟩
theorem witness_CoreControlWritesComplete :
    (∃ (s : State) (q : Req) (c : Cl) (k : Sl), s.coreOpen q (pcid c k) true = true) ∧
    (∃ (s : State) (q : Req) (c : Cl) (k : Sl), (s.coreOpen q (pcid c k) true = true ∧ s.clPwr c.val ≠ 1) ∧ (coreState (pcid c k) s = stIdle ∧ halted (pcid c k) s = true ∧ s.faulted (pcid c k) = false ∧ lrnEn (pcid c k) s = false) ∧ ((releaseChecks (pcid c k) s).1 = true ∧ (releaseChecks (pcid c k) s).2.faulted (pcid c k) = false)) ∧
    (∃ (s : State) (q : Req) (c : Cl) (k : Sl), (s.coreOpen q (pcid c k) true = true ∧ s.clPwr c.val ≠ 1) ∧ (halted (pcid c k) s = false ∧ s.faulted (pcid c k) = false)) ∧
    (∃ (s : State) (q : Req) (c : Cl) (k : Sl), (s.coreOpen q (pcid c k) true = true ∧ s.clPwr c.val ≠ 1) ∧ (coreState (pcid c k) s = stIdle ∧ halted (pcid c k) s = true ∧ s.faulted (pcid c k) = false) ∧ ((releaseChecks (pcid c k) s).1 = false ∧ (releaseChecks (pcid c k) s).2.faulted (pcid c k) = false)) ∧
    (∃ (s : State) (q : Req) (c : Cl) (k : Sl) (v : Word), (s.coreOpen q (pcid c k) true = true) ∧ (bit v.toNat 0 = true)) ∧
    (∃ (s : State) (q : Req) (c : Cl) (k : Sl) (v : Word), (s.coreOpen q (pcid c k) true = true) ∧ (bit v.toNat 0 = true ∧ halted (pcid c k) s = true ∧ (s.core (pcid c k)).poolFmt = none)) ∧
    (∃ (s : State) (c : Cl) (k : Sl) (q : Req), (s.core (pcid c k)).poolFmt = some q) := by
  refine ⟨?_, ?_, ?_, ?_, ?_, ?_, ?_⟩
  · exact ⟨coreRun, .pf, 0, 0, by decide +kernel⟩
  · exact ⟨coreHalted, .pf, 0, 0, by decide +kernel⟩
  · exact ⟨coreRun, .mp, 0, 0, by decide +kernel⟩
  · exact ⟨coreBad, .pf, 0, 0, by decide +kernel⟩
  · exact ⟨coreRun, .pf, 0, 0, 1, by decide +kernel⟩
  · exact ⟨coreHalted, .vf 0, 0, 0, 1, by decide +kernel⟩
  · exact ⟨ready.setCore 0 { poolFmt := some .pf }, 0, 0, .pf, by decide +kernel⟩
theorem witness_MacDescriptorsAndStatisticsReductions :
    (∃ (s : State) (c : Cl) (k : Sl) (e : QTaken), (s.unitStill (pcid c k) = true ∧ engTaken (pcid c k) .dense s = some e) ∧ ((s.core (pcid c k)).mac.job = none ∧ s.fb (MAC_CTRL (pcid c k)) MAC_CTRL.HOLD = false) ∧ (macAdmit (pcid c k) (bits (dw e.words 0) 4 4) true false (e.words.drop 4) s = cOK)) ∧
    (∃ (s : State) (c : Cl) (k : Sl) (d : List Nat) (e : QTaken), (s.unitStill (pcid c k) = true ∧ (s.core (pcid c k)).mac.job = some d ∧ engTaken (pcid c k) .dense s = some e) ∧ (bit (dw e.words 0) 18 = false ∧ bits (dw e.words 0) 8 8 = s.gen (bits (dw e.words 0) 4 4))) ∧
    (∃ (s : State) (q : Req) (v : Word) (i : InstNo), (s.gateOpen q 6 = true) ∧ ((if isVf q then q = .vf i else bits v.toNat 4 4 = i.val)) ∧ (bits v.toNat 1 2 ≤ 1) ∧ (s.fb (SYNC_STAT_CTRL (statCopy i.val)) SYNC_STAT_CTRL.BUSY = false)) ∧
    (∃ (s : State) (i : InstNo) (b : Bool) (l : List Nat), ((s.inst i.val).stat = some ⟨b, false, none, l⟩) ∧ (b = false ∨ atBoundary i.val s = true)) ∧
    (∃ (s : State) (i : InstNo) (b : Bool) (c : Bool) (m : List (Nat × Nat × Nat × Nat × Nat)) (l : List Nat), ((s.inst i.val).stat = some ⟨b, c, some m, l⟩) ∧ (m.all (fun r => l.contains r.1) = true ∧ m.all (fun r => decide (r.2.1 < 2 ^ 32)) = true)) := by
  refine ⟨?_, ?_, ?_, ?_, ?_⟩
  · exact ⟨macState, 0, 0, macEnt, by decide +kernel⟩
  · exact ⟨macBusy, 0, 0, macEnt.words.drop 4, macEnt, by decide +kernel⟩
  · exact ⟨ready, .mp, 0x38, 3, by decide +kernel⟩
  · exact ⟨ready.setInst 2 { stat := some ⟨true, false, none, []⟩ }, 2, true, [], by decide +kernel⟩
  · exact ⟨ready.setInst 15 { stat := some ⟨true, false, some [(3, 7, 8, 9, 10), (4, 70, 1, 1, 1)], [4, 3]⟩ }, 15, true, false, [(3, 7, 8, 9, 10), (4, 70, 1, 1, 1)], [4, 3], by decide +kernel⟩
theorem witness_LockstepBarrierAndCommit :
    (∃ (s : State) (w0 : DWord) (w1 : DWord) (c : Cl) (i : InstNo) (n : Nat) (a : Nat), (syncRecv w0.toNat w1.toNat s = (some (1, i.val, n, a), s)) ∧ ((s.inst i.val).opened = some n ∧ (s.inst i.val).doneCl.any (fun y => y.1 == c.val) = false ∧ (s.inst i.val).final = false)) ∧
    (∃ (s : State) (i : InstNo), (barrierReady i.val s = true ∧ s.fb (STEP_SGRP i.val) STEP_SGRP.ROOT = true) ∧ ((s.inst i.val).reports = [] ∧ remDiff i.val s = 0) ∧ (stepState i.val s = stRunning ∧ stepCur i.val s + 1 ≤ s.fv (STEP_LIMIT i.val) STEP_LIMIT.LIMIT ∧ stepCur i.val s + 1 ≠ anyStep)) ∧
    (∃ (s : State) (i : InstNo), (barrierReady i.val s = true ∧ s.fb (STEP_SGRP i.val) STEP_SGRP.ROOT = false) ∧ ((s.inst i.val).reported ≠ some (stepCur i.val s))) ∧
    (∃ (s : State) (w0 : DWord) (w1 : DWord) (i : InstNo) (n : Nat) (e : Nat) (k : Token) (c : Nat) (o : Nat), (syncRecv w0.toNat w1.toNat s = (some (2, i.val, n, e), s)) ∧ ((s.inst i.val).tokens.find? (·.isFor n) = some k ∧ k.opn = some o) ∧ (partCl i.val s = [c])) ∧
    (∃ (s : State) (w0 : DWord) (w1 : DWord) (i : InstNo) (n : Nat) (e : Nat), (syncRecv w0.toNat w1.toNat s = (some (2, i.val, n, e), s)) ∧ (stepState i.val s = stRunning ∧ timed i.val s = false ∧ s.fb (STEP_SGRP i.val) STEP_SGRP.ROOT = false) ∧ ((s.inst i.val).final = false ∧ (s.inst i.val).reports = []) ∧ (n = stepCur i.val s + 1 ∧ n ≤ s.fv (STEP_LIMIT i.val) STEP_LIMIT.LIMIT ∧ n ≠ anyStep)) ∧
    (∃ (s : State) (c : Cl) (n : Nat) (e : Nat) (p : Nat) (r : List (Nat × Nat)), ((s.cluster c.val).opens = (n, e) :: r ∧ e ≤ s.now) ∧ (s.clParts c.val = [p]) ∧ (coreState p s ≠ stOff ∧ (s.core p).heldOpens = [] ∧ (s.core p).lastCommit = none ∧ (s.core p).phase = .idle)) ∧
    (∃ (s : State) (c : Cl) (n : Nat) (r : List Nat), (s.cluster c.val).closes = n :: r ∧ clDone c.val n s = true) ∧
    (∃ (s : State) (i : InstNo), ((s.inst i.val).opened.isSome = true ∧ (s.inst i.val).final = false ∧ timed i.val s = false) ∧ (s.fv (STEP_BAR_TMO i.val) STEP_BAR_TMO.US ≠ 0 ∧ (s.inst i.val).tmoStep ≠ (s.inst i.val).opened ∧ barrierMissing i.val s = true)) ∧
    (∃ (s : State) (i : InstNo) (c : Nat) (o : Nat), ((s.inst i.val).opened = some o ∧ (s.inst i.val).final = false ∧ (s.inst i.val).committed = none) ∧ (partCl i.val s = [c] ∧ (s.cluster c).committed = some o)) ∧
    (∃ (s : State) (i : InstNo) (c : Nat) (o : Nat), ((s.inst i.val).opened = some o ∧ (s.inst i.val).final = true ∧ (s.inst i.val).committed = none) ∧ (partCl i.val s = [c] ∧ (s.cluster c).committed = some o ∧ s.power.standbyPend = false)) ∧
    (∃ (s : State) (w0 : DWord) (w1 : DWord) (c : Cl) (i : InstNo) (n : Nat) (a : Nat) (x : StatSt), (syncRecv w0.toNat w1.toNat s = (some (0xA, i.val, n, a), s)) ∧ ((s.inst i.val).stat = some x) ∧ ((x.cap.getD []).any (fun r => r.1 == c.val) = true ∧ x.rsp.contains c.val = false)) := by
  refine ⟨?_, ?_, ?_, ?_, ?_, ?_, ?_, ?_, ?_, ?_, ?_⟩
  · exact ⟨ready.setInst 1 { opened := some 4 }, BitVec.ofNat 64 (syncWords 1 1 4 0x500000003).1, BitVec.ofNat 64 (syncWords 1 1 4 0x500000003).2, 63, 1, 4, 0x500000003, by decide +kernel⟩
  · exact ⟨seqRun, 0, by decide +kernel⟩
  · exact ⟨seqRun.fs (STEP_SGRP 0) STEP_SGRP.ROOT 0, 0, by decide +kernel⟩
  · exact ⟨seqToken, BitVec.ofNat 64 (syncWords 2 0 6 9).1, BitVec.ofNat 64 (syncWords 2 0 6 9).2, 0, 6, 9, ⟨some 5, some 6, 100⟩, 0, 6, by decide +kernel⟩
  · exact ⟨seqRun.fs (STEP_SGRP 0) STEP_SGRP.ROOT 0, BitVec.ofNat 64 (syncWords 2 0 6 9).1, BitVec.ofNat 64 (syncWords 2 0 6 9).2, 0, 6, 9, by decide +kernel⟩
  · exact ⟨seqRun.setCluster 0 { opens := [(6, 0)] }, 0, 6, 0, 0, [], by decide +kernel⟩
  · exact ⟨(seqRun.setCore 0 { phase := .done }).setCluster 0 { closes := [5] }, 0, 5, [], by decide +kernel⟩
  · exact ⟨(seqRun.setInst 0 { seqRun.inst 0 with doneCl := [] }).wr (STEP_BAR_TMO 0) 50, 0, by decide +kernel⟩
  · exact ⟨seqRun.setCluster 0 { committed := some 5 }, 0, 0, 5, by decide +kernel⟩
  · exact ⟨(seqRun.setInst 0 { seqRun.inst 0 with final := true }).setCluster 0 { committed := some 5 }, 0, 0, 5, by decide +kernel⟩
  · exact ⟨ready.setInst 0 { stat := some ⟨true, false, some [(9, 0, 0, 0, 0)], []⟩ }, BitVec.ofNat 64 (syncWords 0xA 0 0 0).1, BitVec.ofNat 64 (syncWords 0xA 0 0 0).2, 9, 0, 0, 0, ⟨true, false, some [(9, 0, 0, 0, 0)], []⟩, by decide +kernel⟩
theorem witness_StepStartStopAndTimedSchedule :
    (∃ (s : State) (q : Req) (i : InstNo) (v : Word), (s.instOpen q i.val = true ∧ s.conf i.val = false ∧ s.fv (SEC_INST i.val) SEC_INST.STATE < 2) ∧ (stepState i.val s = stStopped) ∧ (bit v.toNat 9 = false ∧ bit v.toNat 0 = false ∧ 1 ≤ bits v.toNat 16 4 ∧ bits v.toNat 16 4 ≤ 8) ∧ (stepCur i.val s + 1 ≤ s.fv (STEP_LIMIT i.val) STEP_LIMIT.LIMIT ∧ stepCur i.val s + 1 ≠ anyStep)) ∧
    (∃ (s : State) (q : Req) (i : InstNo) (v : Word), (s.instOpen q i.val = true ∧ s.conf i.val = false ∧ s.fv (SEC_INST i.val) SEC_INST.STATE < 2) ∧ (stepState i.val s = stStopped) ∧ (bit v.toNat 9 = false ∧ bit v.toNat 0 = true ∧ bit v.toNat 1 = false ∧ 1 ≤ bits v.toNat 16 4 ∧ bits v.toNat 16 4 ≤ 8) ∧ (stepCur i.val s + 1 ≤ s.fv (STEP_LIMIT i.val) STEP_LIMIT.LIMIT ∧ stepCur i.val s + 1 ≠ anyStep) ∧ ((s.now : Int) + 10000 ≤ tickTime i.val (stepCur i.val s + 1) s)) ∧
    (∃ (s : State) (q : Req) (i : InstNo) (v : Word), (s.instOpen q i.val = true ∧ s.conf i.val = false) ∧ (stepState i.val s = stRunning) ∧ (bit v.toNat 8 = false ∧ v.toNat &&& stepCtrlRw = s.rd (STEP_CTRL i.val) &&& stepCtrlRw ∧ 1 ≤ bits v.toNat 16 4 ∧ bits v.toNat 16 4 ≤ 8) ∧ (s.power.standbyPend = false)) ∧
    (∃ (s : State) (i : InstNo), (stepState i.val s = stRunning ∧ timed i.val s = true ∧ s.fb (STEP_CTRL i.val) STEP_CTRL.TSRC = false ∧ (s.inst i.val).final = false) ∧ (tickTime i.val (s.inst i.val).nextTick s ≤ s.now) ∧ ((s.inst i.val).ticks = [] ∧ lagFull i.val s = false) ∧ (stepCur i.val s + 1 ≤ s.fv (STEP_LIMIT i.val) STEP_LIMIT.LIMIT ∧ stepCur i.val s + 1 ≠ anyStep)) ∧
    (∃ (s : State) (i : InstNo), (stepState i.val s = stRunning ∧ timed i.val s = true ∧ s.fb (STEP_CTRL i.val) STEP_CTRL.TSRC = false ∧ (s.inst i.val).final = false) ∧ (tickTime i.val (s.inst i.val).nextTick s ≤ s.now) ∧ (lagFull i.val s = true)) ∧
    (∃ (s : State) (i : InstNo) (n : Nat) (e : Nat), ((s.inst i.val).ticks = [(n, e)] ∧ lagFull i.val s = false ∧ stepState i.val s = stRunning) ∧ (stepCur i.val s + 1 ≤ s.fv (STEP_LIMIT i.val) STEP_LIMIT.LIMIT ∧ stepCur i.val s + 1 ≠ anyStep)) := by
  refine ⟨?_, ?_, ?_, ?_, ?_, ?_⟩
  · exact ⟨ready.fs (STEP_SGRP 2) STEP_SGRP.ROOT 1, .pf, 2, 0x10000, by decide +kernel⟩
  · exact ⟨ready.wr64 (STEP_ANCHOR_T 2) 0x100000, .mp, 2, 0x80001, by decide +kernel⟩
  · exact ⟨seqRun, .pf, 0, 0x40000, by decide +kernel⟩
  · exact ⟨timedRun, 0, by decide +kernel⟩
  · exact ⟨timedRun.setInst 0 { timedRun.inst 0 with opened := some 6, first := some 5 }, 0, by decide +kernel⟩
  · exact ⟨timedRun.setInst 0 { timedRun.inst 0 with ticks := [(6, 900)] }, 0, 6, 900, by decide +kernel⟩
theorem witness_TimeAdjustmentsAndReference :
    (∃ (s : State) (q : Req) (v : DWord), (s.gateOpen q 5 = true ∧ mayAdjust q s = true) ∧ (-1000000 ≤ sx 64 v.toNat ∧ sx 64 v.toNat ≤ 1000000)) ∧
    (∃ (s : State) (q : Req) (v : DWord), (s.gateOpen q 5 = true ∧ mayAdjust q s = true) ∧ (1000000 < sx 64 v.toNat)) ∧
    (∃ (s : State) (q : Req) (v : DWord), (s.gateOpen q 5 = true ∧ mayAdjust q s = true) ∧ (sx 64 v.toNat < -1000000)) ∧
    (∃ (s : State) (q : Req) (v : Word), (s.gateOpen q 5 = true ∧ mayAdjust q s = true ∧ s.fb TIME_STATUS TIME_STATUS.BACKSTEP = false) ∧ (-4294967 ≤ sx 32 v.toNat ∧ sx 32 v.toNat ≤ 4294967)) ∧
    (∃ (s : State), s.dev.slewLeft = 0) ∧
    (∃ (s : State), s.fv TIME_STATUS TIME_STATUS.LOCK = 1 ∨ s.fv TIME_STATUS TIME_STATUS.LOCK = 2) ∧
    (∃ (s : State), s.fv TIME_CTRL TIME_CTRL.SRC ≠ 4 ∧ s.dev.todWrites = []) ∧
    (∃ (s : State), (s.fv TIME_CTRL TIME_CTRL.SRC = 4 ∧ s.dev.todWrites = []) ∧ (s.fv TIME_TOD TIME_TOD.SEC + 1 < 2 ^ 48) ∧ ((s.fv TIME_TOD TIME_TOD.SEC : Int) * 1000000000 - s.rd64 TIME64 ≤ 1000000 ∧ -1000000 ≤ (s.fv TIME_TOD TIME_TOD.SEC : Int) * 1000000000 - s.rd64 TIME64)) ∧
    (∃ (s : State), s.fb TIME_CTRL TIME_CTRL.PPSO_EN = true ∧ s.pin pinPPS_OUT = false ∧ s.dev.ppsSec < ppsSecond s) ∧
    (∃ (s : State), s.pin pinPPS_OUT = true) := by
  refine ⟨?_, ?_, ?_, ?_, ?_, ?_, ?_, ?_, ?_, ?_⟩
  · exact ⟨ready, .pf, 0xFFFFFFFFFFF0BDC0, by decide +kernel⟩
  · exact ⟨ready, .mp, 1000001, by decide +kernel⟩
  · exact ⟨ready, .fm, 0xFFFFFFFFFFF0BDBF, by decide +kernel⟩
  · exact ⟨ready, .mp, 4294967, by decide +kernel⟩
  · exact ⟨ready, by decide +kernel⟩
  · exact ⟨ready.fs TIME_STATUS TIME_STATUS.LOCK 2, by decide +kernel⟩
  · exact ⟨ready, by decide +kernel⟩
  · exact ⟨(ready.fs TIME_CTRL TIME_CTRL.SRC 4).wr64 TIME64 1000, by decide +kernel⟩
  · exact ⟨(ready.fs TIME_CTRL TIME_CTRL.PPSO_EN 1).wr64 TIME64 1000000000, by decide +kernel⟩
  · exact ⟨ready.setPin pinPPS_OUT true, by decide +kernel⟩
theorem witness_TimersCountFireAndAreOwned :
    (∃ (s : State) (n : Fin 8), tmrSrc n.val s = 0 ∧ tmrRunning 8 n.val s = true ∧ s.fv (TMR_PRE_INC n.val) TMR_PRE_INC.INC = 0) ∧
    (∃ (s : State) (n : Fin 8), (s.pin pinSYNC_IN = false ∧ tmrSrc n.val s = 2) ∧ (tmrRunning 8 n.val (s.setPin pinSYNC_IN true) = true ∧ s.fv (TMR_PRE_INC n.val) TMR_PRE_INC.INC = 0)) ∧
    (∃ (s : State) (n : Fin 8), tmrSrc n.val s = 0 ∧ tmrRunning 8 n.val s = true ∧ s.fv (TMR_PRE_INC n.val) TMR_PRE_INC.INC ≠ 0) ∧
    (∃ (s : State) (n : Fin 8) (c : Bool), (s.rd64 (TMR_COUNT n.val) = s.rd64 (tmrCmp n.val c) ∧ s.rd64 (tmrInt n.val c) ≠ 0) ∧ (s.dev.tmrFired.contains (2 * n.val + b2n c) = false)) ∧
    (∃ (s : State) (q : Req) (n : Fin 8) (v : Word), s.timerOpen q n.val = true ∧ bits v.toNat 4 3 ≠ 7 ∧ bits v.toNat 13 2 = 0) ∧
    (∃ (s : State) (q : Req) (n : Fin 8), s.timerOpen q n.val = true ∧ s.fb (TMR_CTRL n.val) TMR_CTRL.EN = false) ∧
    (∃ (s : State) (q : Req) (n : Fin 8) (v : Word), (s.gateOpen q 5 = true ∧ isVf q = false ∧ s.fb (TMR_CTRL n.val) TMR_CTRL.EN = false) ∧ (s.fb (TMR_OWN n.val) TMR_OWN.VALID = false ∧ s.conf (bits v.toNat 0 4) = false) ∧ (resetting (bits v.toNat 0 4) s = false ∧ loading (bits v.toNat 0 4) s = false)) := by
  refine ⟨?_, ?_, ?_, ?_, ?_, ?_, ?_⟩
  · exact ⟨((ready.fs (TMR_CTRL 7) TMR_CTRL.EN 1).fs (TMR_CTRL 7) TMR_CTRL.SRC 0).wr64 (TMR_COUNT 7) 0xFFFFFFFF, 7, by decide +kernel⟩
  · exact ⟨(((ready.fs (TMR_CTRL 5) TMR_CTRL.EN 1).fs (TMR_CTRL 5) TMR_CTRL.SRC 2).fs (TMR_CTRL 5) TMR_CTRL.GATE 1), 5, by decide +kernel⟩
  · exact ⟨((ready.fs (TMR_CTRL 0) TMR_CTRL.EN 1).fs (TMR_CTRL 0) TMR_CTRL.SRC 0).wr (TMR_PRE_INC 0) 0x80000000, 0, by decide +kernel⟩
  · exact ⟨((ready.wr64 (TMR_COUNT 3) 9).wr64 (TMR_CMP0 3) 9).wr64 (TMR_INT0 3) 100, 3, false, by decide +kernel⟩
  · exact ⟨ready, .pf, 7, 3, by decide +kernel⟩
  · exact ⟨ready, .mp, 0, by decide +kernel⟩
  · exact ⟨ready, .pf, 2, 0x1F, by decide +kernel⟩
theorem witness_MeasureCapturesOnce :
    (∃ (s : State) (q : Req) (v : Word), (s.devOpen q 6 = true) ∧ (bit v.toNat 3 = false ∧ s.fb SYNC_MEAS_STAT SYNC_MEAS_STAT.PEND = false ∧ s.fb SYNC_MEAS_STAT SYNC_MEAS_STAT.BUSY = false)) ∧
    (∃ (s : State) (q : Req) (v : Word), (s.devOpen q 6 = true) ∧ (bit v.toNat 3 = false ∧ s.fb SYNC_MEAS_STAT SYNC_MEAS_STAT.PEND = false ∧ s.fb SYNC_MEAS_STAT SYNC_MEAS_STAT.BUSY = false) ∧ (stepCur (bits v.toNat 4 4) s < s.fv SYNC_MEAS_STEP SYNC_MEAS_STEP.STEP)) ∧
    (∃ (s : State) (q : Req) (v : Word), (s.devOpen q 6 = true) ∧ (bit v.toNat 3 = false ∧ s.fb SYNC_MEAS_STAT SYNC_MEAS_STAT.PEND = false ∧ s.fb SYNC_MEAS_STAT SYNC_MEAS_STAT.BUSY = false) ∧ (s.rd64 SYNC_MEAS_TIME ≤ s.now + 2 ^ 47)) ∧
    (∃ (s : State) (q : Req) (v : Word), s.devOpen q 6 = true ∧ s.fb SYNC_MEAS_STAT SYNC_MEAS_STAT.PEND = true ∧ bits v.toNat 1 2 ≠ 3) ∧
    (∃ (s : State) (w0 : DWord) (w1 : DWord) (i : Nat) (st : Nat) (a : Nat) (n : Nat), (syncRecv w0.toNat w1.toNat s = (some (3, i, st, a), s)) ∧ (measDue 0 s = some n ∧ bits a 0 16 = n)) ∧
    (∃ (s : State) (w0 : DWord) (w1 : DWord) (i : Nat) (st : Nat) (a : Nat) (n : Nat), (syncRecv w0.toNat w1.toNat s = (some (4, i, st, a), s)) ∧ (measDue 1 s = some n ∧ bits a 0 16 = n)) ∧
    (∃ (s : State) (w0 : DWord) (w1 : DWord) (i : Nat) (st : Nat) (a : Nat) (n : Nat), (syncRecv w0.toNat w1.toNat s = (some (5, i, st, a), s)) ∧ (measDue 2 s = some n ∧ bits a 0 16 = n)) ∧
    (∃ (s : State) (unit : SyncUnit) (w0 : DWord) (w1 : DWord) (i : Nat) (st : Nat) (a : Nat) (m : Nat) (n : Nat) (u : Nat), (syncRecv w0.toNat w1.toNat s = (some (6, i, st, a), s)) ∧ (s.dev.meas = some (m, n, u) ∧ s.fb SYNC_MEAS_STAT SYNC_MEAS_STAT.BUSY = true ∧ bits a 0 16 = n) ∧ (measLeft s = [unit])) ∧
    (∃ (s : State) (unit : SyncUnit) (w0 : DWord) (w1 : DWord) (i : Nat) (st : Nat) (a : Nat) (m : Nat) (n : Nat) (u : Nat), (syncRecv w0.toNat w1.toNat s = (some (6, i, st, a), s)) ∧ (s.dev.meas = some (m, n, u) ∧ s.fb SYNC_MEAS_STAT SYNC_MEAS_STAT.BUSY = true ∧ bits a 0 16 = n) ∧ ((measLeft s).contains unit = true ∧ (measLeft s).any (· != unit) = true)) ∧
    (∃ (s : State) (m : Nat) (n : Nat) (u : Nat), s.dev.meas = some (m, n, u) ∧ s.fb SYNC_MEAS_STAT SYNC_MEAS_STAT.BUSY = true ∧ n < 2 ^ 16) := by
  refine ⟨?_, ?_, ?_, ?_, ?_, ?_, ?_, ?_, ?_, ?_⟩
  · exact ⟨ready, .pf, 0, by decide +kernel⟩
  · exact ⟨ready.wr64 SYNC_MEAS_STEP 9, .mp, 0x30, by decide +kernel⟩
  · exact ⟨ready.wr64 SYNC_MEAS_TIME 0x800000000000, .pf, 0, by decide +kernel⟩
  · exact ⟨ready.fs SYNC_MEAS_STAT SYNC_MEAS_STAT.PEND 1, .fm, 8, by decide +kernel⟩
  · exact ⟨measSt 0, BitVec.ofNat 64 (syncWords 3 0 0 1).1, BitVec.ofNat 64 (syncWords 3 0 0 1).2, 0, 0, 1, 1, by decide +kernel⟩
  · exact ⟨(measSt 1).setInst 0 { opened := some 9 }, BitVec.ofNat 64 (syncWords 4 0 5 1).1, BitVec.ofNat 64 (syncWords 4 0 5 1).2, 0, 5, 1, 1, by decide +kernel⟩
  · exact ⟨(measSt 2).wr64 TIME64 50, BitVec.ofNat 64 (syncWords 5 0 0 1).1, BitVec.ofNat 64 (syncWords 5 0 0 1).2, 0, 0, 1, 1, by decide +kernel⟩
  · exact ⟨measAck, .node 15, BitVec.ofNat 64 (syncWords 6 0 0 1).1, BitVec.ofNat 64 (syncWords 6 0 0 1).2, 0, 0, 1, 0, 1, 5, by decide +kernel⟩
  · exact ⟨(measSt 0).fs SYNC_MEAS_STAT SYNC_MEAS_STAT.BUSY 1, .cluster 5, BitVec.ofNat 64 (syncWords 6 0 0 1).1, BitVec.ofNat 64 (syncWords 6 0 0 1).2, 0, 0, 1, 0, 1, 5, by decide +kernel⟩
  · exact ⟨(measSt 0).fs SYNC_MEAS_STAT SYNC_MEAS_STAT.BUSY 1, 0, 1, 5, by decide +kernel⟩
theorem witness_NetworkPacketsAreForwardedOrDiscarded :
    (∃ (hdr : DWord), (secDec 57 (hdr.toNat % 2 ^ 57) (bits hdr.toNat 57 7)).1 = none) ∧
    (∃ (s : State) (hdr : DWord) (ev : DWord) (d : Nat) (fixed : Bool), (secDec 57 (hdr.toNat % 2 ^ 57) (bits hdr.toNat 57 7) = (some d, fixed)) ∧ (bits (hdrSeal d) 22 4 = 0) ∧ (s.net.outs = []) ∧ (0 < flowWeight (unitOf (hdrSeal d) [ev.toNat] 0 0 0).flow s)) ∧
    (∃ (s : State) (sw : Fin 16) (hdr : DWord) (ev : DWord) (d : Nat), (secDec 57 (hdr.toNat % 2 ^ 57) (bits hdr.toNat 57 7) = (some d, false)) ∧ (bits (hdrSeal d) 22 4 = 0) ∧ (bits (hdrSeal d) 16 2 = vcEVT) ∧ (epGone (bits (hdrSeal d) 0 8) s = false) ∧ (s.net.outs = []) ∧ ((s.netReplay (16 * sw.val + spineOf (hdrSeal d) s)).length < 64) ∧ (0 < flowWeight (unitOf (hdrSeal d) [ev.toNat] 0 0 0).flow s)) ∧
    (∃ (s : State) (hdr : DWord) (d : Nat), (secDec 57 (hdr.toNat % 2 ^ 57) (bits hdr.toNat 57 7) = (some d, false)) ∧ (bits (hdrSeal d) 22 4 = 1) ∧ (bits (hdrSeal d) 16 2 = vcREQ) ∧ (bits (hdrSeal d) 8 8 ≠ 0) ∧ (0xC0 ≤ bits (hdrSeal d) 0 8) ∧ (s.net.outs = [])) ∧
    (∃ (s : State) (sw : Fin 16) (sp : Fin 16) (seq : Byte) (hdr : DWord) (body : List DWord) (d : Nat) (u : NUnit), (secDec 57 (hdr.toNat % 2 ^ 57) (bits hdr.toNat 57 7) = (some d, false)) ∧ (u = unitOf (hdrSeal d) (body.map (·.toNat)) (inLeaf sw.val sp.val) sp.val seq.toNat) ∧ (bits (hdrSeal d) 0 8 < 0xC0) ∧ (epRoom (bits (hdrSeal d) 0 8) u s = true) ∧ (s.net.outs = []) ∧ (0 < flowWeight u.flow s)) ∧
    (∃ (s : State) (sw : Fin 16) (seq : Byte) (r : Fin 16) (hdr : DWord) (d : Nat) (n : Nat), (secDec 57 (hdr.toNat % 2 ^ 57) (bits hdr.toNat 57 7) = (some d, false)) ∧ (n = (unitOf (hdrSeal d) [] 0 0 0).n) ∧ (sget (fun _ => 0) (256 * sw.val + 16 * leafOf (bits (hdrSeal d) 8 8) + r.val) s.net.seqRx = (seq.toNat + n - 1) % 256 + 1)) ∧
    (∃ (s : State) (ep : Byte) (e : EvtIn), (s.fb (DNET_BLK (bits e.ev.toNat 48 12 / 16)) DNET_BLK.VALID = true) ∧ (s.fb (DNET_BLK (bits e.ev.toNat 48 12 / 16)) DNET_BLK.IVAL = true ∧ s.fv (DNET_BLK (bits e.ev.toNat 48 12 / 16)) DNET_BLK.INST = e.inst.toNat) ∧ (sget (fun _ => []) ep.toNat s.net.edge = []) ∧ (s.net.outs = [])) ∧
    (∃ (s : State) (e : EvtIn), (s.fb (DNET_BLK (bits e.ev.toNat 48 12 / 16)) DNET_BLK.VALID = false) ∧ (e.rem = false ∧ bits e.ev.toNat 60 4 ≤ 1)) ∧
    (∃ (s : State) (e : EvtIn), (s.fb (DNET_BLK (bits e.ev.toNat 48 12 / 16)) DNET_BLK.VALID = true) ∧ (s.fb (DNET_BLK (bits e.ev.toNat 48 12 / 16)) DNET_BLK.IVAL = false) ∧ (e.rem = false ∧ bits e.ev.toNat 60 4 ≤ 1)) ∧
    (∃ (s : State) (c : Cl), ((s.cluster c.val).dlv = []) ∧ ((s.cluster c.val).spill = []) ∧ ((s.cluster c.val).fences = [])) ∧
    (∃ (s : State) (c : Cl) (k : Fin 16) (l : List EvtIn), ((s.cluster c.val).dlv = [(k.val, l)]) ∧ (l ≠ []) ∧ ((s.cluster c.val).spill = []) ∧ ((s.cluster c.val).fences = [])) := by
  refine ⟨?_, ?_, ?_, ?_, ?_, ?_, ?_, ?_, ?_, ?_, ?_⟩
  · exact ⟨3, by decide +kernel⟩
  · exact ⟨ready, BitVec.ofNat 64 (hdrSeal 0x34081), 9, 0x34081, false, by decide +kernel⟩
  · exact ⟨ready, 2, BitVec.ofNat 64 (hdrSeal 0x34281), 9, 0x34281, by decide +kernel⟩
  · exact ⟨ready, BitVec.ofNat 64 (hdrSeal 0x4242C0), 0x4242C0, by decide +kernel⟩
  · exact ⟨ready, 2, 3, 3, BitVec.ofNat 64 (hdrSeal 0x34051), [9], 0x34051, unitOf (hdrSeal 0x34051) [9] (inLeaf 2 3) 3 3, by decide +kernel⟩
  · exact ⟨ready.setNet { ready.net with seqRx := sset (fun _ => 0) (256 * 2 + 16 * leafOf (bits (hdrSeal 0x34081) 8 8) + 3) 10 ready.net.seqRx }, 2, 9, 3, BitVec.ofNat 64 (hdrSeal 0x34081), 0x34081, 1, by decide +kernel⟩
  · exact ⟨own.fs (DNET_BLK 0) DNET_BLK.VALID 1, 3, evtGood, by decide +kernel⟩
  · exact ⟨ready.fs (DNET_BLK 0) DNET_BLK.VALID 0, evtGood, by decide +kernel⟩
  · exact ⟨ready.fs (DNET_BLK 0) DNET_BLK.VALID 1, evtGood, by decide +kernel⟩
  · exact ⟨ready, 1, by decide +kernel⟩
  · exact ⟨ready.setCluster 1 { ready.cluster 1 with dlv := [(4, [evtGood])] }, 1, 4, [evtGood], by decide +kernel⟩
theorem witness_NetworkFailuresAreContained :
    (∃ (data : BitVec 256) (valid : BitVec 2) (crc : BitVec 16), flitCrc data.toNat valid.toNat = crc.toNat) ∧
    (∃ (s : State) (l : Lane) (up : Bool) (data : BitVec 256) (valid : BitVec 2) (crc : BitVec 16) (o : Nat) (f : Nat × Nat), (flitCrc data.toNat valid.toNat ≠ crc.toNat) ∧ ((s.net.lanes.find? fun x => x.1 == l) = none) ∧ (outOfLane up l = some o) ∧ ((s.net.hop.find? fun x => x.1 == (l, up)) = some ((l, up), [f]))) ∧
    (∃ (s : State) (c : Cl) (n : Fin 2) (data : BitVec 256) (valid : BitVec 2) (crc : BitVec 16), (flitCrc data.toNat valid.toNat ≠ crc.toNat) ∧ ((s.net.lanes.find? fun x => x.1 == Lane.cluster c n) = some (.cluster c n, 8)) ∧ (s.net.lanesOut.contains (Lane.cluster c n) = false)) ∧
    (∃ (s : State) (sp : Fin 16), ((s.fv DNET_STATUS DNET_STATUS.SPINE_OK).testBit sp.val = true) ∧ (s.fv DNET_STATUS DNET_STATUS.SPINE_OK = 0xFFFF)) ∧
    (∃ (s : State), s.net.outs = []) ∧
    (∃ (s : State), (s.fb DNET_CMAP_CTRL DNET_CMAP_CTRL.EN = true) ∧ (s.rd (DNET_CMAP 1) + 2 < 2 ^ 32 ∧ s.rd (DNET_CMAP 1) % 2 = 0)) ∧
    (∃ (s : State) (q : Req) (v : Word), s.devOpen q 6 = true ∧ bit v.toNat 0 = true) := by
  refine ⟨?_, ?_, ?_, ?_, ?_, ?_, ?_⟩
  · exact ⟨5, 1, BitVec.ofNat 16 (flitCrc 5 1), by decide +kernel⟩
  · exact ⟨ready.setNet { ready.net with hop := [((.cluster 3 1, true), [(5, 1)])] }, .cluster 3 1, true, 5, 1, BitVec.ofNat 16 (flitCrc 5 1 + 1), 768 + epCluster 3, (5, 1), by decide +kernel⟩
  · exact ⟨ready.setNet { ready.net with lanes := [(.cluster 3 1, 8)] }, 3, 1, 5, 1, BitVec.ofNat 16 (flitCrc 5 1 + 1), by decide +kernel⟩
  · exact ⟨ready, 15, by decide +kernel⟩
  · exact ⟨ready.setReplay 16 [⟨4, 3, 0, 0, 9, 1⟩, ⟨5, 3, 0, 0, 9, 1⟩, ⟨5, 2, 0, 0, 9, 1⟩], by decide +kernel⟩
  · exact ⟨ready.fs DNET_CMAP_CTRL DNET_CMAP_CTRL.EN 1, by decide +kernel⟩
  · exact ⟨(ready.inc DNET_DUP 3).inc64 (DNET_EP_RXF 0x41) 9, .pf, 1, by decide +kernel⟩
theorem witness_SyncMessagesCarryRewindsAndGathers :
    (∃ (s : State) (w0 : DWord) (w1 : DWord) (i : InstNo) (n : Nat) (a : Nat), (syncRecv w0.toNat w1.toNat s = (some (7, i.val, n, a), s)) ∧ (rbkUnits i.val s = [.host]) ∧ (argRem a = true) ∧ (s.net.rbks = [])) ∧
    (∃ (s : State) (w0 : DWord) (w1 : DWord) (i : InstNo) (n : Nat) (a : Nat) (c : Cl) (r : JRec), (syncRecv w0.toNat w1.toNat s = (some (7, i.val, n, a), s)) ∧ (rbkUnits i.val s = [.cluster c, .host]) ∧ (argRem a = false) ∧ (argScl a ≠ c.val) ∧ ((s.cluster c.val).journal = [r] ∧ r.rem = false ∧ r.srank = 0 ∧ r.scl = argScl a ∧ r.sstep5 = n % 32)) ∧
    (∃ (s : State) (u : SyncUnit) (v : SyncUnit) (w0 : DWord) (w1 : DWord) (i : InstNo) (n : Nat) (a : Nat), (syncRecv w0.toNat w1.toNat s = (some (8, i.val, n, a), s)) ∧ (u ≠ v) ∧ (unitNode u = none) ∧ (s.net.rbks = [⟨i.val, argRem a, argRank a, argScl a, n, [u, v]⟩])) ∧
    (∃ (s : State) (u : SyncUnit) (w0 : DWord) (w1 : DWord) (i : InstNo) (n : Nat) (a : Nat) (c : Cl) (r : RewSt), (syncRecv w0.toNat w1.toNat s = (some (8, i.val, n, a), s)) ∧ (argRem a = false) ∧ (argScl a = c.val) ∧ (unitNode u = none) ∧ (s.net.rbks = [⟨i.val, false, argRank a, argScl a, n, [u]⟩]) ∧ (s.net.outs = []) ∧ ((s.cluster c.val).rewind = some r ∧ r.fence = [] ∧ r.live = true ∧ r.wasOpen = false ∧ r.step = n) ∧ ((s.cluster c.val).dlv = []) ∧ ((s.cluster c.val).spill = []) ∧ ((s.cluster c.val).fences = [])) ∧
    (∃ (s : State) (c : Cl) (frm : Byte) (r : RewSt), (s.cluster c.val).rewind = some r ∧ r.fence = [frm.toNat]) ∧
    (∃ (s : State) (c : Cl) (frm : Byte) (r : RewSt), (s.cluster c.val).rewind = some r ∧ r.fence.contains frm.toNat = true ∧ r.fence.filter (· != frm.toNat) ≠ []) ∧
    (∃ (s : State) (w0 : DWord) (w1 : DWord) (i : InstNo) (n : Nat) (a : Nat) (p : Nat), (syncRecv w0.toNat w1.toNat s = (some (0xB, i.val, n, a), s)) ∧ (ownRank i.val s = some (bits n 18 12)) ∧ (s.pcidOf (bits n 0 18 / 64) = some p ∧ qInst p s ≠ some i.val)) := by
  refine ⟨?_, ?_, ?_, ?_, ?_, ?_, ?_⟩
  · exact ⟨{ ready with dev := { ready.dev with fusedEth := [0, 1] } }, BitVec.ofNat 64 (syncWords 7 3 5 (rbkArg true 2 1)).1, BitVec.ofNat 64 (syncWords 7 3 5 (rbkArg true 2 1)).2, 3, 5, rbkArg true 2 1, by decide +kernel⟩
  · exact ⟨({ own with dev := { own.dev with fusedEth := [0, 1] } }.setCluster 0 { own.cluster 0 with journal := [⟨1, 2, false, false, 0, 5, 0, 9, 9, 10, false, false⟩] }), BitVec.ofNat 64 (syncWords 7 0 9 (rbkArg false 0 5)).1, BitVec.ofNat 64 (syncWords 7 0 9 (rbkArg false 0 5)).2, 0, 9, rbkArg false 0 5, 0, ⟨1, 2, false, false, 0, 5, 0, 9, 9, 10, false, false⟩, by decide +kernel⟩
  · exact ⟨ready.setNet { ready.net with rbks := [⟨3, false, 0, 5, 9, [.host, .jlk 2]⟩] }, .host, .jlk 2, BitVec.ofNat 64 (syncWords 8 3 9 (rbkArg false 0 5)).1, BitVec.ofNat 64 (syncWords 8 3 9 (rbkArg false 0 5)).2, 3, 9, rbkArg false 0 5, by decide +kernel⟩
  · exact ⟨(ready.setNet { ready.net with rbks := [⟨3, false, 0, 4, 5, [.host]⟩] }).setCluster 4 { ready.cluster 4 with rewind := some ⟨5, 0, 0, 1, 0, 0, 0, 0, [], false, true⟩, noInject := true }, .host, BitVec.ofNat 64 (syncWords 8 3 5 (rbkArg false 0 4)).1, BitVec.ofNat 64 (syncWords 8 3 5 (rbkArg false 0 4)).2, 3, 5, rbkArg false 0 4, 4, ⟨5, 0, 0, 1, 0, 0, 0, 0, [], false, true⟩, by decide +kernel⟩
  · exact ⟨ready.setCluster 4 { ready.cluster 4 with rewind := some ⟨5, 0, 0, 1, 0, 0, 0, 0, [0x41], false, true⟩, noInject := true }, 4, 0x41, ⟨5, 0, 0, 1, 0, 0, 0, 0, [0x41], false, true⟩, by decide +kernel⟩
  · exact ⟨ready.setCluster 4 { ready.cluster 4 with rewind := some ⟨5, 0, 0, 1, 0, 0, 0, 0, [0x41, 0x42], false, true⟩, noInject := true }, 4, 0x41, ⟨5, 0, 0, 1, 0, 0, 0, 0, [0x41, 0x42], false, true⟩, by decide +kernel⟩
  · exact ⟨(own.fs (JLK_OWNRANK 1) JLK_OWNRANK.VALID 1).fs (DNET_BLK 0) DNET_BLK.VALID 1, BitVec.ofNat 64 (syncWords 11 1 0 (7)).1, BitVec.ofNat 64 (syncWords 11 1 0 (7)).2, 1, 0, 7, 0, by decide +kernel⟩
theorem witness_QueueDescriptorsAreAdmitted :
    (∃ (s : State) (c : Cl) (k : Sl) (d : QdescIn), (s.unitStill (pcid c k) = true ∧ s.qAdmits (pcid c k) d = true ∧ d.count = 0 ∧ d.post = none ∧ d.words.length = 20) ∧ (bits (dw (d.words.map (·.toNat)) 0) 0 4 = qKind (pcid c k) (d.qid.toNat % 64) s) ∧ ((s.core (pcid c k)).q.inBuf = [] ∧ qOcc (pcid c k) (d.qid.toNat % 64) s < qDepth (pcid c k) (d.qid.toNat % 64) s)) ∧
    (∃ (s : State) (c : Cl) (k : Sl) (d : QdescIn), (s.unitStill (pcid c k) = true ∧ s.qAdmits (pcid c k) d = true ∧ d.count = 0) ∧ (bits (dw (d.words.map (·.toNat)) 0) 0 4 = qKind (pcid c k) (d.qid.toNat % 64) s) ∧ ((s.core (pcid c k)).q.inBuf = [] ∧ (s.core (pcid c k)).q.held = [] ∧ qDepth (pcid c k) (d.qid.toNat % 64) s ≤ qOcc (pcid c k) (d.qid.toNat % 64) s)) ∧
    (∃ (s : State) (c : Cl) (k : Sl) (d : QdescIn), (s.unitStill (pcid c k) = true ∧ s.qAdmits (pcid c k) d = true ∧ d.post = none ∧ d.count ≠ 0) ∧ ((s.core (pcid c k)).q.inBuf = [] ∧ qOcc (pcid c k) (d.qid.toNat % 64) s + d.count.toNat ≤ qDepth (pcid c k) (d.qid.toNat % 64) s)) ∧
    (∃ (s : State) (c : Cl) (k : Sl) (d : QdescIn), (s.unitStill (pcid c k) = true ∧ s.qAdmits (pcid c k) d = true ∧ d.post = none ∧ d.count ≠ 0) ∧ ((s.core (pcid c k)).q.inBuf = [] ∧ qDepth (pcid c k) (d.qid.toNat % 64) s - qOcc (pcid c k) (d.qid.toNat % 64) s < d.count.toNat)) ∧
    (∃ (s : State) (c : Cl) (k : Sl) (d : QdescIn), s.unitStill (pcid c k) = true ∧ s.qAdmits (pcid c k) d = true ∧ d.post = none ∧ d.count = 0 ∧ (s.core (pcid c k)).q.inBuf = []) ∧
    (∃ (s : State) (c : Cl) (k : Sl) (d : QdescIn), s.unitStill (pcid c k) = true ∧ s.qAdmits (pcid c k) d = true ∧ d.post = none ∧ d.count = 0 ∧ (s.core (pcid c k)).q.inBuf = []) ∧
    (∃ (s : State) (c : Cl) (k : Sl) (d : QdescIn) (l : List QdescIn), ((s.core (pcid c k)).q.inBuf = d :: l ∧ (s.core (pcid c k)).q.held = []) ∧ (s.unitStill (pcid c k) = true ∧ s.qAdmits (pcid c k) d = true ∧ d.qop = 0 ∧ d.count = 0 ∧ d.post = none) ∧ (bits (dw (d.words.map (·.toNat)) 0) 0 4 = qKind (pcid c k) (d.qid.toNat % 64) s ∧ qOcc (pcid c k) (d.qid.toNat % 64) s < qDepth (pcid c k) (d.qid.toNat % 64) s)) ∧
    (∃ (s : State) (c : Cl) (k : Sl) (j : Nat) (l : List (Nat × Nat)), ((s.core (pcid c k)).q.events = (3 * 2 ^ 60 + 5 * 2 ^ 32 + 2, j) :: l ∧ qInst (pcid c k) s = some j ∧ j < 16) ∧ (1 ≤ qKind (pcid c k) 5 s ∧ qKind (pcid c k) 5 s ≤ 3 ∧ s.gen j < 256 ∧ s.dev.drainCl.contains (c.val) = false)) := by
  refine ⟨?_, ?_, ?_, ?_, ?_, ?_, ?_, ?_⟩
  · exact ⟨qSt 2, 0, 0, qPk 0 0 2, by decide +kernel⟩
  · exact ⟨(qSt 1).fs (Q_STAT 0 0) Q_STAT.OCC 4, 0, 0, qPk 0 0 1, by decide +kernel⟩
  · exact ⟨qSt 2, 0, 0, qPk 1 3 2, by decide +kernel⟩
  · exact ⟨qSt 2, 0, 0, qPk 1 5 2, by decide +kernel⟩
  · exact ⟨qSt 2, 0, 0, qPk 2 0 2, by decide +kernel⟩
  · exact ⟨(qSt 2).fs (Q_STAT 0 0) Q_STAT.HELD 1, 0, 0, qPk 3 0 2, by decide +kernel⟩
  · exact ⟨(qSt 2).setQ 0 { inBuf := [qPk 0 0 2, qPk 1 1 2] }, 0, 0, qPk 0 0 2, [qPk 1 1 2], by decide +kernel⟩
  · exact ⟨((qSt 2).fs (Q_CFG 0 5) Q_CFG.KIND 1).setQ 0 { events := [(3 * 2 ^ 60 + 5 * 2 ^ 32 + 2, 0)] }, 0, 0, 0, [], by decide +kernel⟩
theorem witness_QueueEntriesAreTakenAndCompleted :
    (∃ (s : State) (c : Cl) (k : Sl) (n : Nat), s.unitStill (pcid c k) = true ∧ s.takes (pcid c k) .dense n = true) ∧
    (∃ (s : State) (c : Cl) (k : Sl) (n : Nat) (i : Nat), (s.unitStill (pcid c k) = true ∧ s.takes (pcid c k) .move n = true) ∧ (i = bits (dw (qHeadWords (pcid c k) n s) 0) 4 4 ∧ moveAdmit (pcid c k) i ((qHeadWords (pcid c k) n s).drop 4) s = cOK)) ∧
    (∃ (s : State) (c : Cl) (k : Sl) (e : QTaken), (s.unitStill (pcid c k) = true ∧ engTaken (pcid c k) .move s = some e ∧ e.code = cOK ∧ e.q < 64) ∧ (bits (dw e.words 0) 8 8 = s.gen (bits (dw e.words 0) 4 4) ∧ bits (dw e.words 0) 16 2 = 0 ∧ bit (dw e.words 0) 18 = false) ∧ (bits (dw e.words 4) 4 8 = 0 ∧ e.info ≤ 32 ∧ 0 < qOcc (pcid c k) e.q s ∧ 0 < qDepth (pcid c k) e.q s ∧ qDepth (pcid c k) e.q s ≤ 1024)) ∧
    (∃ (s : State) (c : Cl) (k : Sl) (e : QTaken), (s.unitStill (pcid c k) = true ∧ engTaken (pcid c k) .move s = some e ∧ e.code ≠ cOK ∧ e.q < 64) ∧ (bits (dw e.words 0) 8 8 = s.gen (bits (dw e.words 0) 4 4) ∧ bits (dw e.words 0) 16 2 = 1) ∧ (inScr (pcid c k) (bits (dw e.words 2) 0 25) 16 s = true ∧ 0 < qOcc (pcid c k) e.q s) ∧ (0 < qDepth (pcid c k) e.q s ∧ qDepth (pcid c k) e.q s ≤ 1024)) ∧
    (∃ (s : State) (c : Cl) (k : Sl) (n : Fin 64), s.fv (Q_WDOG (pcid c k)) Q_WDOG.CYC ≠ 0 ∧ qOcc (pcid c k) n.val s ≠ 0) ∧
    (∃ (s : State) (c : Cl) (k : Sl) (d : QdescIn) (l : List QdescIn), s.fv (Q_WDOG (pcid c k)) Q_WDOG.CYC ≠ 0 ∧ (s.core (pcid c k)).q.inBuf = d :: l) ∧
    (∃ (s : State) (q : Req) (c : Cl) (k : Sl), s.coreOpen q (pcid c k) true = true) := by
  refine ⟨?_, ?_, ?_, ?_, ?_, ?_, ?_⟩
  · exact ⟨qWith 1 0 macDesc, 0, 0, 0, by decide +kernel⟩
  · exact ⟨(qWith 2 0 moveDesc).wrSram 0 0x18000 0x12345678, 0, 0, 0, 0, by decide +kernel⟩
  · exact ⟨((qWith 2 0 moveDesc).wrSram 0 0x18000 0x12345678).setQ 0 { taken := [⟨0, 0, 0, cOK, 4, [2, 0, 0x20000, 0] ++ moveDesc⟩] }, 0, 0, ⟨0, 0, 0, cOK, 4, [2, 0, 0x20000, 0] ++ moveDesc⟩, by decide +kernel⟩
  · exact ⟨(qWith 2 1 moveDesc).setQ 0 { taken := [⟨0, 0, 3, cBAD_ARG, 0, [0x10002, 0, 0x20000]⟩] }, 0, 0, ⟨0, 0, 3, cBAD_ARG, 0, [0x10002, 0, 0x20000]⟩, by decide +kernel⟩
  · exact ⟨(qWith 2 1 moveDesc).wr (Q_WDOG 0) 100, 0, 0, 0, by decide +kernel⟩
  · exact ⟨((qSt 2).setQ 0 { inBuf := [qPk 0 0 2] }).wr (Q_WDOG 0) 100, 0, 0, qPk 0 0 2, [], by decide +kernel⟩
  · exact ⟨qWith 2 1 moveDesc, .pf, 0, 0, by decide +kernel⟩
theorem witness_GatheringAddsEachContributorOnce :
    (∃ (s : State) (w0 : DWord) (w1 : DWord) (inst : InstNo) (n : Nat) (a : Nat) (p : Nat) (g : Nat), (syncRecv w0.toNat w1.toNat s = (some (0xB, inst.val, n, a), s)) ∧ (ownRank inst.val s = some (bits n 18 12) ∧ s.pcidOf (bits n 0 18 / 64) = some p ∧ qInst p s = some inst.val) ∧ (gCtx p (bits n 0 18 % 64) s = some g ∧ bits a 44 16 = gBase p g s ∧ s.gOpen p g (bits a 32 12) = true)) ∧
    (∃ (s : State) (w0 : DWord) (w1 : DWord) (inst : InstNo) (n : Nat) (a : Nat) (p : Nat) (g : Nat), (syncRecv w0.toNat w1.toNat s = (some (0xB, inst.val, n, a), s)) ∧ (ownRank inst.val s = some (bits n 18 12) ∧ s.pcidOf (bits n 0 18 / 64) = some p ∧ qInst p s = some inst.val) ∧ (gCtx p (bits n 0 18 % 64) s = some g ∧ bits a 44 16 = gBase p g s ∧ gVlen p g s = 1 ∧ bits a 32 12 < gContrib p g s) ∧ ((gMap p g (bits a 44 16) s).testBit (bits a 32 12) = true ∧ gContrib p g s ≤ 256)) ∧
    (∃ (s : State) (c : Cl) (k : Sl) (ev : Nat) (j : Nat) (l : List (Nat × Nat)) (g : Nat), ((s.core (pcid c k)).q.events = (ev, j) :: l ∧ bits ev 60 4 = 4 ∧ qInst (pcid c k) s = some j) ∧ (gCtx (pcid c k) (bits ev 32 16 % 64) s = some g ∧ gBase (pcid c k) g s % 16 = bits ev 28 4 ∧ s.gOpen (pcid c k) g (bits ev 38 10) = true)) ∧
    (∃ (s : State) (c : Cl) (k : Sl) (g : Fin 4), (s.fb (Q_GCFG (pcid c k) g.val) Q_GCFG.EN = true ∧ s.fv (Q_GTMO (pcid c k) g.val) Q_GTMO.US ≠ 0) ∧ (gCount (pcid c k) g.val (gBase (pcid c k) g.val s) s ≠ 0 ∧ gVlen (pcid c k) g.val s = 1) ∧ (s.fb (Q_GCFG (pcid c k) g.val) Q_GCFG.RSP = true ∧ s.fb (Q_GCFG (pcid c k) g.val) Q_GCFG.FWD = false ∧ s.fb (Q_GCFG (pcid c k) g.val) Q_GCFG.CHAIN = false) ∧ (gCount (pcid c k) g.val (gBase (pcid c k) g.val s + 1) s = 0)) := by
  refine ⟨?_, ?_, ?_, ?_⟩
  · exact ⟨gathSome, BitVec.ofNat 64 (syncWords 0xB 0 0 (7 + 2 * 2 ^ 32)).1, BitVec.ofNat 64 (syncWords 0xB 0 0 (7 + 2 * 2 ^ 32)).2, 0, 0, 7 + 2 * 2 ^ 32, 0, 0, by decide +kernel⟩
  · exact ⟨gathSome, BitVec.ofNat 64 (syncWords 0xB 0 0 (7 + 1 * 2 ^ 32)).1, BitVec.ofNat 64 (syncWords 0xB 0 0 (7 + 1 * 2 ^ 32)).2, 0, 0, 7 + 1 * 2 ^ 32, 0, 0, by decide +kernel⟩
  · exact ⟨gathSome.setQ 0 { events := [(4 * 2 ^ 60 + 2 * 2 ^ 38 + 0x3FFFFF, 0)] }, 0, 0, 4 * 2 ^ 60 + 2 * 2 ^ 38 + 0x3FFFFF, 0, [], 0, by decide +kernel⟩
  · exact ⟨gathSome, 0, 0, 0, by decide +kernel⟩
theorem witness_SharedSliceRequestsActAndAnswer :
    (∃ (s : State) (r : SlReq) (n : Byte) (x : Nat), x = slSlice (r.addr.toNat - shmBase) ∧ (s.slice x).queue = [] ∧ slAdmit r (.rd n) s = cOK) ∧
    (∃ (s : State) (r : SlReq) (d : List Byte) (x : Nat), x = slSlice (r.addr.toNat - shmBase) ∧ (s.slice x).queue = [] ∧ slAdmit r (.wr d) s = cOK) ∧
    (∃ (s : State) (r : SlReq) (k : BitVec 4) (v : DWord) (x : Nat), x = slSlice (r.addr.toNat - shmBase) ∧ (s.slice x).queue = [] ∧ slAdmit r (.atomic k v) s = cOK ∧ s.fb (SHM_SL_STAT x) SHM_SL_STAT.FAILED = false) ∧
    (∃ (s : State) (r : SlReq) (d : List Byte) (x : Nat) (j : InstNo), (x = slSlice (r.addr.toNat - shmBase) ∧ (s.slice x).queue = [] ∧ r.who = some j ∧ ownsSlice j.val x s = false) ∧ (shmBase ≤ r.addr.toNat ∧ r.addr.toNat < shmBase + 0x2000000 ∧ 0 < d.length ∧ (r.addr.toNat - shmBase) % 256 + d.length ≤ 256)) ∧
    (∃ (s : State) (r : SlReq) (x : Nat), x = slSlice (r.addr.toNat - shmBase) ∧ (s.slice x).queue.length < 64) := by
  refine ⟨?_, ?_, ?_, ?_, ?_⟩
  · exact ⟨sliceSt 1, slReq 0x101, 7, 1, by decide +kernel⟩
  · exact ⟨sliceSt 63, slReq 0x3FFE, [1, 2], 63, by decide +kernel⟩
  · exact ⟨(sliceSt 0).wrLE 8 shmBase 0xFFFFFFFFFFFFFFFF, slReq 0, 1, 2, 0, by decide +kernel⟩
  · exact ⟨sliceSt 1, slReq 0x3FFE, [1, 2], 63, 0, by decide +kernel⟩
  · exact ⟨sliceSt 1, slReq 0x3FFE, 63, by decide +kernel⟩
theorem witness_SharedSliceTestAndClear :
    (∃ (s : State) (sl : Fin 64), s.fb SHM_TEST SHM_TEST.EN = true ∧ s.fb (SHM_SL_STAT sl.val) SHM_SL_STAT.FAILED = false ∧ s.fb SHM_XWIN SHM_XWIN.ACTIVE = false) ∧
    (∃ (s : State) (sl : Fin 64), (s.fb SHM_TEST SHM_TEST.EN = true ∧ s.fb (SHM_SL_STAT sl.val) SHM_SL_STAT.FAILED = false ∧ s.fb SHM_XWIN SHM_XWIN.ACTIVE = false) ∧ (s.fb (SHM_SL_STAT sl.val) SHM_SL_STAT.COPYING = false ∧ s.fb (SHM_SL_STAT sl.val) SHM_SL_STAT.SPARE_USED = false) ∧ (bit (s.fv (SHM_SL_STAT sl.val) SHM_SL_STAT.BANKOK) (slBank (slLine sl.val (s.slice sl.val).testLine)) = true)) ∧
    (∃ (s : State) (sl : Fin 64), s.fb (SHM_SL_STAT sl.val) SHM_SL_STAT.COPYING = true ∧ s.logRoom 1) ∧
    (∃ (s : State) (q : Req) (v : Word), (s.devOpen q 8 = true ∧ bit v.toNat 0 = true ∧ s.fb SHM_XWIN SHM_XWIN.ACTIVE = false ∧ s.fb SHM_CLR_CTRL SHM_CLR_CTRL.BUSY = false) ∧ (∀ x : Fin 64, confSlice x.val s = false) ∧ (s.fv SHM_CLR_BASE SHM_CLR_BASE.BASE % 256 = 0 ∧ s.fv SHM_CLR_LEN SHM_CLR_LEN.LEN % 256 = 0 ∧ s.fv SHM_CLR_BASE SHM_CLR_BASE.BASE + s.fv SHM_CLR_LEN SHM_CLR_LEN.LEN ≤ 0x2000000)) ∧
    (∃ (s : State) (b : Nat) (n : Nat), s.dev.shmClr = some (b, n)) ∧
    (∃ (s : State) (q : Req) (v : Word), s.devOpen q 8 = true ∧ bit v.toNat 0 = true) := by
  refine ⟨?_, ?_, ?_, ?_, ?_, ?_⟩
  · exact ⟨sliceSt 1, 9, by decide +kernel⟩
  · exact ⟨sliceSt 1, 9, by decide +kernel⟩
  · exact ⟨(sliceSt 1).fs (SHM_SL_STAT 3) SHM_SL_STAT.COPYING 1, 3, by decide +kernel⟩
  · exact ⟨(sliceSt 1).wr SHM_CLR_LEN 0x200, .pf, 1, by decide +kernel⟩
  · exact ⟨{ sliceSt 1 with dev := { (sliceSt 1).dev with shmClr := some (256, 512) } }, 256, 512, by decide +kernel⟩
  · exact ⟨(sliceSt 1).inc64 (SHM_SL_RDB 7) 9, .mp, 1, by decide +kernel⟩
theorem witness_JariskLinkStatesFollowEvents :
    (∃ (s : State) (q : Req) (p : JPort), (s.devOpen q 6 = true ∧ s.dev.fusedJlk.contains p.val = false) ∧ (s.fb (JLK_CTRL p.val) JLK_CTRL.EN = false ∧ jState p.val s = jsOff)) ∧
    (∃ (s : State) (q : Req) (p : JPort), (s.devOpen q 6 = true ∧ s.dev.fusedJlk.contains p.val = false) ∧ (s.fb (JLK_CTRL p.val) JLK_CTRL.EN = true ∧ jState p.val s = jsDark)) ∧
    (∃ (s : State) (q : Req) (p : JPort), (s.devOpen q 6 = true ∧ s.dev.fusedJlk.contains p.val = false) ∧ (s.fb (JLK_CTRL p.val) JLK_CTRL.EN = true ∧ jState p.val s = jsUp)) ∧
    (∃ (s : State) (q : Req) (p : JPort) (v : Word), (s.devOpen q 6 = true ∧ s.dev.fusedJlk.contains p.val = false) ∧ (jState p.val s = jsUp ∧ bit v.toNat 0 = true)) ∧
    (∃ (s : State) (p : JPort) (wls : BitVec 9), (jState p.val s = jsDark ∧ (s.jp p.val).holdoff = false ∧ s.dev.fusedJlk.contains p.val = false) ∧ (6 ≤ popcount wls.toNat 9)) ∧
    (∃ (s : State) (p : JPort), jState p.val s = jsTrain) ∧
    (∃ (s : State) (p : JPort), jState p.val s = jsTrain) ∧
    (∃ (s : State) (p : JPort), (jState p.val s = jsQualify ∧ 6 ≤ s.fv (JLK_STATUS p.val) JLK_STATUS.WIDTH ∧ qualLanes p.val s = true) ∧ ((s.jp p.val).qualErr = false ∧ (s.jp p.val).held = [])) ∧
    (∃ (s : State) (p : JPort), jState p.val s = jsQualify ∧ (s.fv (JLK_STATUS p.val) JLK_STATUS.WIDTH < 6 ∨ qualLanes p.val s = false ∨ (s.jp p.val).qualErr = true)) ∧
    (∃ (s : State) (p : JPort), jState p.val s = jsUp ∨ jState p.val s = jsSleep) ∧
    (∃ (s : State) (p : JPort), jState p.val s = jsUp ∨ jState p.val s = jsSleep) ∧
    (∃ (s : State) (p : JPort), jState p.val s = jsSleep) ∧
    (∃ (s : State) (p : JPort), (jState p.val s = jsUp ∧ s.fb (JLK_CTRL p.val) JLK_CTRL.SLEEP = true ∧ (s.jp p.val).sleepPeer = true) ∧ ((s.jp p.val).replay = [] ∧ stgRecs (s.jp p.val) = 0 ∧ (s.jp p.val).txReq = [] ∧ (s.jp p.val).txMgt = [] ∧ (s.jp p.val).cur = none ∧ (s.jp p.val).held = [])) ∧
    (∃ (s : State) (p : JPort), jState p.val s = jsSleep ∧ (s.jp p.val).held = []) ∧
    (∃ (s : State) (p : JPort) (c : LCmd) (l : List LCmd), (s.fb (JLK_CTRL p.val) JLK_CTRL.SLEEP = true) ∧ ((s.jp p.val).lcmdIn = c :: l) ∧ (c.cmd = 5)) ∧
    (∃ (s : State) (p : JPort) (c : LCmd) (l : List LCmd), ((s.jp p.val).lcmdIn = c :: l) ∧ (c.cmd = 6)) := by
  refine ⟨?_, ?_, ?_, ?_, ?_, ?_, ?_, ?_, ?_, ?_, ?_, ?_, ?_, ?_, ?_, ?_⟩
  · exact ⟨(jlkIn 0).fs (JLK_CTRL 0) JLK_CTRL.EN 0, .pf, 0, by decide +kernel⟩
  · exact ⟨jlkIn 1, .mp, 0, by decide +kernel⟩
  · exact ⟨jlkSt, .fm, 0, by decide +kernel⟩
  · exact ⟨jlkSt, .pf, 1, 5, by decide +kernel⟩
  · exact ⟨jlkIn 1, 0, 0x3F, by decide +kernel⟩
  · exact ⟨jlkIn 2, 0, by decide +kernel⟩
  · exact ⟨jlkIn 2, 0, by decide +kernel⟩
  · exact ⟨jlkIn 3, 0, by decide +kernel⟩
  · exact ⟨(jlkIn 3).setJp 0 { qualErr := true }, 0, by decide +kernel⟩
  · exact ⟨jlkIn 5, 0, by decide +kernel⟩
  · exact ⟨jlkSt, 0, by decide +kernel⟩
  · exact ⟨jlkIn 5, 0, by decide +kernel⟩
  · exact ⟨(jlkSt.fs (JLK_CTRL 0) JLK_CTRL.SLEEP 1).setJp 0 { sleepPeer := true }, 0, by decide +kernel⟩
  · exact ⟨jlkIn 5, 0, by decide +kernel⟩
  · exact ⟨(jlkSt.fs (JLK_CTRL 0) JLK_CTRL.SLEEP 1).setJp 0 { lcmdIn := [⟨5, 0, 0, 0⟩] }, 0, ⟨5, 0, 0, 0⟩, [], by decide +kernel⟩
  · exact ⟨ready.setJp 3 { lcmdIn := [⟨6, 0, 0, 0⟩] }, 3, ⟨6, 0, 0, 0⟩, [], by decide +kernel⟩
theorem witness_JariskLanesLasersAndFitting :
    (∃ (s : State) (p : JPort) (lane : Fin 8) (why : LaneFault), (jState p.val s = jsUp ∧ lane.val < s.fv (JLK_STATUS p.val) JLK_STATUS.WIDTH ∧ s.fv (JLK_STATUS p.val) JLK_STATUS.SPARE ≠ 15) ∧ (laneBad p.val (bits (s.rd (JLK_LANEMAP p.val)) (4 * lane.val) 4) s why = true) ∧ ((s.jp p.val).change = [])) ∧
    (∃ (s : State) (p : JPort) (lane : Fin 8) (why : LaneFault), laneBad p.val (bits (s.rd (JLK_LANEMAP p.val)) (4 * lane.val) 4) s why = false) ∧
    (∃ (s : State) (p : JPort) (lane : Fin 8) (why : LaneFault), (jState p.val s = jsUp ∧ lane.val < s.fv (JLK_STATUS p.val) JLK_STATUS.WIDTH ∧ s.fv (JLK_STATUS p.val) JLK_STATUS.SPARE = 15) ∧ (laneBad p.val (bits (s.rd (JLK_LANEMAP p.val)) (4 * lane.val) 4) s why = true) ∧ ((s.jp p.val).change = []) ∧ (6 < s.fv (JLK_STATUS p.val) JLK_STATUS.WIDTH)) ∧
    (∃ (s : State) (p : JPort) (lane : Fin 8) (why : LaneFault), (jState p.val s = jsUp ∧ lane.val < s.fv (JLK_STATUS p.val) JLK_STATUS.WIDTH ∧ s.fv (JLK_STATUS p.val) JLK_STATUS.SPARE = 15) ∧ (laneBad p.val (bits (s.rd (JLK_LANEMAP p.val)) (4 * lane.val) 4) s why = true) ∧ ((s.jp p.val).change = []) ∧ (s.fv (JLK_STATUS p.val) JLK_STATUS.WIDTH ≤ 6)) ∧
    (∃ (s : State) (p : JPort) (c : LCmd) (l : List LCmd), (jState p.val s = jsUp) ∧ ((s.jp p.val).lcmdIn = c :: l) ∧ (c.cmd = 1)) ∧
    (∃ (s : State) (p : JPort) (c : LCmd) (l : List LCmd), (jState p.val s = jsUp) ∧ ((s.jp p.val).lcmdIn = c :: l) ∧ (c.cmd = 2)) ∧
    (∃ (s : State) (p : JPort) (d : LCmd) (l : List LCmd) (c : LaneChg), ((s.jp p.val).change = [c] ∧ c.rx = true ∧ c.swap = true ∧ c.lane = d.lane) ∧ ((s.jp p.val).lcmdIn = d :: l) ∧ (d.cmd = 3)) ∧
    (∃ (s : State) (p : JPort) (d : LCmd) (l : List LCmd) (c : LaneChg), ((s.jp p.val).change = [c] ∧ c.rx = true ∧ c.swap = false ∧ c.lane = d.lane) ∧ ((s.jp p.val).lcmdIn = d :: l) ∧ (d.cmd = 4)) ∧
    (∃ (s : State) (p : JPort) (c : LaneChg), jState p.val s = jsUp ∧ (s.jp p.val).change = [c] ∧ c.cwn = (s.jp p.val).rxN % 4096 ∧ c.rx = true ∧ c.swap = true ∧ c.lane < 8 ∧ c.wl < 9) ∧
    (∃ (s : State) (p : JPort) (c : LaneChg), (jState p.val s = jsUp ∧ (s.jp p.val).change = [c] ∧ c.cwn = (s.jp p.val).rxN % 4096 ∧ c.rx = true ∧ c.swap = false ∧ c.lane < 8) ∧ (0 < s.fv (JLK_STATUS p.val) JLK_STATUS.WIDTH)) ∧
    (∃ (s : State) (w : Fin 9), bit (s.fv JLK_LASER (if bit (s.fv JLK_LASER JLK_LASER.BANK) w.val then JLK_LASER.AFAULT else JLK_LASER.BFAULT)) w.val = false) ∧
    (∃ (s : State) (w : Fin 9), bit (s.fv JLK_LASER (if bit (s.fv JLK_LASER JLK_LASER.BANK) w.val then JLK_LASER.AFAULT else JLK_LASER.BFAULT)) w.val = true) ∧
    (∃ (s : State) (p : JPort), s.fb (JLK_FIT p.val) JLK_FIT.EN = true) := by
  refine ⟨?_, ?_, ?_, ?_, ?_, ?_, ?_, ?_, ?_, ?_, ?_, ?_, ?_⟩
  · exact ⟨jlkSt.fs (JLK_STATUS 0) JLK_STATUS.SPARE 8, 0, 3, .cdr, by decide +kernel⟩
  · exact ⟨jlkSt, 0, 3, .symbols, by decide +kernel⟩
  · exact ⟨jlkSt, 0, 3, .cdr, by decide +kernel⟩
  · exact ⟨jlkSt.fs (JLK_STATUS 0) JLK_STATUS.WIDTH 6, 0, 3, .heater, by decide +kernel⟩
  · exact ⟨jlkSt.setJp 0 { lcmdIn := [⟨1, 3, 8, 100⟩] }, 0, ⟨1, 3, 8, 100⟩, [], by decide +kernel⟩
  · exact ⟨jlkSt.setJp 0 { lcmdIn := [⟨2, 3, 0, 100⟩] }, 0, ⟨2, 3, 0, 100⟩, [], by decide +kernel⟩
  · exact ⟨jlkSt.setJp 0 { change := [⟨true, true, 3, 8, 90⟩], lcmdIn := [⟨3, 3, 8, 100⟩] }, 0, ⟨3, 3, 8, 100⟩, [], ⟨true, true, 3, 8, 90⟩, by decide +kernel⟩
  · exact ⟨jlkSt.setJp 0 { change := [⟨true, false, 3, 0, 90⟩], lcmdIn := [⟨4, 3, 0, 100⟩] }, 0, ⟨4, 3, 0, 100⟩, [], ⟨true, false, 3, 0, 90⟩, by decide +kernel⟩
  · exact ⟨jlkSt.setJp 0 { change := [⟨true, true, 7, 8, 100⟩], rxN := 100 }, 0, ⟨true, true, 7, 8, 100⟩, by decide +kernel⟩
  · exact ⟨jlkSt.setJp 0 { change := [⟨true, false, 3, 0, 100⟩], rxN := 4196 }, 0, ⟨true, false, 3, 0, 100⟩, by decide +kernel⟩
  · exact ⟨jlkSt.wr JLK_LASER 8, 3, by decide +kernel⟩
  · exact ⟨(jlkSt.fs JLK_LASER JLK_LASER.AFAULT 8).fs JLK_LASER JLK_LASER.BFAULT 8, 3, by decide +kernel⟩
  · exact ⟨jlkSt.fs (JLK_FIT 0) JLK_FIT.EN 1, 0, by decide +kernel⟩
theorem witness_JariskGroupsRecordsAndTables :
    (∃ (s : State) (p : JPort), jState p.val s ≠ jsUp ∧ jState p.val s ≠ jsQualify) ∧
    (∃ (s : State) (p : JPort) (cw : List (List (Fin 4))) (w : Nat) (raw : List Nat), (jState p.val s = jsUp ∧ s.fv (JLK_STATUS p.val) JLK_STATUS.WIDTH = w ∧ w ≠ 0 ∧ (s.jp p.val).change = []) ∧ (raw = collect w (s.jp p.val).rxPos ((List.range w).map fun l => symsOfPam ((cw.getD (bits (s.rd (JLK_LANEMAP p.val)) (4 * l) 4) []).map (·.val)))) ∧ (raw = alignCw w (s.jp p.val).rxPos)) ∧
    (∃ (s : State) (p : JPort) (cw : List (List (Fin 4))) (w : Nat) (raw : List Nat) (syms : List Nat) (fixed : List Nat), (jState p.val s = jsUp ∧ s.fv (JLK_STATUS p.val) JLK_STATUS.WIDTH = w ∧ w ≠ 0 ∧ (s.jp p.val).change = []) ∧ (raw = collect w (s.jp p.val).rxPos ((List.range w).map fun l => symsOfPam ((cw.getD (bits (s.rd (JLK_LANEMAP p.val)) (4 * l) 4) []).map (·.val)))) ∧ (raw ≠ alignCw w (s.jp p.val).rxPos) ∧ (rsDecode raw = some (syms, fixed)) ∧ ((s.jp p.val).rxN % 2 = 1)) ∧
    (∃ (s : State) (p : JPort) (cw : List (List (Fin 4))) (w : Nat) (raw : List Nat) (syms : List Nat) (fixed : List Nat), (jState p.val s = jsUp ∧ s.fv (JLK_STATUS p.val) JLK_STATUS.WIDTH = w ∧ w ≠ 0 ∧ (s.jp p.val).change = []) ∧ (raw = collect w (s.jp p.val).rxPos ((List.range w).map fun l => symsOfPam ((cw.getD (bits (s.rd (JLK_LANEMAP p.val)) (4 * l) 4) []).map (·.val)))) ∧ (raw ≠ alignCw w (s.jp p.val).rxPos) ∧ (rsDecode raw = some (syms, fixed)) ∧ ((s.jp p.val).rxN % 2 = 0) ∧ ((s.jp p.val).rxSync = true) ∧ (groupOk (s.jp p.val).rxSlots ((cwSlots (descramble (s.jp p.val).rxScr (symsMsg syms)).1).headD (0, [])) = false)) ∧
    (∃ (s : State) (p : JPort) (l : List (Nat × List Byte)) (lcf : Nat × List Byte), (jState p.val s = jsUp ∧ (s.jp p.val).rxSync = true ∧ (s.jp p.val).rxBad = false ∧ (s.jp p.val).nakOwed = false) ∧ (groupOk l lcf = true ∧ l.all (fun y => y.1 == slIdle) = true ∧ (s.jp p.val).rxNext = some (s.jp p.val).rxExp) ∧ (bit (leNat (lcf.2.take 4)) 24 = false)) ∧
    (∃ (s : State) (p : JPort), (s.jp p.val).nakOwed = false) ∧
    (∃ (s : State) (p : JPort), (s.jp p.val).evStage ≠ []) ∧
    (∃ (s : State) (p : JPort) (l : List LRec) (m : List (List LRec)), ((s.jp p.val).evOut = l :: m ∧ l.all (fun r => r.src == none) = true ∧ (s.jp p.val).replay.length < 2048 ∧ jCredit p.val chEVT s ≠ 0) ∧ ((s.jp p.val).cur = none ∧ (s.jp p.val).txMgt = [] ∧ (s.jp p.val).txReq = [] ∧ (s.jp p.val).fenceIn = [])) ∧
    (∃ (s : State) (p : JPort) (w0 : Nat) (w1 : Nat) (d : Nat) (e : Nat) (last : Bool) (fixed : Bool) (l : List (Nat × Nat × Bool)), ((s.jp p.val).rxEv = (w0, w1, last) :: l ∧ secDec 57 (w0 % 2 ^ 57) (bits w0 57 7) = (some d, fixed) ∧ bit d 56 = true ∧ isMine (bits d 0 16) s = true) ∧ (rdRank (bits d 28 4) (bits d 16 12) s = (e, s) ∧ rkValid e = true ∧ (ownRank (bits d 28 4) s).isSome = true) ∧ (s.fb (DNET_BLK (bits w1 48 12 / 16)) DNET_BLK.VALID = true ∧ s.fb (DNET_BLK (bits w1 48 12 / 16)) DNET_BLK.IVAL = true ∧ s.fv (DNET_BLK (bits w1 48 12 / 16)) DNET_BLK.INST = bits d 28 4 ∧ w1 < 2 ^ 64) ∧ (sget (fun _ => []) (epJlk p.val) s.net.edge = [] ∧ s.net.outs = [])) ∧
    (∃ (s : State) (p : JPort) (w0 : Nat) (w1 : Nat) (last : Bool) (l : List (Nat × Nat × Bool)), (s.jp p.val).rxEv = (w0, w1, last) :: l ∧ (secDec 57 (w0 % 2 ^ 57) (bits w0 57 7)).1 = none) ∧
    (∃ (s : State) (p : JPort) (e : EvtIn) (w : Nat) (k : Nat), (heldOn (s.jp p.val) chEVT = [] ∧ recRoom p.val s = true ∧ (s.jp p.val).evStage.length < 3 ∧ rdRank e.inst.toNat e.rank.toNat s = (w, s) ∧ rkValid w = true ∧ ownRank e.inst.toNat s = some k) ∧ (rkFaddr w ≠ myFaddr s ∧ quenched e.inst.toNat (rkFaddr w) s = none ∧ routeTo (rkFaddr w) s = (some p.val, s))) ∧
    (∃ (s : State) (q : Req) (v : Word) (w : Nat), s.devOpen q 6 = true ∧ bits v.toNat 0 16 < 4096 ∧ rdRank (bits v.toNat 16 4) (bits v.toNat 0 16) s = (w, s)) ∧
    (∃ (s : State) (q : Req) (v : Word), s.devOpen q 6 = true ∧ 4096 ≤ bits v.toNat 0 16) ∧
    (∃ (s : State) (q : Req) (v : Word) (w : Nat), (s.devOpen q 6 = true ∧ bits v.toNat 0 16 < 4096 ∧ rdRank (bits v.toNat 16 4) (bits v.toNat 0 16) s = (w, s) ∧ rkValid w = false) ∧ (s.conf (bits v.toNat 16 4) = false ∧ resetting (bits v.toNat 16 4) s = false ∧ loading (bits v.toNat 16 4) s = false)) ∧
    (∃ (s : State) (q : Req) (v : Word) (w : Nat), s.devOpen q 6 = true ∧ rdRoute (bits v.toNat 0 16) s = (w, s)) ∧
    (∃ (s : State) (q : Req), s.devOpen q 6 = true) ∧
    (∃ (s : State) (q : Req) (p : JPort) (v : Word), s.devOpen q 6 = true ∧ s.dev.fusedJlk.contains p.val = false ∧ bit v.toNat 0 = true) := by
  refine ⟨?_, ?_, ?_, ?_, ?_, ?_, ?_, ?_, ?_, ?_, ?_, ?_, ?_, ?_, ?_, ?_, ?_⟩
  · exact ⟨jlkIn 6, 0, by decide +kernel⟩
  · exact ⟨jlkSt.setJp 0 { rxN := 9 }, 0, ((List.range 8).map fun l => (List.replicate 68 (0x2B0 + l)).flatMap fun y => (pamOf y).map (Fin.ofNat 4)), 8, alignCw 8 0, by decide +kernel⟩
  · exact ⟨jlkSt.setJp 0 { rxN := 9 }, 0, List.replicate 9 (List.replicate 340 0), 8, List.replicate 544 0, List.replicate 544 0, [], by decide +kernel, by decide +kernel, by decide +kernel, rsDecode_zeros 544, by decide +kernel⟩
  · exact ⟨jlkSt.setJp 0 { rxN := 8, rxSync := true }, 0, List.replicate 9 (List.replicate 340 0), 8, List.replicate 544 0, List.replicate 544 0, [], by decide +kernel, by decide +kernel, by decide +kernel, rsDecode_zeros 544, by decide +kernel, by decide +kernel, zero_message_bad⟩
  · exact ⟨jlkSt.setJp 0 { replay := [⟨3, .ev [], 0, 3⟩, ⟨4, .ev [], 0, 4⟩], rxSync := true, rxNext := some 0 }, 0, jlkGroup, (1, jlkLcf 0 3), by decide +kernel⟩
  · exact ⟨jlkSt, 0, by decide +kernel⟩
  · exact ⟨jlkSt.setJp 0 { evStage := [⟨5, 6, none⟩] }, 0, by decide +kernel⟩
  · exact ⟨jlkSt.setJp 0 { evOut := [[⟨5, 6, none⟩]], granted := [(3, 1)] }, 0, [⟨5, 6, none⟩], [], by decide +kernel⟩
  · exact ⟨(jlkSt.fs (DNET_BLK 0) DNET_BLK.VALID 1).setJp 0 { rxEv := [(jlkRec, 9, true)] }, 0, jlkRec, 9, 5 + 2 * 2 ^ 16 + 2 ^ 56, (rdRank 0 2 jlkSt).1, true, false, [], by decide +kernel⟩
  · exact ⟨jlkSt.setJp 0 { rxEv := [(3, 9, false)] }, 0, 3, 9, false, [], by decide +kernel⟩
  · exact ⟨jlkSt, 0, { evtGood with rem := true, rank := 2 }, (rdRank 0 2 jlkSt).1, 1, by decide +kernel⟩
  · exact ⟨jlkSt, .pf, 2, (rdRank 0 2 jlkSt).1, by decide +kernel⟩
  · exact ⟨jlkSt, .pf, 0x1000, by decide +kernel⟩
  · exact ⟨jlkSt.wr (JLK_RANK_DATA 0) 0x100003, .pf, 5, 0, by decide +kernel⟩
  · exact ⟨jlkSt, .fm, 7, (rdRoute 7 jlkSt).1, by decide +kernel⟩
  · exact ⟨jlkSt.wr (JLK_ROUTE_DATA 2) 0x1FFF1, .mp, by decide +kernel⟩
  · exact ⟨jlkSt.inc (JLK_DOWN 0) 4, .pf, 0, 1, by decide +kernel⟩
theorem witness_JariskRemoteRequestsAndManagement :
    (∃ (s : State) (p : JPort) (r : SlReq) (d : List Byte) (w : Nat), (jState p.val s ≠ jsDown ∧ rawBad r d = false ∧ reqWay p.val r s = (.to w p.val, s)) ∧ (heldOn (s.jp p.val) chREQ = [] ∧ canStage p.val chREQ (pkFlits d.length) s = true)) ∧
    (∃ (c : JCur) (a : JAns), c.pkt.ans = some a ∧ c.k + 1 = contFlits c.pkt.c) ∧
    (∃ (s : State) (p : JPort), jState p.val s = jsDown ∧ s.dev.fusedJlk.contains p.val = false ∧ heldOn (s.jp p.val) chREQ = []) ∧
    (∃ (s : State) (p : JPort) (r : SlReq) (d : List Byte), jState p.val s ≠ jsDown ∧ heldOn (s.jp p.val) chREQ = [] ∧ 256 < r.addr.toNat % 256 + d.length) ∧
    (∃ (s : State) (p : JPort) (w0 : Nat) (w1 : Nat) (b : List Byte) (j : InstNo) (a : Nat), (rxMine p.val 2 jkRAW s = some (w0, w1, b) ∧ bits w0 41 4 = j.val ∧ s.fb (JLK_LAND_EN j.val) JLK_LAND_EN.EN = true ∧ (ownRank j.val s).isSome = true) ∧ (bits w0 46 8 + 1 ≤ b.length ∧ bits w1 0 35 + bits w0 46 8 + 1 ≤ s.fv (JLK_LAND_LEN j.val) JLK_LAND_LEN.LEN * 4096) ∧ (a = s.fv (JLK_LAND_BASE j.val) JLK_LAND_BASE.BASE * 4096 + bits w1 0 35 ∧ a < 0x2000000000 ∧ s.memOpen (.vf j) a (.wr (b.take (bits w0 46 8 + 1))) = true)) ∧
    (∃ (s : State) (p : JPort) (w0 : Nat) (w1 : Nat) (b : List Byte), rxMine p.val 2 jkRAW s = some (w0, w1, b) ∧ s.fb (JLK_LAND_EN (bits w0 41 4)) JLK_LAND_EN.EN = false) ∧
    (∃ (s : State) (p : JPort) (r : SlReq) (w : Nat) (n : Fin 32), (jState p.val s ≠ jsDown ∧ bit r.addr.toNat 35 = true ∧ reqWay p.val r s = (.to w p.val, s)) ∧ (heldOn (s.jp p.val) chREQ = [] ∧ canStage p.val chREQ 1 s = true) ∧ (sget (fun _ => none) n.val (s.jp p.val).fences = none ∧ (∀ k : Fin 32, k < n → (sget (fun _ => none) k.val (s.jp p.val).fences).isSome = true))) ∧
    (∃ (s : State) (p : JPort) (q : JPort) (w0 : Nat) (w1 : Nat) (b : List Byte), (rxMine p.val 2 jkRFENCE s = some (w0, w1, b) ∧ routeTo (bits w0 16 16) (rxPop p.val 2 s) = (some q.val, rxPop p.val 2 s)) ∧ (heldOn (s.jp q.val) chREQ = [] ∧ canStage q.val chREQ 1 s = true)) ∧
    (∃ (s : State) (p : JPort) (k : JPort) (n : Fin 32) (w0 : Nat) (w1 : Nat) (b : List Byte) (a : JAns), rxMine p.val 2 jkRFDONE s = some (w0, w1, b) ∧ bits w1 0 12 = 32 * k.val + n.val ∧ sget (fun _ => none) n.val (s.jp k.val).fences = some a) ∧
    (∃ (s : State) (p : JPort) (n : Fin 32) (a : JAns), sget (fun _ => none) n.val (s.jp p.val).fences = some a) ∧
    (∃ (s : State) (p : JPort) (q : JPort) (w0 : Nat) (w1 : Nat) (b : List Byte), (rxMine p.val 0 jkFM s = some (w0, w1, b) ∧ s.fb (JLK_CTRL p.val) JLK_CTRL.FM_EN = true ∧ b.length = 16 ∧ fmOk b = true ∧ bits (imgW b 0) 0 2 = 3) ∧ (routeTo (bits w0 16 16) (rxPop p.val 0 s) = (some q.val, rxPop p.val 0 s)) ∧ (q ≠ p ∧ (s.jp q.val).txMgt = [] ∧ heldOn (s.jp q.val) chMGT = [] ∧ canStage q.val chMGT 1 s = true)) ∧
    (∃ (s : State) (p : JPort) (w0 : Nat) (w1 : Nat) (b : List Byte), rxMine p.val 0 jkFM s = some (w0, w1, b) ∧ s.fb (JLK_CTRL p.val) JLK_CTRL.FM_EN = false) ∧
    (∃ (s : State) (p : JPort) (q : JPort) (w0 : Nat) (w1 : Nat) (b : List Byte), (rxMine p.val 0 jkSRM s = some (w0, w1, b) ∧ s.fb (JLK_CTRL p.val) JLK_CTRL.FM_EN = true ∧ 32 ≤ b.length ∧ pkFlits b.length = 1) ∧ (bits (imgW b 0) 0 4 = 2 ∧ bits (imgW b 0) 4 4 = 0 ∧ bits (imgW b 0) 8 4 = q.val ∧ s.dev.fusedJlk.contains q.val = false) ∧ (q ≠ p ∧ (s.jp q.val).txMgt = [] ∧ heldOn (s.jp q.val) chMGT = [] ∧ canStage q.val chMGT 1 s = true)) := by
  refine ⟨?_, ?_, ?_, ?_, ?_, ?_, ?_, ?_, ?_, ?_, ?_, ?_, ?_⟩
  · exact ⟨jlkSt, 0, jlkReq 0x10, [1, 2, 3], (rdRank 0 2 jlkSt).1, by decide +kernel⟩
  · exact ⟨⟨2, ⟨.pk 5 6 [1, 2, 3], 0, some ⟨1, 0, 0, 9⟩⟩, 0, 0⟩, ⟨1, 0, 0, 9⟩, by decide +kernel⟩
  · exact ⟨jlkIn 6, 0, by decide +kernel⟩
  · exact ⟨ready, default, jlkReq 0xFF, [1, 2, 3], by decide +kernel⟩
  · exact ⟨jlkRx 2 1 0x20 [7, 8] (((jlkSt.wr (JLK_LAND_EN 0) 1).wr (JLK_LAND_LEN 0) 1).fs (MEMC_WIN 0) MEMC_WIN.LEN 1 |>.fs (MEMC_WIN 0) MEMC_WIN.EN 1), 0, jlkW0 2 1 2, jpSeal (jlkW0 2 1 2) 0x20, [7, 8], 0, 0x20, by decide +kernel⟩
  · exact ⟨jlkRx 2 1 0x20 [7, 8] jlkSt, 0, jlkW0 2 1 2, jpSeal (jlkW0 2 1 2) 0x20, [7, 8], by decide +kernel⟩
  · exact ⟨jlkSt.setJp 0 { fences := [(0, some ⟨1, 0, 0, 0⟩)] }, 0, jlkReq (2 ^ 35), (rdRank 0 2 jlkSt).1, 1, by decide +kernel⟩
  · exact ⟨jlkRx 2 2 4 [] (jlkSt.setJp 0 {}), 0, 0, jlkW0 2 2 0, jpSeal (jlkW0 2 2 0) 4, [], by decide +kernel⟩
  · exact ⟨jlkRx 2 3 37 [] (jlkSt.setJp 1 { fences := [(5, some ⟨1, 0, 0, 9⟩)] }), 0, 1, 5, jlkW0 2 3 0, jpSeal (jlkW0 2 3 0) 37, [], ⟨1, 0, 0, 9⟩, by decide +kernel⟩
  · exact ⟨jlkSt.setJp 0 { fences := [(31, some ⟨1, 0, 0, 9⟩)] }, 0, 31, ⟨1, 0, 0, 9⟩, by decide +kernel⟩
  · exact ⟨jlkRx 0 6 0 (fmRecord 3 9 0 0 0) ((wrRoute 7 (0xFFF1 + 2 ^ 16) jlkSt).setJp 1 {}), 0, 1, jlkW0 0 6 16, jpSeal (jlkW0 0 6 16) 0, fmRecord 3 9 0 0 0, by decide +kernel⟩
  · exact ⟨(jlkRx 0 6 0 (fmRecord 3 9 0 0 0) jlkSt).wr (JLK_CTRL 0) 1, 0, jlkW0 0 6 16, jpSeal (jlkW0 0 6 16) 0, fmRecord 3 9 0 0 0, by decide +kernel⟩
  · exact ⟨jlkRx 0 7 0 (leBytes 8 (2 + 1 * 2 ^ 8 + 3 * 2 ^ 12) ++ List.replicate 24 5) (jlkSt.setJp 1 {}), 0, 1, jlkW0 0 7 32, jpSeal (jlkW0 0 7 32) 0, leBytes 8 (2 + 1 * 2 ^ 8 + 3 * 2 ^ 12) ++ List.replicate 24 5, by decide +kernel⟩
theorem witness_JariskSyncQuenchAndReroute :
    (∃ (s : State) (p : JPort) (w0 : Nat) (w1 : Nat) (i : Nat) (n : Nat) (a : Nat) (c : Nat) (b : List Byte), (rxMine p.val 0 jkSYNC s = some (w0, w1, b)) ∧ (syncRecv (leNat (b.take 8)) (leNat ((b.drop 8).take 8)) s = (some (0xB, i, n, a), s)) ∧ (ownRank (bits w0 41 4) s = some (bits n 18 12) ∧ s.pcidOf (bits n 0 18 / 64) = some c ∧ qInst c s ≠ some (bits w0 41 4))) ∧
    (∃ (s : State) (p : JPort) (w0 : Nat) (w1 : Nat) (b : List Byte), (rxMine p.val 0 jkSYNC s = some (w0, w1, b)) ∧ ((secDec 120 (leNat (b.take 8) % 2 ^ 56 + leNat ((b.drop 8).take 8) % 2 ^ 64 * 2 ^ 56) (bits (leNat (b.take 8)) 56 8)).1 = none)) ∧
    (∃ (s : State) (p : JPort) (j : InstNo) (t0 : Nat) (scl : Nat) (l : List Nat), (s.jp p.val).rbkOut = [(j.val, t0, scl, l)] ∧ (s.cluster scl).rewind = none) ∧
    (∃ (s : State) (p : JPort) (w0 : Nat) (w1 : Nat) (b : List Byte), (rxMine p.val 0 jkQUENCH s = some (w0, w1, b) ∧ s.fb (JLK_CTRL p.val) JLK_CTRL.FM_EN = true ∧ bits (leNat (b.take 4)) 16 2 = 0) ∧ ((∀ k : JPort, (s.jp k.val).held = []))) ∧
    (∃ (s : State) (j : InstNo) (v : Nat) (l : Nat), (sget (fun _ => (0, 0)) j.val s.jdev.qInst = (v, l) ∧ v ≠ 0 ∧ l ≠ 0) ∧ ((∀ k : JPort, (s.jp k.val).held = []))) ∧
    (∃ (s : State) (a : BitVec 16), (s.jdev.qTgt.any (fun y => y.1 == a.toNat && y.2.2 != 0) = true) ∧ ((∀ k : JPort, (s.jp k.val).held = []))) ∧
    (∃ (s : State) (p : JPort) (q : JPort) (w0 : Nat) (w1 : Nat) (b : List Byte), (rxMine p.val 0 jkLDN s = some (w0, w1, b) ∧ jState q.val s = jsUp) ∧ (s.fb (JLK_PEER q.val) JLK_PEER.VALID = true ∧ s.fv (JLK_PEER q.val) JLK_PEER.FADDR = bits w0 16 16 ∧ s.fv (JLK_PEER q.val) JLK_PEER.PORT = bits (leNat (b.take 2)) 12 4) ∧ ((∀ k : JPort, k < q → (s.fb (JLK_PEER k.val) JLK_PEER.VALID && s.fv (JLK_PEER k.val) JLK_PEER.FADDR == bits w0 16 16 && s.fv (JLK_PEER k.val) JLK_PEER.PORT == bits (leNat (b.take 2)) 12 4) = false))) ∧
    (∃ (s : State) (p : JPort), jState p.val s = jsDown ∧ (s.jp p.val).rerouted = false) ∧
    (∃ (s : State) (p : JPort), jState p.val s = jsDown ∧ (s.jp p.val).rerouted = true ∧ (s.jp p.val).held = []) := by
  refine ⟨?_, ?_, ?_, ?_, ?_, ?_, ?_, ?_, ?_⟩
  · exact ⟨jlkRx 0 4 0 (syncBytes 0xB 0 0x40000 88 ++ [1, 0]) ((jlkSt.fs (DNET_BLK 0) DNET_BLK.INST 5).fs (DNET_BLK 0) DNET_BLK.VALID 1), 0, jlkW0 0 4 18, jpSeal (jlkW0 0 4 18) 0, 0, 0x40000, 88, 0, syncBytes 0xB 0 0x40000 88 ++ [1, 0], by decide +kernel⟩
  · exact ⟨jlkRx 0 4 0 (8 :: (syncBytes 0xB 0 77 88).drop 1 ++ [1, 0]) jlkSt, 0, jlkW0 0 4 18, jpSeal (jlkW0 0 4 18) 0, 8 :: (syncBytes 0xB 0 77 88).drop 1 ++ [1, 0], by decide +kernel⟩
  · exact ⟨jlkSt.setJp 0 { rbkOut := [(3, 9, 5, [1, 2])] }, 0, 3, 9, 5, [1, 2], by decide +kernel⟩
  · exact ⟨jlkRx 0 5 0 [0, 0, 4, 0, 9, 0] jlkSt, 0, jlkW0 0 5 6, jpSeal (jlkW0 0 5 6) 0, [0, 0, 4, 0, 9, 0], by decide +kernel⟩
  · exact ⟨{ jlkSt with jdev := { jlkSt.jdev with qInst := [(2, (1, 9))] } }, 2, 1, 9, by decide +kernel⟩
  · exact ⟨{ jlkSt with jdev := { jlkSt.jdev with qTgt := [(7, true, 9), (8, true, 0)] } }, 7, by decide +kernel⟩
  · exact ⟨jlkRx 0 8 0 [3, 0] jlkSt, 0, 0, jlkW0 0 8 2, jpSeal (jlkW0 0 8 2) 0, [3, 0], by decide +kernel⟩
  · exact ⟨jlkIn 6, 0, by decide +kernel⟩
  · exact ⟨(jlkIn 6).setJp 0 { rerouted := true, evStage := [⟨jlkRec, 1, none⟩] }, 0, by decide +kernel⟩
theorem witness_HostAccessesRingsAndIngress :
    (∃ (s : State) (x : BitVec 39) (d : List Byte), (bar2Log 0 s = 39 ∧ s.devState ≠ dsStandby ∧ s.devState ≠ dsBringup) ∧ (d ≠ [] ∧ x.toNat % 64 + d.length ≤ 64 ∧ x.toNat < 0x2000000000 ∧ s.memOpen .pf x.toNat (.wr d) = true)) ∧
    (∃ (s : State) (x : BitVec 39) (n : Nat), (bar2Log 0 s = 39 ∧ s.devState ≠ dsStandby ∧ s.devState ≠ dsBringup) ∧ (n ≠ 0 ∧ x.toNat % 64 + n ≤ 64 ∧ x.toNat < 0x2000000000 ∧ s.memOpen .pf x.toNat (.rd n) = true)) ∧
    (∃ (s : State) (f : Fin 17) (x : BitVec 39) (n : Nat), f ≠ 0 ∧ s.tdiErr f.val = true ∧ 0 < n ∧ x.toNat + n ≤ 2 ^ bar2Log f.val s) ∧
    (∃ (s : State) (q : Req) (f : Fin 17) (k : Fin 8) (v : Word), (s.fnOpen q f.val = true ∧ s.fb (RING_CFG f.val k.val) RING_CFG.EN = false ∧ (s.ring (8 * f.val + k.val)).pend = []) ∧ (1 ≤ bits v.toNat 1 3 ∧ bits v.toNat 1 3 ≤ 4 ∧ 6 ≤ bits v.toNat 4 5 ∧ bits v.toNat 4 5 ≤ 16 ∧ s.rd64 (RING_BASE f.val k.val) % 4096 = 0 ∧ bits v.toNat 16 6 ≤ 5)) ∧
    (∃ (s : State) (f : Fin 17) (k : Fin 8) (v : Word), (s.tdiErr f.val = false ∧ s.fv (RING_CFG f.val k.val) RING_CFG.TYPE = tyEV) ∧ ((v.toNat + 2 ^ 32 - s.rd (RING_HIDX f.val k.val)) % 2 ^ 32 ≤ rgSize (8 * f.val + k.val) s ∧ (v.toNat + 2 ^ 32 - s.rd (RING_DIDX f.val k.val)) % 2 ^ 32 ≤ rgSize (8 * f.val + k.val) s)) ∧
    (∃ (s : State) (f : Fin 17) (k : Fin 8) (v : Word), s.tdiErr f.val = false ∧ rgSize (8 * f.val + k.val) s < (v.toNat + 2 ^ 32 - s.rd (RING_HIDX f.val k.val)) % 2 ^ 32) ∧
    (∃ (s : State) (f : Fin 17) (k : Fin 8), (s.ring (8 * f.val + k.val)).unsig ≠ 0 ∧ s.fv (RING_MOD f.val k.val) RING_MOD.CNT ≠ 0 ∧ s.fv (RING_MOD f.val k.val) RING_MOD.US ≠ 0) ∧
    (∃ (s : State) (j : InstNo) (f : Fin 17) (k : Fin 8) (w0 : DWord) (w1 : DWord) (e : Nat), (f.val = j.val + 1 ∧ rgOn (8 * f.val + k.val) tyEV s = true ∧ s.rd (RING_DIDX f.val k.val) ≠ s.rd (RING_HIDX f.val k.val) ∧ (s.ring (8 * f.val + k.val)).wait = none ∧ resetting j.val s = false) ∧ (s.fv (STEP_STATUS j.val) STEP_STATUS.STATE = 1 ∧ bits w1.toNat 1 2 = 1 ∧ (bits w0.toNat 60 4 < 2 ∨ bits w0.toNat 60 4 = 3)) ∧ (e = setBits w0.toNat 22 6 (evtChk w0.toNat) ∧ s.fb (DNET_BLK (bits e 48 12 / 16)) DNET_BLK.VALID = true ∧ s.fb (DNET_BLK (bits e 48 12 / 16)) DNET_BLK.IVAL = true ∧ s.fv (DNET_BLK (bits e 48 12 / 16)) DNET_BLK.INST = j.val) ∧ (sget (fun _ => []) (epPort 12) s.net.edge = [] ∧ s.net.outs = [])) ∧
    (∃ (s : State) (j : InstNo) (f : Fin 17) (k : Fin 8) (w0 : Nat) (w1 : Nat), (f.val = j.val + 1 ∧ rgOn (8 * f.val + k.val) tyEV s = true ∧ (s.ring (8 * f.val + k.val)).wait = some (w0, w1) ∧ resetting j.val s = false) ∧ (s.fv (STEP_STATUS j.val) STEP_STATUS.STATE = 1 ∧ bit w1 2 = false ∧ 5 ≤ bits w0 60 4)) ∧
    (∃ (s : State) (j : InstNo) (f : Fin 17) (k : Fin 8) (w0 : Nat) (w1 : Nat) (e : Nat), (f.val = j.val + 1 ∧ rgOn (8 * f.val + k.val) tyEV s = true ∧ (s.ring (8 * f.val + k.val)).wait = some (w0, w1) ∧ resetting j.val s = false) ∧ (s.fv (STEP_STATUS j.val) STEP_STATUS.STATE = 1 ∧ bits w1 1 2 = 1 ∧ bits w0 60 4 < 2 ∧ w0 < 2 ^ 64) ∧ (e = setBits w0 22 6 (evtChk w0) ∧ s.fb (DNET_BLK (bits e 48 12 / 16)) DNET_BLK.VALID = true ∧ s.fb (DNET_BLK (bits e 48 12 / 16)) DNET_BLK.IVAL = true ∧ s.fv (DNET_BLK (bits e 48 12 / 16)) DNET_BLK.INST = j.val) ∧ (sget (fun _ => []) (epPort 12) s.net.edge = [] ∧ s.net.outs = [])) ∧
    (∃ (s : State) (q : Req) (v : Word), s.devOpen q 6 = true ∧ bit v.toNat 0 = true) := by
  refine ⟨?_, ?_, ?_, ?_, ?_, ?_, ?_, ?_, ?_, ?_, ?_⟩
  · exact ⟨ready, 0x13F, [1], by decide +kernel⟩
  · exact ⟨ready, 0x100, 64, by decide +kernel⟩
  · exact ⟨ready.fs (SEC_INST 0) SEC_INST.TDI 3, 1, 0, 4, by decide +kernel⟩
  · exact ⟨ready, .pf, 3, 7, 0x64, by decide +kernel⟩
  · exact ⟨hostSt 1 1, 1, 0, 64, by decide +kernel⟩
  · exact ⟨hostSt 1 1, 1, 0, 65, by decide +kernel⟩
  · exact ⟨((hostSt 0 2).wr (RING_MOD 0 0) 0x50003).setRing 0 { unsig := 2 }, 0, 0, by decide +kernel⟩
  · exact ⟨(hostSt 1 1).wr (RING_HIDX 1 0) 3, 0, 1, 0, 0x300000007, 2, setBits 0x300000007 22 6 (evtChk 0x300000007), by decide +kernel⟩
  · exact ⟨(hostSt 1 1).setRing 8 { wait := some (5 * 2 ^ 60, 0) }, 0, 1, 0, 5 * 2 ^ 60, 0, by decide +kernel⟩
  · exact ⟨(hostSt 1 1).setRing 8 { wait := some (0x300000007, 2) }, 0, 1, 0, 0x300000007, 2, setBits 0x300000007 22 6 (evtChk 0x300000007), by decide +kernel⟩
  · exact ⟨ready.inc (HOST_EV_BAD 3) 5, .pf, 1, by decide +kernel⟩
theorem witness_EgressIsBoundStagedAndReleased :
    (∃ (s : State) (q : Req) (j : InstNo) (v : Word), s.instOpen q j.val = true ∧ isVf q = false ∧ bits v.toNat 16 8 ≠ 0 ∧ (otherKeys (some j.val) none s).contains (4096 * j.val + bits v.toNat 0 12) = false ∧ s.egrHeld 0 = []) ∧
    (∃ (s : State) (e : Fin 3) (x : EvtIn), s.egrHeld e.val = [] ∧ resetting x.inst.toNat s = false ∧ egrHolds e.val x.inst.toNat s < egrLimit e.val x.inst.toNat s ∧ (s.stage 0).length < 65536) ∧
    (∃ (s : State) (e : Fin 3) (x : EvtIn), s.egrHeld e.val = [] ∧ resetting x.inst.toNat s = false ∧ egrLimit e.val x.inst.toNat s ≤ egrHolds e.val x.inst.toNat s ∧ s.fb (HOST_EGR x.inst.toNat) HOST_EGR.HOLD = false) ∧
    (∃ (s : State) (e : Fin 3) (x : EvtIn), s.egrHeld e.val = [] ∧ resetting x.inst.toNat s = false ∧ egrLimit e.val x.inst.toNat s ≤ egrHolds e.val x.inst.toNat s ∧ s.fb (HOST_EGR x.inst.toNat) HOST_EGR.HOLD = true) ∧
    (∃ (s : State) (j : InstNo) (n : Nat) (e : Nat) (c : Nat) (l : List (Nat × Nat)) (x : EgrEnt), ((s.inst j.val).closeT = (n, e) :: l ∧ (s.inst j.val).committed = some c ∧ n ≤ c ∧ presentT2 j.val n s ≤ 2 * s.now + 1) ∧ (s.stage 0 = [x] ∧ x.inst = j.val ∧ x.sstep5 = n % 32 ∧ x.scl < 64 ∧ s.stage 1 = [] ∧ s.stage 2 = [] ∧ (s.inst j.val).late.contains n = false ∧ ∀ k : Fin 3, s.egrHeld k.val = []) ∧ (rgOn (egrRing j.val s) tyER s = true ∧ (s.ring (egrRing j.val s)).pend = [] ∧ s.fb (rgCfg (egrRing j.val s)) RING_CFG.MARK = false ∧ s.fv (RING_MOD (egrRing j.val s / 8) (egrRing j.val s % 8)) RING_MOD.CNT = 0) ∧ (s.rd (rgD (egrRing j.val s)) = s.rd (rgH (egrRing j.val s)) ∧ boundPorts j.val s = [] ∧ egrWord x < 2 ^ 52)) ∧
    (∃ (s : State) (p : EPort), s.fv (ETH_EGR p.val) ETH_EGR.FLUSH = 1 ∧ (s.eth p.val).recs ≠ [] ∧ (s.eth p.val).dgrams = [] ∧ ethCanSend p.val s = true) := by
  refine ⟨?_, ?_, ?_, ?_, ?_, ?_⟩
  · exact ⟨ready, .pf, 3, 0x12345, by decide +kernel⟩
  · exact ⟨hostSt 1 2, 0, evtGood, by decide +kernel⟩
  · exact ⟨(hostSt 1 2).fs (HOST_EGR 0) HOST_EGR.MAXK 0, 0, evtGood, by decide +kernel⟩
  · exact ⟨((hostSt 1 2).fs (HOST_EGR 0) HOST_EGR.MAXK 0).fs (HOST_EGR 0) HOST_EGR.HOLD 1, 0, evtGood, by decide +kernel⟩
  · exact ⟨egrSt, 0, 5, 100, 5, [], ⟨0, 3, 4, false, 9, 5, 2⟩, by decide +kernel⟩
  · exact ⟨(ethUp.fs (ETH_EGR 0) ETH_EGR.FLUSH 1).setEth 0 { recs := [⟨5, 50, 7⟩] }, 0, by decide +kernel⟩
theorem witness_EthernetPortsReceiveAndEncode :
    (∃ (s : State) (p : EPort) (b : List Byte), (s.fb (ETH_CTRL p.val) ETH_CTRL.EN = true ∧ s.fb (ETH_STATUS p.val) ETH_STATUS.UP = true ∧ 60 ≤ b.length ∧ b.length ≤ 9212 ∧ ethPass p.val b s = true) ∧ (rxLevel p.val s + b.length ≤ s.fv (ETH_PAUSE p.val) ETH_PAUSE.XOFF * 1024 ∧ rxLevel p.val s + b.length ≤ 524288 ∧ (s.eth p.val).xoff = false ∧ s.fv TIME_CTRL TIME_CTRL.SRC ≠ 1 + p.val)) ∧
    (∃ (s : State) (p : EPort), s.fb (ETH_CTRL p.val) ETH_CTRL.EN = true ∧ s.fb (ETH_STATUS p.val) ETH_STATUS.UP = true) ∧
    (∃ (s : State) (p : EPort) (b : List Byte), s.fb (ETH_CTRL p.val) ETH_CTRL.EN = true ∧ s.fb (ETH_STATUS p.val) ETH_STATUS.UP = true ∧ 60 ≤ b.length ∧ b.length ≤ 9212 ∧ ethPass p.val b s = false) ∧
    (∃ (s : State) (p : EPort) (b : List Byte), (s.fb (ETH_CTRL p.val) ETH_CTRL.EN = true ∧ s.fb (ETH_STATUS p.val) ETH_STATUS.UP = true ∧ 60 ≤ b.length ∧ b.length ≤ 9212 ∧ ethPass p.val b s = true) ∧ (s.fv (ETH_PAUSE p.val) ETH_PAUSE.XOFF * 1024 < rxLevel p.val s + b.length ∧ rxLevel p.val s + b.length ≤ 524288 ∧ (s.eth p.val).xoff = false ∧ s.fb (ETH_CTRL p.val) ETH_CTRL.PTX = true)) ∧
    (∃ (s : State) (p : EPort) (n : BitVec 16), s.fb (ETH_CTRL p.val) ETH_CTRL.EN = true ∧ s.fb (ETH_CTRL p.val) ETH_CTRL.PRX = true ∧ n ≠ 0) ∧
    (∃ (s : State) (p : EPort), (s.eth p.val).dgrams = []) ∧
    (∃ (s : State) (p : EPort), (s.eth p.val).xoff = true ∧ s.fv (ETH_PAUSE p.val) ETH_PAUSE.XON * 1024 ≤ rxLevel p.val s ∧ s.fb (ETH_CTRL p.val) ETH_CTRL.PTX = true) ∧
    (∃ (s : State) (p : EPort), s.fb (ETH_CTRL p.val) ETH_CTRL.EN = true ∧ sget (fun _ => 0) p.val s.mgmt.cage ≠ 2 ∧ (s.eth p.val).dgrams = []) ∧
    (∃ (s : State) (p : EPort) (b : List Byte) (ts : Nat) (l : List (List Byte × Nat)), (s.eth p.val).rx = (b, ts) :: l ∧ s.fb (ETH_OWN p.val) ETH_OWN.VALID = false ∧ (s.eth p.val).xoff = false ∧ s.fb (ETH_CTRL p.val) ETH_CTRL.PTX = false) ∧
    (∃ (s : State) (p : EPort) (b : List Byte) (ts : Nat) (l : List (List Byte × Nat)) (j : Nat) (e : Nat) (xs : List Nat) (x : EncSt), ((s.eth p.val).rx = (b, ts) :: l ∧ s.fb (ETH_OWN p.val) ETH_OWN.VALID = true ∧ j = s.fv (ETH_OWN p.val) ETH_OWN.INST ∧ s.fv (STEP_STATUS j) STEP_STATUS.STATE = 1 ∧ s.fb (ETH_ENC_CTRL p.val) ETH_ENC_CTRL.EN = true ∧ s.fb (ETH_CTRL p.val) ETH_CTRL.PTX = false) ∧ (s.fb (ETH_MATCH p.val 0) ETH_MATCH.EN = true ∧ s.fv (ETH_MATCH p.val 0) ETH_MATCH.MASK = 0 ∧ s.fv (ETH_MATCH p.val 0) ETH_MATCH.VALUE = 0) ∧ (xs = (List.range 16).map (fun k => (extract p.val k b (frParse b) s).1) ∧ ((List.range 16).any (fun k => (extract p.val k b (frParse b) s).2)) = false) ∧ (x = encRun (fun k => s.rd (ETH_PROG p.val k)) 64 (s.fv (ETH_MATCH p.val 0) ETH_MATCH.START) ⟨xs, List.replicate 8 0, false, [b.length, (frParse b).flags, ts % 2 ^ 32, ts / 2 ^ 32 % 2 ^ 32, p.val], [], false⟩ ∧ x.out = [e] ∧ x.excess = false ∧ e < 2 ^ 65) ∧ (s.fb (DNET_BLK (bits e 48 12 / 16)) DNET_BLK.VALID = true ∧ s.fb (DNET_BLK (bits e 48 12 / 16)) DNET_BLK.IVAL = true ∧ s.fv (DNET_BLK (bits e 48 12 / 16)) DNET_BLK.INST = j) ∧ (bits e 60 4 ≤ 1 ∧ sget (fun _ => []) (epPort (13 + p.val)) s.net.edge = [] ∧ s.net.outs = [])) ∧
    (∃ (s : State) (q : Req) (p : EPort), s.ethOpen q p.val = true ∧ encCheck p.val s = none) ∧
    (∃ (s : State) (q : Req) (p : EPort) (m : Nat) (c : Nat), s.ethOpen q p.val = true ∧ encCheck p.val s = some (m, c) ∧ m < 4 ∧ c < 8) ∧
    (∃ (s : State) (q : Req) (p : EPort) (v : Word), s.ethOpen q p.val = true ∧ bit v.toNat 0 = true) := by
  refine ⟨?_, ?_, ?_, ?_, ?_, ?_, ?_, ?_, ?_, ?_, ?_, ?_, ?_⟩
  · exact ⟨ethUp, 0, ethFrame, by decide +kernel⟩
  · exact ⟨ethUp, 0, by decide +kernel⟩
  · exact ⟨ethUp.fs (ETH_CTRL 0) ETH_CTRL.BCAST 0, 0, ethFrame, by decide +kernel⟩
  · exact ⟨ethUp.fs (ETH_PAUSE 0) ETH_PAUSE.XOFF 0, 0, ethFrame, by decide +kernel⟩
  · exact ⟨ethUp, 0, 9, by decide +kernel⟩
  · exact ⟨ethUp.fs (ETH_STATUS 0) ETH_STATUS.PAUSED 1, 0, by decide +kernel⟩
  · exact ⟨(ethUp.fs (ETH_PAUSE 0) ETH_PAUSE.XON 0).setEth 0 { xoff := true }, 0, by decide +kernel⟩
  · exact ⟨ethUp, 0, by decide +kernel⟩
  · exact ⟨(encSt.fs (ETH_OWN 0) ETH_OWN.VALID 0).fs (ETH_CTRL 0) ETH_CTRL.PTX 0, 0, ethFrame, 5, [], by decide +kernel⟩
  · exact ⟨encSt.fs (ETH_CTRL 0) ETH_CTRL.PTX 0, 0, ethFrame, 5, [], 0, encEvt 0 0 0 0 false, List.replicate 16 0, ⟨List.replicate 16 0, List.replicate 8 0, false, [60, (frParse ethFrame).flags, 5, 0, 0], [encEvt 0 0 0 0 false], false⟩, by decide +kernel⟩
  · exact ⟨encSt, .vf 0, 0, by decide +kernel⟩
  · exact ⟨encSt.wr (ETH_PROG 0 0) (0x10 * 2 ^ 27 + 16 * 2 ^ 20), .pf, 0, 0, 6, by decide +kernel⟩
  · exact ⟨encSt.inc (ETH_RX_FCS 0) 7, .mp, 0, 1, by decide +kernel⟩
theorem witness_ModuleMemoryWindowsAndBulkMoves :
    (∃ (s : State) (q : Req) (j : InstNo) (v : Word), (s.gateOpen q 10 = true ∧ isVf q = false ∧ s.conf j.val = false ∧ resetting j.val s = false ∧ loading j.val s = false ∧ s.dev.srcLock = none) ∧ (s.fb (MEMC_WIN j.val) MEMC_WIN.EN = false ∧ bit v.toNat 31 = true ∧ bits v.toNat 16 10 ≠ 0 ∧ bits v.toNat 0 10 + bits v.toNat 16 10 ≤ 512) ∧ ((∀ k : InstNo, k ≠ j → s.fb (MEMC_WIN k.val) MEMC_WIN.EN = false))) ∧
    (∃ (s : State) (q : Req) (j : InstNo), s.gateOpen q 10 = true ∧ isVf q = false ∧ s.conf j.val = false ∧ s.fb (MEMC_WIN j.val) MEMC_WIN.EN = true ∧ s.fb (MEMC_SCRUB j.val) MEMC_SCRUB.BUSY = false) ∧
    (∃ (s : State) (j : InstNo), s.fb (MEMC_SCRUB j.val) MEMC_SCRUB.BUSY = true) ∧
    (∃ (s : State) (u : State) (j : InstNo) (f : Fin 17) (k : Fin 8) (w : List Word), (f.val = j.val + 1 ∧ rgOn (8 * f.val + k.val) tyBK s = true ∧ s.rd (RING_DIDX f.val k.val) ≠ s.rd (RING_HIDX f.val k.val) ∧ s.host.jobs.length < 16) ∧ (s.host.bkq = [] ∧ s.host.bkDfc = [] ∧ 0 < flowWeight j.val s ∧ bit ((w.map (·.toNat)).getD 0 0) 7 = false) ∧ (u = { rgTake (8 * f.val + k.val) s with host := { s.host with bkLast := j.val } } ∧ bkAdmit j (s.gen j.val) (w.map (·.toNat)) u = cOK)) ∧
    (∃ (s : State) (u : State) (j : InstNo) (f : Fin 17) (k : Fin 8) (w : List Word) (c : Nat), (f.val = j.val + 1 ∧ rgOn (8 * f.val + k.val) tyBK s = true ∧ s.rd (RING_DIDX f.val k.val) ≠ s.rd (RING_HIDX f.val k.val) ∧ s.host.jobs.length < 16) ∧ (s.host.bkq = [] ∧ s.host.bkDfc = [] ∧ 0 < flowWeight j.val s ∧ bit ((w.map (·.toNat)).getD 0 0) 7 = false) ∧ (u = { rgTake (8 * f.val + k.val) s with host := { s.host with bkLast := j.val } } ∧ bkAdmit j (s.gen j.val) (w.map (·.toNat)) u = c ∧ c ≠ cOK) ∧ (rgOn (8 * f.val + s.fv (RING_CFG f.val k.val) RING_CFG.CRING) tyER s = false ∧ rgOn (8 * f.val + s.fv (RING_CFG f.val k.val) RING_CFG.CRING) tyBC s = false)) ∧
    (∃ (s : State) (n : Fin 16) (x : BulkJob) (j : InstNo), (s.host.jobs[n.val]? = some x ∧ s.host.bkq = [] ∧ x.inst = j.val ∧ x.gen = s.gen j.val ∧ bkOp x.words = 2 ∧ bkDevDst x.words = true ∧ bit (x.words.getD 0 0) 6 = false) ∧ (0 < bkLen x.words ∧ bkDst x.words % 256 + bkLen x.words ≤ 256 ∧ bkDst x.words < 0x2000000000 ∧ s.memOpen (.vf j) (bkDst x.words) (.wr (List.replicate (bkLen x.words) 0)) = true)) := by
  refine ⟨?_, ?_, ?_, ?_, ?_, ?_⟩
  · exact ⟨ready, .pf, 2, 0x81FF0001, by decide +kernel⟩
  · exact ⟨ready.fs (MEMC_WIN 2) MEMC_WIN.EN 1, .mp, 2, by decide +kernel⟩
  · exact ⟨(ready.fs (MEMC_WIN 2) MEMC_WIN.EN 1).fs (MEMC_SCRUB 2) MEMC_SCRUB.BUSY 1, 2, by decide +kernel⟩
  · exact ⟨(((hostSt 1 3).wr (RING_HIDX 1 0) 3).fs (MEMC_WIN 0) MEMC_WIN.LEN 1 |>.fs (MEMC_WIN 0) MEMC_WIN.EN 1), { rgTake 8 (((hostSt 1 3).wr (RING_HIDX 1 0) 3).fs (MEMC_WIN 0) MEMC_WIN.LEN 1 |>.fs (MEMC_WIN 0) MEMC_WIN.EN 1) with host := { (((hostSt 1 3).wr (RING_HIDX 1 0) 3).fs (MEMC_WIN 0) MEMC_WIN.LEN 1 |>.fs (MEMC_WIN 0) MEMC_WIN.EN 1).host with bkLast := 0 } }, 0, 1, 0, fillDesc.map (BitVec.ofNat 32), by decide +kernel⟩
  · exact ⟨((hostSt 1 3).wr (RING_HIDX 1 0) 3), { rgTake 8 ((hostSt 1 3).wr (RING_HIDX 1 0) 3) with host := { ((hostSt 1 3).wr (RING_HIDX 1 0) 3).host with bkLast := 0 } }, 0, 1, 0, [3], cCHECK_FAIL, by decide +kernel⟩
  · exact ⟨bulkSt, 0, ⟨1, 0, 0, 0, fillDesc⟩, 0, by decide +kernel⟩
theorem witness_PatternRequestsAreQueuedAndServed :
    (∃ (s : State) (q : Req), (s.devOpen q 0 = true ∧ s.devState ≠ dsDraining ∧ s.devState ≠ dsFaultHold ∧ patBusy (patCopy q) s = false) ∧ (s.pat.cur.isSome = true) ∧ (s.rd64 (PAT_SRC (patCopy q)) % 64 = 0)) ∧
    (∃ (s : State) (q : Req), (s.devOpen q 0 = true ∧ s.devState ≠ dsDraining ∧ s.devState ≠ dsFaultHold ∧ patBusy (patCopy q) s = false) ∧ (s.pat.cur.isSome = true) ∧ (s.rd64 (PAT_SRC (patCopy q)) % 64 = 0)) ∧
    (∃ (s : State) (q : Req), (s.devOpen q 0 = true ∧ s.devState ≠ dsDraining ∧ s.devState ≠ dsFaultHold ∧ patBusy (patCopy q) s = false) ∧ (s.pat.cur.isSome = true) ∧ (s.rd64 (PAT_SRC (patCopy q)) % 64 = 0)) ∧
    (∃ (s : State) (q : Req) (v : Word), (s.devOpen q 0 = true ∧ s.devState ≠ dsDraining ∧ s.devState ≠ dsFaultHold ∧ patBusy (patCopy q) s = false) ∧ (s.pat.cur.isSome = true) ∧ (s.conf (bits v.toNat 4 4) = false)) ∧
    (∃ (s : State) (q : Req), (s.devOpen q 0 = true ∧ s.devState ≠ dsDraining ∧ s.devState ≠ dsFaultHold ∧ patBusy (patCopy q) s = false) ∧ (s.pat.cur.isSome = true)) ∧
    (∃ (s : State) (q : Req), (s.devOpen q 0 = true ∧ s.devState ≠ dsDraining ∧ s.devState ≠ dsFaultHold ∧ patBusy (patCopy q) s = false) ∧ (s.pat.cur = none ∧ s.pat.queue = [] ∧ s.mgmt.mgtrPend = false ∧ s.mgmt.actWait = false)) ∧
    (∃ (s : State) (q : Req) (v : Word), (s.devOpen q 0 = true ∧ s.devState ≠ dsDraining ∧ s.devState ≠ dsFaultHold ∧ patBusy (patCopy q) s = false) ∧ (s.pat.cur = none ∧ s.pat.queue = [] ∧ s.mgmt.mgtrPend = false ∧ s.mgmt.actWait = false) ∧ (s.conf (bits v.toNat 4 4) = false ∧ resetting (bits v.toNat 4 4) s = false ∧ stepState (bits v.toNat 4 4) s = stStopped)) ∧
    (∃ (s : State) (q : Req) (v : Word) (r : PatReq) (b : List Byte), (s.devOpen q 0 = true ∧ s.devState ≠ dsDraining ∧ s.devState ≠ dsFaultHold ∧ patBusy (patCopy q) s = false) ∧ (s.pat.cur = none ∧ s.pat.queue = [] ∧ s.mgmt.mgtrPend = false ∧ s.mgmt.actWait = false) ∧ (s.rd64 (PAT_SRC (patCopy q)) % 64 = 0 ∧ r = ⟨some (patCopy q), 1, bits v.toNat 4 4, bits v.toNat 8 2, false, bit v.toNat 11, s.rd64 (PAT_SRC (patCopy q)), s.rd (PAT_LEN (patCopy q))⟩) ∧ (resetting r.inst s = false ∧ b = patImage r s ∧ verify b r.len r.inst s = none ∧ imgSigned b = false ∧ signatureOk b r.inst s = true)) ∧
    (∃ (s : State) (q : Req) (v : Word) (r : PatReq) (b : List Byte), (s.devOpen q 0 = true ∧ s.devState ≠ dsDraining ∧ s.devState ≠ dsFaultHold ∧ patBusy (patCopy q) s = false) ∧ (s.pat.cur = none ∧ s.pat.queue = []) ∧ (s.rd64 (PAT_SRC (patCopy q)) % 64 = 0 ∧ bit v.toNat 10 = false ∧ r = ⟨some (patCopy q), 0, bits v.toNat 4 4, bits v.toNat 8 2, false, bit v.toNat 11, s.rd64 (PAT_SRC (patCopy q)), s.rd (PAT_LEN (patCopy q))⟩) ∧ (resetting r.inst s = false ∧ b = patImage r s ∧ verify b r.len r.inst s = none ∧ imgSigned b = false ∧ signatureOk b r.inst s = true ∧ imgPartial b = false) ∧ (stepState r.inst s = stStopped ∧ patBlocks b r.inst s = [] ∧ (∀ n : Fin 256, s.ownsBlk r.inst n.val = false))) ∧
    (∃ (s : State) (r : PatReq) (n : Fin 19) (k : Nat), (s.pat.cur = some r ∧ r.who = some n.val ∧ s.pat.todo = some k ∧ (imgSects s.pat.image).length ≤ k) ∧ (patMark r.inst s = s.pat.mark ∧ r.inst < 16 ∧ s.mgmt.mgtrPend = false ∧ s.mgmt.actWait = false)) ∧
    (∃ (s : State) (q : Req) (v : Word) (r : PatReq) (b : List Byte), (s.devOpen q 0 = true ∧ s.devState ≠ dsDraining ∧ s.devState ≠ dsFaultHold ∧ patBusy (patCopy q) s = false) ∧ (s.pat.cur = none ∧ s.pat.queue = [] ∧ s.mgmt.mgtrPend = false ∧ s.mgmt.actWait = false) ∧ (s.rd64 (PAT_SRC (patCopy q)) % 64 = 0 ∧ r = ⟨some (patCopy q), 2, bits v.toNat 4 4, bits v.toNat 8 2, false, bit v.toNat 11, s.rd64 (PAT_SRC (patCopy q)), s.rd (PAT_LEN (patCopy q))⟩) ∧ (resetting r.inst s = false ∧ b = patImage r s ∧ verify b r.len r.inst s = none ∧ imgSigned b = true)) ∧
    (∃ (s : State) (r : PatReq) (n : Fin 19), s.pat.cur = none ∧ s.pat.queue = [r] ∧ r.who = some n.val ∧ r.op = opErase ∧ s.mgmt.mgtrPend = false ∧ s.mgmt.actWait = false) ∧
    (∃ (s : State) (r : PatReq) (n : Fin 19), (s.pat.cur = none ∧ s.pat.queue = [r] ∧ r.who = some n.val ∧ r.op = opVerify ∧ r.fromSlot = false ∧ resetting r.inst s = false ∧ s.mgmt.mgtrPend = false ∧ s.mgmt.actWait = false) ∧ (imgW (patImage r s) 0 ≠ 0x54504D4C)) ∧
    (∃ (s : State) (r : PatReq) (n : Fin 19), (s.pat.cur = some r ∧ r.who = some n.val ∧ r.op = opStore ∧ s.pat.image ≠ [] ∧ s.pat.todo = none ∧ imgSigned s.pat.image = true ∧ signatureOk s.pat.image r.inst s = true) ∧ (areaUsed r.slot s + s.pat.image.length ≤ 896 * 2 ^ 20 ∧ s.mgmt.mgtrPend = false ∧ s.mgmt.actWait = false)) ∧
    (∃ (s : State) (r : PatReq) (n : Fin 19), s.pat.cur = some r ∧ r.who = some n.val ∧ s.pat.image ≠ [] ∧ s.pat.todo = none ∧ signatureOk s.pat.image r.inst s = false ∧ s.mgmt.mgtrPend = false ∧ s.mgmt.actWait = false) ∧
    (∃ (s : State) (q : Req) (v : Nat), s.pat.autoWr = some (q, v) ∧ v < 2 ^ 32) ∧
    (∃ (s : State) (e : Fin 4) (x : PatSlot), (s.devState = dsReady ∧ autoBusy s = false ∧ s.pat.cur.isSome = true ∧ s.pat.auto = [e.val] ∧ bit (s.rd PAT_AUTO) (11 + 4 * e.val) = false) ∧ (sget (fun _ => none) (bits (s.rd PAT_AUTO) (8 + 4 * e.val) 2) s.pers.slots = some x)) := by
  refine ⟨?_, ?_, ?_, ?_, ?_, ?_, ?_, ?_, ?_, ?_, ?_, ?_, ?_, ?_, ?_, ?_, ?_⟩
  · exact ⟨patBusySt, .pf, by decide +kernel⟩
  · exact ⟨patBusySt, .pf, by decide +kernel⟩
  · exact ⟨patBusySt, .pf, by decide +kernel⟩
  · exact ⟨patBusySt, .pf, 0x321, by decide +kernel⟩
  · exact ⟨patBusySt, .pf, by decide +kernel⟩
  · exact ⟨{ ready with pers := { ready.pers with slots := [(1, some ⟨patPlain, 2⟩)] } }, .pf, by decide +kernel⟩
  · exact ⟨own.fs (DNET_BLK 0) DNET_BLK.VALID 1, .pf, 0, by decide +kernel⟩
  · exact ⟨patSt, .pf, 0x20, ⟨some 1, 1, 2, 0, false, false, 0, 256⟩, patPlain, by decide +kernel⟩
  · exact ⟨patSt, .pf, 0x20, ⟨some 1, 0, 2, 0, false, false, 0, 256⟩, patPlain, by decide +kernel⟩
  · exact ⟨{ patSt with pat := { cur := some (patRq 0 256), image := patPlain, todo := some 9, mark := 0 } }, patRq 0 256, 1, 9, by decide +kernel⟩
  · exact ⟨patSgn, .pf, 0x20, ⟨some 1, 2, 2, 0, false, false, 0, 320⟩, patSigned, by decide +kernel⟩
  · exact ⟨{ ready with pat := { queue := [patRq 4 0] } }, patRq 4 0, 1, by decide +kernel⟩
  · exact ⟨modWrite 0 (List.replicate 64 0) { ready with pat := { queue := [patRq 1 64] } }, patRq 1 64, 1, by decide +kernel⟩
  · exact ⟨patSgnWait, patRq 2 320, 1, by decide +kernel⟩
  · exact ⟨{ ready with pat := { cur := some (patRq 2 320), image := patSigned } }, patRq 2 320, 1, by decide +kernel⟩
  · exact ⟨{ ready with pat := { autoWr := some (.mp, 0x901) } }, .mp, 0x901, by decide +kernel⟩
  · exact ⟨{ patBusySt with pat := { patBusySt.pat with auto := [2] }, pers := { ready.pers with slots := [(0, some ⟨patPlain, 2⟩)] } }, 2, ⟨patPlain, 2⟩, by decide +kernel⟩
theorem witness_ResetsOfCoresClustersAndPartitions :
    (∃ (s : State) (q : Req) (c : Cl) (k : Sl) (v : Word), (s.clRight q c.val = true ∧ v.toNat % 2 ^ 20 = 2 ^ k.val) ∧ (s.slotGone (pcid c k) = false ∧ (s.lcid (pcid c k)).isSome = true ∧ coreState (pcid c k) s ≠ stOff ∧ s.clPwr c.val = 0) ∧ ((s.cluster c.val).rst = none ∧ lrnEn (pcid c k) s = false) ∧ ((s.core (pcid c k)).q.inBuf = [] ∧ (s.core (pcid c k)).q.held = [] ∧ (s.core (pcid c k)).q.taken = [])) ∧
    (∃ (s : State) (q : Req) (c : Cl) (k : Sl) (v : Word), s.clRight q c.val = true ∧ isVf q = false ∧ bit v.toNat k.val = true ∧ s.slotGone (pcid c k) = true) ∧
    (∃ (s : State) (q : Req) (c : Cl) (v : Word), (s.clRight q c.val = true ∧ isVf q = false ∧ bits v.toNat 19 1 = 0 ∧ (s.cluster c.val).rst = none) ∧ ((s.cluster c.val).rewind = none ∧ s.fb (CLA_PWR_CTRL c.val) CLA_PWR_CTRL.SPARE_OFF = false ∧ s.clPwr c.val = 0) ∧ ((clSlots c.val).all (fun p => lrnEn p s == false && (s.core p).q.inBuf.isEmpty && (s.core p).q.held.isEmpty && (s.core p).q.taken.isEmpty) = true)) ∧
    (∃ (s : State) (q : Req) (c : Cl) (v : Word), s.clRight q c.val = true ∧ isVf q = false ∧ bits v.toNat 17 1 = 1 ∧ (s.cluster c.val).rst.isSome = true) ∧
    (∃ (s : State) (c : Cl) (n : Nat) (l : List Nat) (w : Bool), ((s.cluster c.val).rst = some (n, l, w) ∧ (s.cluster c.val).rewind = none ∧ s.logRoom 1) ∧ ((s.cluster c.val).dlv = [] ∧ (s.cluster c.val).spill = [] ∧ s.net.outs = [])) ∧
    (∃ (s : State) (q : Req) (c : Cl) (i : InstNo), s.clRight q c.val = true ∧ q = .vf i) ∧
    (∃ (s : State) (q : Req) (p : Fin 4) (v : Word), (s.devOpen q 0 = true ∧ bits v.toNat 4 4 = 2 ^ p.val) ∧ (anyStepping (partCls p.val) s = false ∧ rstBusy p.val s = false ∧ pwrBusy p.val s = false)) ∧
    (∃ (s : State) (q : Req) (p : Fin 4) (v : Word), s.devOpen q 0 = true ∧ bit v.toNat (4 + p.val) = true ∧ anyStepping (partCls p.val) s = true) ∧
    (∃ (s : State) (p : Fin 4), rstBusy p.val s = true ∧ s.mgmt.rstAbs.contains p.val = false ∧ (present (partCls p.val) s).any (fun c => inFlight c s) = true) ∧
    (∃ (s : State) (p : Fin 4) (row : Fin 4), (rstBusy p.val s = true ∧ (partRow p.val row.val).all (fun c => (s.cluster c).fused) = true ∧ s.mgmt.rstRep.contains (p.val, row.val) = false) ∧ ((List.range 4).all (fun r => r == row.val || s.mgmt.rstRep.contains (p.val, r)) = true ∧ s.logRoom 1)) ∧
    (∃ (s : State) (p : Fin 4) (row : Fin 4), rstBusy p.val s = true ∧ s.mgmt.rstRep = [] ∧ (present (partRow p.val row.val) s).all (fun c => !inFlight c s && (s.cluster c).inj.isEmpty) = true) ∧
    (∃ (s : State) (q : Req) (v : Word), s.devOpen q 0 = true ∧ bits v.toNat 4 4 = 0 ∧ bit v.toNat 0 = false ∧ s.pat.cur = none ∧ s.logRoom 1) ∧
    (∃ (s : State) (q : Req) (v : Word), s.devOpen q 0 = true ∧ bits v.toNat 4 4 = 0 ∧ bit v.toNat 0 = false ∧ s.pat.cur.isSome = true) ∧
    (∃ (s : State), s.dev.hubDown = true ∧ s.mgmt.takeover = false) ∧
    (∃ (s : State) (q : Req) (v : Word), s.devOpen q 0 = true ∧ bits v.toNat 4 4 = 0 ∧ bit v.toNat 1 = false) ∧
    (∃ (s : State) (c : Cl) (k : Sl) (a : Fin 10), s.mgmt.repair.contains (.sram c k a) = false ∧ s.fb (CLA_REP_CTRL c.val) CLA_REP_CTRL.EN = true ∧ s.clGone c.val = false ∧ sparesUsed (.sram c k a) s < 2) ∧
    (∃ (s : State) (c : Cl) (g : Sl) (a : Fin 48), s.mgmt.repair.contains (.seg c g a) = false ∧ s.fb (CLA_REP_CTRL c.val) CLA_REP_CTRL.EN = true ∧ s.clGone c.val = false ∧ sparesUsed (.seg c g a) s = 2 ∧ s.mgmt.exh = [] ∧ s.logRoom 1) ∧
    (∃ (s : State) (c : Cl) (k : Fin 8), s.mgmt.repair = [.jrn c k] ∧ s.logRoom 2) := by
  refine ⟨?_, ?_, ?_, ?_, ?_, ?_, ?_, ?_, ?_, ?_, ?_, ?_, ?_, ?_, ?_, ?_, ?_, ?_⟩
  · exact ⟨coreRun, .pf, 0, 0, 1, by decide +kernel⟩
  · exact ⟨{ ready with clusters := [(0, { ready.cluster 0 with failed := [3] })] }, .pf, 0, 3, 8, by decide +kernel⟩
  · exact ⟨coreRun, .mp, 0, 0x20000, by decide +kernel⟩
  · exact ⟨{ coreRun with clusters := [(0, { coreRun.cluster 0 with rst := some (5, [3], false) })] }, .pf, 0, 0x20000, by decide +kernel⟩
  · exact ⟨({ coreRun with clusters := [(0, { coreRun.cluster 0 with rst := some (1, [0, 3], true), noInject := true })] }.fs (CLA_SLOTTAB 0 0) CLA_SLOTTAB.HOLD 1), 0, 1, [0, 3], true, by decide +kernel⟩
  · exact ⟨coreRun, .vf 0, 0, 0, by decide +kernel⟩
  · exact ⟨ready, .fm, 2, 0x40, by decide +kernel⟩
  · exact ⟨seqRun, .pf, 0, 0x10, by decide +kernel⟩
  · exact ⟨(macState.fs MGT_RST_STAT MGT_RST_STAT.BUSY 1), 0, by decide +kernel⟩
  · exact ⟨rstLast, 0, 3, by decide +kernel⟩
  · exact ⟨(ready.fs MGT_RST_STAT MGT_RST_STAT.BUSY 2), 1, 0, by decide +kernel⟩
  · exact ⟨ready, .fm, 2, by decide +kernel⟩
  · exact ⟨patBusySt, .pf, 2, by decide +kernel⟩
  · exact ⟨{ ready with dev := { ready.dev with hubDown := true } }, by decide +kernel⟩
  · exact ⟨ready, .pf, 1, by decide +kernel⟩
  · exact ⟨ready.fs (CLA_REP_CTRL 0) CLA_REP_CTRL.EN 1, 0, 16, 9, by decide +kernel⟩
  · exact ⟨{ (ready.fs (CLA_REP_CTRL 0) CLA_REP_CTRL.EN 1) with pers := { ready.pers with spares := [(.seg 0 3 1, 2)] } }, 0, 3, 1, by decide +kernel⟩
  · exact ⟨{ ready with mgmt := { ready.mgmt with repair := [.jrn 5 7] } }, 5, 7, by decide +kernel⟩
theorem witness_BringUpReachesStage11 :
    (∃ (s : State) (b : Boot), s.pin pinPWR_EN = true ∧ s.pers = {} ∧ s.clusters = [] ∧ s.dev.fusedJlk = [] ∧ b = cleanBoot) ∧
    (∃ (s : State) (n : Fin 6) (b : Boot), (n.val ≠ 1 ∨ s.mgmt.devReq = true) ∧ s.devState ≠ dsStandby ∧ s.pers = {} ∧ s.clusters = [] ∧ s.dev.fusedJlk = [] ∧ b = cleanBoot) ∧
    (∃ (s : State) (b : Boot), s.devState ≠ dsStandby ∧ s.pers = {} ∧ s.clusters = [] ∧ s.dev.fusedJlk = [] ∧ b = cleanBoot) ∧
    (∃ (s : State) (n : Fin 6) (b : Boot), (s.devState = dsStandby ∧ bit (s.fv PWR_WAKE_EN PWR_WAKE_EN.SRC) n.val = true ∧ s.pin pinPWR_EN = true ∧ s.power.tempHold = [] ∧ s.fb PWR_DEV_CTRL PWR_DEV_CTRL.HOLD = false ∧ s.fb PWR_FEED_STAT PWR_FEED_STAT.A_OK = true) ∧ (s.pers = {} ∧ s.clusters = [] ∧ s.dev.fusedJlk = [] ∧ b = cleanBoot)) ∧
    (∃ (s : State) (b : Boot), (s.devState = dsStandby ∧ bit (s.fv PWR_WAKE_EN PWR_WAKE_EN.SRC) 0 = true ∧ s.power.tempHold = [] ∧ s.fb PWR_DEV_CTRL PWR_DEV_CTRL.HOLD = false ∧ s.fb PWR_FEED_STAT PWR_FEED_STAT.B_OK = true) ∧ (s.pers = {} ∧ s.clusters = [] ∧ s.dev.fusedJlk = [] ∧ b = cleanBoot)) ∧
    (∃ (s : State) (r : Rail) (b : Boot), (r = .aon ∨ r = .mgt ∨ r = .net) ∧ s.devState ≠ dsStandby ∧ s.pers = {} ∧ s.clusters = [] ∧ s.dev.fusedJlk = [] ∧ b = cleanBoot) := by
  refine ⟨?_, ?_, ?_, ?_, ?_, ?_⟩
  · exact ⟨ready, cleanBoot, by decide +kernel⟩
  · exact ⟨{ ready with mgmt := { ready.mgmt with devReq := true } }, 1, cleanBoot, by decide +kernel⟩
  · exact ⟨ready, cleanBoot, by decide +kernel⟩
  · exact ⟨stdby, 4, cleanBoot, by decide +kernel⟩
  · exact ⟨(stdby.setPin pinPWR_EN false).wr PWR_FEED_STAT 2, cleanBoot, by decide +kernel⟩
  · exact ⟨ready, .net, cleanBoot, by decide +kernel⟩
theorem witness_StandbyFaultHoldAndReady :
    (∃ (s : State), s.pin pinPWR_EN = false ∧ s.pers.regs = []) ∧
    (∃ (s : State) (n : Fin 6) (b : Boot), n.val ≠ 1 ∧ s.devState ≠ dsStandby ∧ s.power.standbyPend = false ∧ s.pers.regs = [] ∧ (1 : Fin 4) ∈ b.curBad ∧ (1 : Fin 4) ∈ b.lkgBad) ∧
    (∃ (s : State) (n : Fin 6), s.devState = dsStandby ∧ n.val ≠ 2 ∧ bit (s.fv PWR_WAKE_EN PWR_WAKE_EN.SRC) n.val = false) ∧
    (∃ (s : State), readyGate s = true ∧ s.power.standbyPend = false ∧ s.pers.fwPend = [] ∧ s.logRoom 1 ∧ (List.range 16).all (fun i => s.fv (PAT_INST i) PAT_INST.STATE != 2) = true) ∧
    (∃ (s : State) (p : JPort), jState p.val s = jsDark) ∧
    (∃ (s : State) (q : Req), s.devOpen q 2 = true ∧ (s.devState = dsReady ∨ s.devState = dsFaultHold) ∧ s.pers.regs = []) ∧
    (∃ (s : State) (q : Req), s.devOpen q 2 = true ∧ s.devState ≠ dsReady ∧ s.devState ≠ dsFaultHold) ∧
    (∃ (s : State), (s.devState = dsReady ∨ s.devState = dsFaultHold) ∧ s.pers.regs = []) ∧
    (∃ (s : State), s.devState ≠ dsReady ∧ s.devState ≠ dsFaultHold ∧ s.devState ≠ dsStandby) ∧
    (∃ (s : State), s.devState ≠ dsStandby) ∧
    (∃ (s : State), s.fb PWR_FEED_STAT PWR_FEED_STAT.HOLDUP = true ∧ s.power.lossRec = false ∧ s.mgmt.seq ≠ 0xFFFFFFFF ∧ s.pers.log.length < 524288) ∧
    (∃ (s : State), s.fb PWR_FEED_STAT PWR_FEED_STAT.HOLDUP = true ∧ s.pers.regs = [] ∧ s.pat.cur = none) ∧
    (∃ (s : State) (c : Cl), s.clGone c.val = false ∧ s.logRoom 3) ∧
    (∃ (s : State), s.devState ≠ dsStandby ∧ s.pers.regs = [] ∧ s.pers.log.length < 524288) := by
  refine ⟨?_, ?_, ?_, ?_, ?_, ?_, ?_, ?_, ?_, ?_, ?_, ?_, ?_, ?_⟩
  · exact ⟨ready.setPin pinPWR_EN false, by decide +kernel⟩
  · exact ⟨ready, 4, { cleanBoot with curBad := [1], lkgBad := [1] }, by decide +kernel⟩
  · exact ⟨stdby.fs PWR_WAKE_EN PWR_WAKE_EN.SRC 0, 3, by decide +kernel⟩
  · exact ⟨gateSt, by decide +kernel⟩
  · exact ⟨jlkIn jsDark, 0, by decide +kernel⟩
  · exact ⟨ready, .pf, by decide +kernel⟩
  · exact ⟨ready.setDevState dsServing, .fm, by decide +kernel⟩
  · exact ⟨ready, by decide +kernel⟩
  · exact ⟨seqRun.setDevState dsServing, by decide +kernel⟩
  · exact ⟨{ ready with power := { ready.power with standbyPend := true } }, by decide +kernel⟩
  · exact ⟨ready.fs PWR_FEED_STAT PWR_FEED_STAT.HOLDUP 1, by decide +kernel⟩
  · exact ⟨ready.fs PWR_FEED_STAT PWR_FEED_STAT.HOLDUP 1, by decide +kernel⟩
  · exact ⟨ready, 7, by decide +kernel⟩
  · exact ⟨ready, by decide +kernel⟩
theorem witness_HostResetsReachTheirFunctions :
    (∃ (s : State), s.devState ≠ dsStandby) ∧
    (∃ (s : State), s.devState ≠ dsStandby ∧ bit (s.fv PWR_STATUS PWR_STATUS.ON) 2 = true) ∧
    (∃ (s : State) (i : InstNo), siState i.val s ≠ 1) ∧
    (∃ (s : State) (i : InstNo), siState i.val s = 1 ∧ s.fb (SEC_INST i.val) SEC_INST.WRAPPED = false ∧ s.gen i.val ≠ 255 ∧ s.instClusters i.val = []) := by
  refine ⟨?_, ?_, ?_, ?_⟩
  · exact ⟨hostSt 1 1, by decide +kernel⟩
  · exact ⟨ready.fs PWR_STATUS PWR_STATUS.ON 0x3F, by decide +kernel⟩
  · exact ⟨(hostSt 5 1), 4, by decide +kernel⟩
  · exact ⟨ready.fs (SEC_INST 9) SEC_INST.STATE 1, 9, by decide +kernel⟩
theorem witness_ClustersDozeWakeAndTurnOff :
    (∃ (s : State) (c : Cl), dozeReady c.val s = true ∧ (clSlots c.val).all (fun p => !lrnEn p s) = true) ∧
    (∃ (s : State) (c : Cl), dozeReady c.val s = true ∧ (clSlots c.val).all (fun p => !lrnEn p s) = true) ∧
    (∃ (s : State) (c : Cl), s.clPwr c.val = 1 ∧ (s.cluster c.val).dlv = [] ∧ (s.cluster c.val).spill = [] ∧ s.net.outs = []) ∧
    (∃ (s : State) (c : Cl), s.clPwr c.val = 0 ∧ s.fb (CLA_PWR_STAT c.val) CLA_PWR_STAT.ON_OSC = true) ∧
    (∃ (s : State) (v : Word), s.devOpen .mp 2 = true ∧ s.clGone (bits v.toNat 0 6) = false ∧ s.fb (CLA_PWR_STAT (bits v.toNat 0 6)) CLA_PWR_STAT.ON_OSC = true ∧ s.power.pll.contains (bits v.toNat 0 6) = true) ∧
    (∃ (s : State) (q : Req), s.devOpen q 2 = true ∧ q ≠ .mp) ∧
    (∃ (s : State) (c : Cl), s.power.swReq.contains c.val = true ∧ s.power.pll.contains c.val = true ∧ s.power.halfReq = []) ∧
    (∃ (s : State) (c : Cl) (b : Bool), s.power.swReq.contains c.val = false ∧ s.power.halfReq = [(c.val, b)]) ∧
    (∃ (s : State) (q : Req) (v : Word), (s.devOpen q 2 = true ∧ s.power.reqs = [] ∧ bits v.toNat 0 7 < 0x40 ∧ pwrAdmit (bits v.toNat 0 7) 3 s = cOK ∧ s.clPwr (bits v.toNat 0 7) < 2) ∧ ((clSlots (bits v.toNat 0 7)).all (fun p => !lrnEn p s) = true)) ∧
    (∃ (s : State) (q : Req) (v : Word), (s.devOpen q 2 = true ∧ s.power.reqs = [] ∧ bits v.toNat 0 7 < 0x40 ∧ pwrAdmit (bits v.toNat 0 7) 2 s = cOK ∧ s.clPwr (bits v.toNat 0 7) < 2) ∧ ((clSlots (bits v.toNat 0 7)).all (fun p => !lrnEn p s) = true)) ∧
    (∃ (s : State) (q : Req) (v : Word), s.devOpen q 2 = true ∧ s.power.reqs = [] ∧ bits v.toNat 0 7 < 0x40 ∧ pwrAdmit (bits v.toNat 0 7) 1 s = cOK ∧ s.clPwr (bits v.toNat 0 7) = 2) ∧
    (∃ (s : State) (q : Req) (v : Word) (a : Nat), s.devOpen q 2 = true ∧ pwrAdmit (bits v.toNat 0 7) 3 s = a ∧ a ≠ cOK) ∧
    (∃ (s : State) (d : BitVec 7) (r : PwrReq) (c : Cl), (s.power.reqs = [r] ∧ r.domain = d.toNat ∧ r.domain = c.val ∧ r.action = 2 ∧ (s.cluster c.val).fused = false ∧ drained c.val s = true ∧ (s.cluster c.val).fences = [] ∧ s.clPwr c.val < 2 ∧ s.logRoom 2) ∧ ((clSlots c.val).all (fun p => !lrnEn p s) = true)) ∧
    (∃ (s : State) (d : BitVec 7) (r : PwrReq) (c : Cl), s.power.reqs = [r] ∧ r.domain = d.toNat ∧ r.domain = c.val ∧ r.action = 3 ∧ (s.cluster c.val).fused = false ∧ drained c.val s = true ∧ (s.cluster c.val).fences = [] ∧ s.clPwr c.val < 2) ∧
    (∃ (s : State) (d : BitVec 7) (r : PwrReq), s.power.reqs = [r] ∧ r.domain = d.toNat ∧ r.action ≥ 2 ∧ s.logRoom 1) ∧
    (∃ (s : State) (d : BitVec 7) (r : PwrReq) (c : Cl), s.power.reqs = [r] ∧ r.domain = d.toNat ∧ r.domain = c.val ∧ r.action = 1 ∧ s.clusters = [] ∧ s.clPwr c.val ≥ 2 ∧ s.logRoom 2) := by
  refine ⟨?_, ?_, ?_, ?_, ?_, ?_, ?_, ?_, ?_, ?_, ?_, ?_, ?_, ?_, ?_, ?_⟩
  · exact ⟨dozeSt, 0, by decide +kernel⟩
  · exact ⟨dozeSt, 0, by decide +kernel⟩
  · exact ⟨(dozeSt.setClPwr 3 1).fs (CORE_STATE 96) CORE_STATE.STATE stDoze, 3, by decide +kernel⟩
  · exact ⟨ready.fs (CLA_PWR_STAT 9) CLA_PWR_STAT.ON_OSC 1, 9, by decide +kernel⟩
  · exact ⟨oscSt, 9, by decide +kernel⟩
  · exact ⟨oscSt, .pf, by decide +kernel⟩
  · exact ⟨{ oscSt with power := { oscSt.power with swReq := [9] } }, 9, by decide +kernel⟩
  · exact ⟨{ oscSt with power := { oscSt.power with halfReq := [(9, true)] } }, 9, true, by decide +kernel⟩
  · exact ⟨ready, .pf, 5, by decide +kernel⟩
  · exact ⟨ready, .mp, 63, by decide +kernel⟩
  · exact ⟨offSt 2, .pf, 5, by decide +kernel⟩
  · exact ⟨ready, .pf, 0x45, cBAD_ARG, by decide +kernel⟩
  · exact ⟨drainSt 2, 5, ⟨5, 2, [], []⟩, 5, by decide +kernel⟩
  · exact ⟨drainSt 3, 5, ⟨5, 3, [], []⟩, 5, by decide +kernel⟩
  · exact ⟨drainSt 3, 5, ⟨5, 3, [], []⟩, by decide +kernel⟩
  · exact ⟨{ offSt 2 with power := { ready.power with reqs := [⟨5, 1, [], [5]⟩] } }, 5, ⟨5, 1, [], [5]⟩, 5, by decide +kernel⟩
theorem witness_ClocksFeedsAndTemperatures :
    (∃ (s : State) (x : Bool), s.fb CLK_STATUS (refFld x) = true ∧ s.fb CLK_STATUS (refFld !x) = true ∧ s.fb CLK_SRC CLK_SRC.SRC = x ∧ s.logRoom 1) ∧
    (∃ (s : State) (x : Bool), s.fb CLK_STATUS (refFld x) = true ∧ s.fb CLK_STATUS (refFld !x) = false) ∧
    (∃ (s : State) (x : Bool), s.fb PWR_FEED_STAT (if x then PWR_FEED_STAT.A_OK else PWR_FEED_STAT.B_OK) = true ∧ s.fb PWR_FEED_STAT PWR_FEED_STAT.ON_B = x ∧ s.logRoom 2) ∧
    (∃ (s : State) (x : Bool), s.fb PWR_FEED_STAT (if x then PWR_FEED_STAT.A_OK else PWR_FEED_STAT.B_OK) = false) ∧
    (∃ (s : State), s.fb PWR_FEED_STAT PWR_FEED_STAT.HOLDUP = true ∧ s.logRoom 1) ∧
    (∃ (s : State), s.fb PWR_FEED_STAT PWR_FEED_STAT.HOLDUP = false) ∧
    (∃ (s : State), s.fb PWR_FEED_STAT PWR_FEED_STAT.A_OK = true ∧ s.fb PWR_FEED_STAT PWR_FEED_STAT.ON_B = true ∧ s.fb PWR_FEED_CTRL PWR_FEED_CTRL.STICKY = false ∧ s.logRoom 1) ∧
    (∃ (s : State) (p : Fin 4), s.fb MGT_THERM_CTRL MGT_THERM_CTRL.EN = true ∧ s.fv MGT_THERM_CTRL MGT_THERM_CTRL.TPT * 8 ≤ sensor (1 + p.val) s ∧ s.power.thr.contains p.val = false ∧ s.logRoom 1) ∧
    (∃ (s : State), 840 ≤ sensor 0 s ∧ s.fb MGT_THERM_STAT MGT_THERM_STAT.DEVTHR = false ∧ s.logRoom 1) ∧
    (∃ (s : State) (p : Fin 4), sensor (1 + p.val) s < (s.fv MGT_THERM_CTRL MGT_THERM_CTRL.TPT * 8 : Nat) - 40 ∧ s.fb MGT_THERM_STAT MGT_THERM_STAT.DEVTHR = false ∧ s.fv MGT_THERM_CTRL MGT_THERM_CTRL.TPT ≥ 1) ∧
    (∃ (s : State), sensor 0 s < 800) := by
  refine ⟨?_, ?_, ?_, ?_, ?_, ?_, ?_, ?_, ?_, ?_, ?_⟩
  · exact ⟨(ready.fs CLK_STATUS (refFld true) 1).fs CLK_STATUS (refFld false) 1, false, by decide +kernel⟩
  · exact ⟨ready.fs CLK_STATUS (refFld true) 1, true, by decide +kernel⟩
  · exact ⟨ready.wr PWR_FEED_STAT 3, false, by decide +kernel⟩
  · exact ⟨ready.wr PWR_FEED_STAT 1, false, by decide +kernel⟩
  · exact ⟨ready.fs PWR_FEED_STAT PWR_FEED_STAT.HOLDUP 1, by decide +kernel⟩
  · exact ⟨ready, by decide +kernel⟩
  · exact ⟨ready.wr PWR_FEED_STAT 7, by decide +kernel⟩
  · exact ⟨hotSt, 2, by decide +kernel⟩
  · exact ⟨hotSt, by decide +kernel⟩
  · exact ⟨{ ready.fs MGT_THERM_CTRL MGT_THERM_CTRL.TPT 95 with power := { ready.power with thr := [1, 3], half := List.range 64 } }, 3, by decide +kernel⟩
  · exact ⟨ready.fs MGT_THERM_STAT MGT_THERM_STAT.DEVTHR 1, by decide +kernel⟩
theorem witness_ClusterFailsOverToItsSpare :
    (∃ (s : State) (c : Cl) (k : Sl) (n : Sl), ((s.lcid (pcid c k)).isSome = true ∧ s.slotGone (pcid c k) = false ∧ s.faulted (pcid c k) = true) ∧ (s.fb (CLA_FO_CTRL c.val) CLA_FO_CTRL.EN = true ∧ (s.cluster c.val).rewind = none ∧ spareSlot c.val s = some n.val ∧ n ≠ k ∧ s.segOf (pcid c k) = some k.val ∧ slotOf c.val k.val s = some k.val) ∧ ((s.cluster c.val).journal = [] ∧ (s.cluster c.val).mask = [] ∧ lrnEn (pcid c k) s = false ∧ (s.core (pcid c k)).q.taken = [] ∧ (s.core (pcid c k)).q.inBuf = [] ∧ (s.core (pcid c k)).q.held = [])) ∧
    (∃ (s : State) (c : Cl) (k : Sl), ((s.lcid (pcid c k)).isSome = true ∧ s.slotGone (pcid c k) = false ∧ s.fb (CLA_FO_CTRL c.val) CLA_FO_CTRL.EN = false ∧ s.logRoom 2) ∧ ((s.core (pcid c k)).q.taken = [] ∧ posQueue (pcid c k) s = [] ∧ (s.cluster c.val).spill = [])) ∧
    (∃ (s : State) (c : Cl) (k : Sl), ((s.clParts c.val).contains (pcid c k) = true ∧ (s.core (pcid c k)).phase = .walked ∧ pendOcc (pcid c k) s ≠ 0 ∧ s.slotGone (pcid c k) = false) ∧ (s.fb (CLA_FO_CTRL c.val) CLA_FO_CTRL.EN = true ∧ (s.cluster c.val).rewind = none ∧ spareSlot c.val s = none ∧ (s.cluster c.val).journal = [] ∧ (s.core (pcid c k)).q.taken = [])) ∧
    (∃ (s : State) (c : Cl) (g : Sl) (d : Sl), spareSeg c.val s = some d.val ∧ bit (s.fv (CLA_SEG_FAILING c.val) CLA_SEG_FAILING.FAIL) g.val = true ∧ foState c.val s = foProtected ∧ (s.cluster c.val).migrate = none ∧ s.segOf (pcid c g) = some g.val) ∧
    (∃ (s : State) (c : Cl) (g : Sl) (d : Sl) (n : Nat), (s.cluster c.val).migrate = some ⟨g.val, d.val, false, n⟩ ∧ g ≠ d) ∧
    (∃ (s : State), s.logRoom 1) ∧
    (∃ (s : State) (u : Byte), s.dev.dupRetry.contains u.toNat = false) ∧
    (∃ (s : State) (u : Byte), s.dev.dupRetry.contains u.toNat = true ∧ s.power.standbyPend = false) ∧
    (∃ (s : State) (q : Req), s.devOpen q 0 = true) ∧
    (∃ (s : State) (j : InstNo) (v : Word), s.gateOpen (.vf j) 0 = true ∧ (s.dev.frecs.getD (bits v.toNat 0 6) []) ≠ [] ∧ bits ((s.dev.frecs.getD (bits v.toNat 0 6) []).getD 1 0) 12 4 ≠ j.val) ∧
    (∃ (s : State) (b : Fin 8), s.net.bandsDown.contains b.val = true) := by
  refine ⟨?_, ?_, ?_, ?_, ?_, ?_, ?_, ?_, ?_, ?_, ?_⟩
  · exact ⟨foSt, 0, 2, 16, by decide +kernel⟩
  · exact ⟨foSt.fs (CLA_FO_CTRL 0) CLA_FO_CTRL.EN 0, 0, 3, by decide +kernel⟩
  · exact ⟨hangSt, 0, 0, by decide +kernel⟩
  · exact ⟨migSt, 0, 4, 16, by decide +kernel⟩
  · exact ⟨(({ migSt with clusters := [(0, { ready.cluster 0 with migrate := some ⟨4, 16, false, 9⟩ })] } : State)), 0, 4, 16, 9, by decide +kernel⟩
  · exact ⟨ready, by decide +kernel⟩
  · exact ⟨ready, 4, by decide +kernel⟩
  · exact ⟨{ ready with dev := { ready.dev with dupRetry := [4] } }, 4, by decide +kernel⟩
  · exact ⟨{ ready with dev := { ready.dev with frecs := [[1, 2, 3]] } }, .pf, by decide +kernel⟩
  · exact ⟨{ own with dev := { ready.dev with frecs := [[1, 0x1000, 3]] } }, 0, 0, by decide +kernel⟩
  · exact ⟨{ ready with net := { ready.net with bandsDown := [3, 1] } }, 3, by decide +kernel⟩
theorem witness_InstanceCommandsRunTheirCourse :
    (∃ (s : State) (q : Req) (v : Word), s.devOpen q 0 = true ∧ bit v.toNat 4 = false ∧ siState (bits v.toNat 0 4) s = 0 ∧ s.fb (SEC_INST_RES (reqIx q)) SEC_INST_RES.BUSY = false) ∧
    (∃ (s : State) (q : Req) (v : Word), (s.devOpen q 0 = true ∧ bit v.toNat 4 = true ∧ s.fb (SEC_INST_RES (reqIx q)) SEC_INST_RES.BUSY = false) ∧ ((List.range 16).all (fun j => siState j s == 1) = true)) ∧
    (∃ (s : State) (q : Req) (v : Word), (s.devOpen q 0 = true ∧ siState (bits v.toNat 0 4) s = 1 ∧ s.fb (SEC_INST_RES (reqIx q)) SEC_INST_RES.BUSY = false) ∧ (s.fb (SEC_INST (bits v.toNat 0 4)) SEC_INST.WRAPPED = false ∧ s.gen (bits v.toNat 0 4) ≠ 255 ∧ s.instClusters (bits v.toNat 0 4) = [])) ∧
    (∃ (s : State) (q : Req) (v : Word), s.devOpen q 0 = true ∧ siState (bits v.toNat 0 4) s = 0 ∧ s.fb (SEC_INST_RES (reqIx q)) SEC_INST_RES.BUSY = false) ∧
    (∃ (s : State) (q : Req) (v : Word), (s.devOpen q 0 = true ∧ siState (bits v.toNat 0 4) s = 1 ∧ s.fb (SEC_INST_RES (reqIx q)) SEC_INST_RES.BUSY = false) ∧ (s.fb (SEC_INST (bits v.toNat 0 4)) SEC_INST.WRAPPED = true ∧ liveItem (bits v.toNat 0 4) ((s.gen (bits v.toNat 0 4) + 1) % 256) s = true ∧ s.instClusters (bits v.toNat 0 4) = [] ∧ s.power.standbyPend = false)) ∧
    (∃ (s : State) (q : Req) (v : Word), (s.devOpen q 0 = true ∧ siState (bits v.toNat 0 4) s = 1 ∧ s.fb (SEC_INST_RES (reqIx q)) SEC_INST_RES.BUSY = false) ∧ (s.fb (SEC_INST (bits v.toNat 0 4)) SEC_INST.WRAPPED = false ∧ s.gen (bits v.toNat 0 4) ≠ 255 ∧ s.instClusters (bits v.toNat 0 4) = [] ∧ s.power.standbyPend = false)) ∧
    (∃ (s : State) (q : Req) (v : Word), (s.devOpen q 0 = true ∧ siState (bits v.toNat 0 4) s = 1 ∧ s.fb (SEC_INST_RES (reqIx q)) SEC_INST_RES.BUSY = false) ∧ (s.fb (SEC_INST (bits v.toNat 0 4)) SEC_INST.WRAPPED = false ∧ s.gen (bits v.toNat 0 4) ≠ 255 ∧ s.instClusters (bits v.toNat 0 4) = [] ∧ s.power.standbyPend = false)) ∧
    (∃ (s : State) (i : InstNo) (c : InstCmd), (siState i.val s = 3 ∧ liveItem i.val (s.gen i.val) s = false ∧ s.pat.cur = none ∧ s.fb (PAT_INST i.val) PAT_INST.STATE = false) ∧ (instCmd i.val s = some c ∧ c.op = 2 ∧ c.who = some 2 ∧ c.timedOut = false ∧ c.resp = none ∧ s.logRoom 1)) ∧
    (∃ (s : State) (i : InstNo) (c : InstCmd), (siState i.val s = 3 ∧ liveItem i.val (s.gen i.val) s = false ∧ s.pat.cur = none ∧ s.fb (PAT_INST i.val) PAT_INST.STATE = false) ∧ (instCmd i.val s = some c ∧ c.op ≠ 2)) ∧
    (∃ (s : State) (i : InstNo) (c : InstCmd), siState i.val s = 3 ∧ instCmd i.val s = some c ∧ c.who = some 2 ∧ c.timedOut = false ∧ c.resp = none ∧ s.logRoom 1) ∧
    (∃ (s : State) (i : InstNo) (c : InstCmd), (siState i.val s = 4 ∧ instCmd i.val s = some c ∧ c.who = some 2 ∧ c.timedOut = false ∧ c.resp = none ∧ c.op = 3 ∧ s.fb (PAT_INST i.val) PAT_INST.STATE = false ∧ s.fb (SEC_INST i.val) SEC_INST.CLAIMED = false) ∧ (s.fb (MEMC_WIN i.val) MEMC_WIN.EN = false ∧ s.logRoom 1)) ∧
    (∃ (s : State) (i : InstNo) (c : InstCmd), siState i.val s = 4 ∧ instCmd i.val s = some c ∧ c.who = some 2 ∧ c.timedOut = false ∧ c.resp = none ∧ c.op = 4 ∧ c.unlock = true) ∧
    (∃ (s : State) (i : InstNo) (c : InstCmd) (k : Nat) (l : List Nat), siState i.val s = 4 ∧ instCmd i.val s = some c ∧ c.who = none ∧ c.timedOut = false ∧ c.resp = some (k, l) ∧ c.op = 3 ∧ c.unlock = true) := by
  refine ⟨?_, ?_, ?_, ?_, ?_, ?_, ?_, ?_, ?_, ?_, ?_, ?_, ?_⟩
  · exact ⟨ready, .pf, 7, by decide +kernel⟩
  · exact ⟨(List.range 16).foldl (fun s i => s.fs (SEC_INST i) SEC_INST.STATE 1) ready, .mp, 0x10, by decide +kernel⟩
  · exact ⟨own.fs (DNET_BLK 0) DNET_BLK.IVAL 0, .pf, 0, by decide +kernel⟩
  · exact ⟨ready, .pf, 3, by decide +kernel⟩
  · exact ⟨fenceSt, .pf, 3, by decide +kernel⟩
  · exact ⟨own.fs (DNET_BLK 0) DNET_BLK.IVAL 0, .pf, 0, by decide +kernel⟩
  · exact ⟨own.fs (DNET_BLK 0) DNET_BLK.IVAL 0, .fm, 0, by decide +kernel⟩
  · exact ⟨fencing 2, 3, ⟨some 2, 2, false, false, false, none⟩, by decide +kernel⟩
  · exact ⟨fencing 4, 3, ⟨some 2, 4, false, true, false, none⟩, by decide +kernel⟩
  · exact ⟨fencing 3, 3, ⟨some 2, 3, false, false, false, none⟩, by decide +kernel⟩
  · exact ⟨(clearing 3), 0, ⟨some 2, 3, false, false, false, none⟩, by decide +kernel⟩
  · exact ⟨(clearing 4), 0, ⟨some 2, 4, false, true, false, none⟩, by decide +kernel⟩
  · exact ⟨setInstCmd 0 (some ⟨none, 3, false, true, false, some (0x100, [])⟩) (clearing 3), 0, ⟨none, 3, false, true, false, some (0x100, [])⟩, 0x100, [], by decide +kernel⟩
theorem witness_TenantsClaimLockAndLeave :
    (∃ (s : State), thimbleBusy s = false ∧ s.sec.sessions.length + s.sec.handshake.length < 8) ∧
    (∃ (s : State) (n : Nat), thimbleBusy s = false ∧ s.sec.handshake.contains n = true) ∧
    (∃ (s : State) (n : Nat), thimbleBusy s = false ∧ secured n s = true) ∧
    (∃ (s : State) (n : Nat), thimbleBusy s = false ∧ secured n s = true) ∧
    (∃ (s : State) (n : Nat) (i : InstNo), thimbleBusy s = false ∧ secured n s = true ∧ s.fb SEC_STATUS SEC_STATUS.DBG = false ∧ claim i.val s = none ∧ siState i.val s = 1 ∧ stepState i.val s = stStopped ∧ s.logRoom 1) ∧
    (∃ (s : State) (n : Nat) (i : InstNo), thimbleBusy s = false ∧ secured n s = true ∧ claim i.val s = none ∧ siState i.val s ≠ 1) ∧
    (∃ (s : State) (n : Nat) (i : InstNo) (k : List Byte), thimbleBusy s = false ∧ secured n s = true ∧ holds n i.val s = true ∧ k ≠ []) ∧
    (∃ (s : State) (n : Nat) (i : InstNo) (k : List Byte), thimbleBusy s = false ∧ secured n s = true ∧ holds n i.val s = true ∧ k ≠ []) ∧
    (∃ (s : State) (n : Nat) (i : InstNo), thimbleBusy s = false ∧ secured n s = true ∧ holds n i.val s = false) ∧
    (∃ (s : State) (n : Nat), thimbleBusy s = false ∧ secured n s = true) ∧
    (∃ (s : State) (n : Nat) (i : InstNo), (thimbleBusy s = false ∧ secured n s = true ∧ holds n i.val s = true ∧ siState i.val s = 1 ∧ s.power.standbyPend = false) ∧ (s.fb (SEC_INST i.val) SEC_INST.WRAPPED = false ∧ s.gen i.val ≠ 255 ∧ s.instClusters i.val = [])) ∧
    (∃ (s : State) (n : Nat) (i : InstNo), thimbleBusy s = false ∧ secured n s = true ∧ tdi i.val s = 0 ∧ holds n i.val s = true ∧ siState i.val s = 1 ∧ stepState i.val s = stStopped ∧ s.fv SEC_STATUS SEC_STATUS.DBG = 0) ∧
    (∃ (s : State) (n : Nat) (i : InstNo), thimbleBusy s = false ∧ secured n s = true ∧ tdi i.val s = 1 ∧ s.sec.ide.any (fun x => x.2.contains i.val) = true) ∧
    (∃ (s : State) (n : Nat) (i : InstNo), thimbleBusy s = false ∧ secured n s = true ∧ tdi i.val s ≠ 1) ∧
    (∃ (s : State) (n : Nat) (i : InstNo), (thimbleBusy s = false ∧ secured n s = true ∧ tdi i.val s ≠ 0 ∧ siState i.val s = 1 ∧ s.power.standbyPend = false) ∧ (s.fb (SEC_INST i.val) SEC_INST.WRAPPED = false ∧ s.gen i.val ≠ 255 ∧ s.instClusters i.val = [])) ∧
    (∃ (s : State) (n : Nat) (i : InstNo), (thimbleBusy s = false ∧ secured n s = true ∧ siState i.val s = 1 ∧ s.power.standbyPend = false) ∧ (s.fb (SEC_INST i.val) SEC_INST.WRAPPED = false ∧ s.gen i.val ≠ 255 ∧ s.instClusters i.val = [])) := by
  refine ⟨?_, ?_, ?_, ?_, ?_, ?_, ?_, ?_, ?_, ?_, ?_, ?_, ?_, ?_, ?_, ?_⟩
  · exact ⟨ready, by decide +kernel⟩
  · exact ⟨{ ready with sec := { ready.sec with handshake := [4] } }, 4, by decide +kernel⟩
  · exact ⟨sessSt, 4, by decide +kernel⟩
  · exact ⟨sessSt, 4, by decide +kernel⟩
  · exact ⟨sessSt, 4, 0, by decide +kernel⟩
  · exact ⟨sessSt, 4, 5, by decide +kernel⟩
  · exact ⟨heldSt, 4, 0, List.replicate 32 7, by decide +kernel⟩
  · exact ⟨heldSt, 4, 0, List.replicate 96 7, by decide +kernel⟩
  · exact ⟨sessSt, 4, 0, by decide +kernel⟩
  · exact ⟨sessSt, 4, by decide +kernel⟩
  · exact ⟨heldSt.fs (DNET_BLK 0) DNET_BLK.IVAL 0, 4, 0, by decide +kernel⟩
  · exact ⟨heldSt, 4, 0, by decide +kernel⟩
  · exact ⟨{ (heldSt.fs (SEC_INST 0) SEC_INST.TDI 1) with sec := { heldSt.sec with ide := [(1, [0, 3])] } }, 4, 0, by decide +kernel⟩
  · exact ⟨heldSt, 4, 0, by decide +kernel⟩
  · exact ⟨(heldSt.fs (DNET_BLK 0) DNET_BLK.IVAL 0).fs (SEC_INST 0) SEC_INST.TDI 2, 4, 0, by decide +kernel⟩
  · exact ⟨heldSt.fs (DNET_BLK 0) DNET_BLK.IVAL 0, 4, 0, by decide +kernel⟩
theorem witness_SecurityRegistersGuardTheirState :
    (∃ (s : State) (q : Req) (v : Word), s.devOpen q 0 = true ∧ bits v.toNat 0 2 ≠ 3) ∧
    (∃ (s : State) (q : Req) (v : Word), s.devOpen q 0 = true ∧ bits v.toNat 0 2 = 0 ∧ s.logRoom 1) ∧
    (∃ (s : State) (q : Req) (v : Word), s.devOpen q 0 = true ∧ (bits v.toNat 0 2 = 1 ∨ bits v.toNat 0 2 = 2) ∧ s.sec.nonce = false) ∧
    (∃ (s : State) (q : Req), s.devOpen q 0 = true ∧ s.fb SEC_CFG SEC_CFG.LOCK = false) ∧
    (∃ (s : State) (q : Req), s.devOpen q 0 = true ∧ s.fb SEC_CFG SEC_CFG.LOCK = true) ∧
    (∃ (s : State) (q : Req), s.devOpen q 0 = true ∧ s.fb SEC_CFG SEC_CFG.LOCK = false) ∧
    (∃ (s : State) (q : Req) (v : Word), s.devOpen q 0 = true ∧ 1 ≤ bits v.toNat 0 8 ∧ bits v.toNat 0 8 ≤ 6) ∧
    (∃ (s : State) (j : InstNo) (v : Word), s.gateOpen (.vf j) 0 = true ∧ 0x10 ≤ bits v.toNat 0 8 ∧ bits v.toNat 0 8 < 0x20 ∧ bits v.toNat 0 8 ≠ 0x10 + j.val) ∧
    (∃ (s : State) (q : Req), s.devOpen q 0 = true) := by
  refine ⟨?_, ?_, ?_, ?_, ?_, ?_, ?_, ?_, ?_⟩
  · exact ⟨ready, .pf, 1, by decide +kernel⟩
  · exact ⟨ready.fs SEC_STATUS SEC_STATUS.DBG 2, .mp, 0, by decide +kernel⟩
  · exact ⟨ready, .pf, 2, by decide +kernel⟩
  · exact ⟨ready, .mp, by decide +kernel⟩
  · exact ⟨ready.fs SEC_CFG SEC_CFG.LOCK 1, .pf, by decide +kernel⟩
  · exact ⟨ready, .pf, by decide +kernel⟩
  · exact ⟨ready, .pf, 5, by decide +kernel⟩
  · exact ⟨own, 0, 0x1F, by decide +kernel⟩
  · exact ⟨ready.wr (SEC_EXH 4) 9, .pf, by decide +kernel⟩
theorem witness_ProcessorPairTakesOver :
    (∃ (s : State), s.dev.hubDown = false ∧ hasStandby s = true ∧ s.pat.cur = none ∧ s.logRoom 1) ∧
    (∃ (s : State) (n : Nat), s.dev.hubDown = false ∧ mpFailed (!mpActive s) s = true ∧ s.fv MGT_MP_CTRL MGT_MP_CTRL.RSTMAX ≤ s.mgmt.wdResets - n ∧ s.power.standbyPend = false) ∧
    (∃ (s : State) (n : Nat) (b : Boot), (s.dev.hubDown = false ∧ mpFailed (!mpActive s) s = true ∧ s.mgmt.wdResets - n < s.fv MGT_MP_CTRL MGT_MP_CTRL.RSTMAX) ∧ (s.pers = {} ∧ s.clusters = [] ∧ s.dev.fusedJlk = [] ∧ s.devState ≠ dsStandby ∧ b = cleanBoot)) ∧
    (∃ (s : State) (q : Req) (v : Word), s.devOpen q 0 = true ∧ q ≠ .fm ∧ 5 ≤ bits v.toNat 0 8 ∧ hasStandby s = true ∧ s.pat.cur = none) ∧
    (∃ (s : State), s.devOpen .fm 0 = true) ∧
    (∃ (s : State) (q : Req) (v : Word), s.devOpen q 0 = true ∧ q ≠ .fm ∧ bits v.toNat 0 8 < 5) ∧
    (∃ (s : State), s.dev.hubDown = false ∧ hasStandby s = true ∧ s.pat.cur = none ∧ s.logRoom 1) ∧
    (∃ (s : State), s.mgmt.takeover = true) ∧
    (∃ (s : State), s.mgmt.noStandby = true ∧ s.logRoom 1) := by
  refine ⟨?_, ?_, ?_, ?_, ?_, ?_, ?_, ?_, ?_⟩
  · exact ⟨ready, by decide +kernel⟩
  · exact ⟨{ (ready.fs MGT_MP_STAT MGT_MP_STAT.B_FAIL 1) with mgmt := { ready.mgmt with wdResets := 9 } }, 1, by decide +kernel⟩
  · exact ⟨ready.fs MGT_MP_STAT MGT_MP_STAT.B_FAIL 1, 0, cleanBoot, by decide +kernel⟩
  · exact ⟨ready, .pf, 0x14, by decide +kernel⟩
  · exact ⟨ready, by decide +kernel⟩
  · exact ⟨ready, .mp, 4, by decide +kernel⟩
  · exact ⟨ready, by decide +kernel⟩
  · exact ⟨mpTakeover ready, by decide +kernel⟩
  · exact ⟨mpTakeover ready, by decide +kernel⟩
theorem witness_SensorsAndTheEventLog :
    (∃ (s : State), s.dev.hubDown = false) ∧
    (∃ (s : State) (v : BitVec 16), s.dev.hubDown = false ∧ 840 < v.toNat ∧ v.toNat < 0x8000 ∧ s.fv (MGT_SENS 1) MGT_SENS.WARN = 0 ∧ s.fv (MGT_SENS 1) MGT_SENS.CRIT = 0 ∧ s.logRoom 2) ∧
    (∃ (s : State), s.dev.hubDown = false) ∧
    (∃ (s : State), s.logRoom 1) ∧
    (∃ (s : State), s.logIn.length = 1024) ∧
    (∃ (s : State) (r : LogRec) (l : List LogRec), s.logIn = r :: l ∧ s.dev.hubDown = false ∧ s.dev.logLost = 0 ∧ s.mgmt.seq < 0xFFFFFFFF ∧ r.inst = none ∧ s.mgmt.ring.length < 4096) ∧
    (∃ (s : State) (r : LogRec) (l : List LogRec) (i : InstNo), s.logIn = r :: l ∧ s.dev.hubDown = false ∧ s.dev.logLost = 0 ∧ s.mgmt.seq < 0xFFFFFFFF ∧ r.inst = some i.val ∧ sget (fun _ => 0) i.val s.mgmt.vseq < 0xFFFFFFFF) ∧
    (∃ (s : State) (q : Req) (v : Word), s.devOpen q 0 = true ∧ (logFind q v.toNat s).isSome = true) ∧
    (∃ (s : State) (q : Req) (v : Word), s.gateOpen q 0 = true ∧ logFind q v.toNat s = none) ∧
    (∃ (s : State), s.fv MGT_CMX_CTRL MGT_CMX_CTRL.DIV ≤ s.mgmt.cmx ∧ s.fb MGT_CMX_CTRL MGT_CMX_CTRL.EN = true ∧ s.fb DNET_CMAP_CTRL DNET_CMAP_CTRL.EN = true ∧ s.dev.hubDown = false) ∧
    (∃ (s : State), s.fv MGT_CMX_CTRL MGT_CMX_CTRL.DIV ≤ s.mgmt.cmx ∧ s.fb MGT_CMX_CTRL MGT_CMX_CTRL.EN = true ∧ s.fb DNET_CMAP_CTRL DNET_CMAP_CTRL.EN = true) := by
  refine ⟨?_, ?_, ?_, ?_, ?_, ?_, ?_, ?_, ?_, ?_, ?_⟩
  · exact ⟨ready, by decide +kernel⟩
  · exact ⟨ready, 841, by decide +kernel⟩
  · exact ⟨ready.wr (MGT_SENS 2) 0xFFFFFFFF, by decide +kernel⟩
  · exact ⟨ready, by decide +kernel⟩
  · exact ⟨{ ready with logIn := List.replicate 1024 ⟨1, none, [], 0⟩ }, by decide +kernel⟩
  · exact ⟨{ ready with logIn := [⟨6, none, [1], 5⟩] }, ⟨6, none, [1], 5⟩, [], by decide +kernel⟩
  · exact ⟨{ ready with logIn := [⟨4, some 3, [1], 5⟩] }, ⟨4, some 3, [1], 5⟩, [], 3, by decide +kernel⟩
  · exact ⟨{ ready with mgmt := { ready.mgmt with ring := [[7, 1, 2]] } }, .pf, 7, by decide +kernel⟩
  · exact ⟨{ own with mgmt := { own.mgmt with ring := [[7, 7, 2, 0, 0x131000]] } }, .vf 0, 7, by decide +kernel⟩
  · exact ⟨(ready.fs MGT_CMX_CTRL MGT_CMX_CTRL.EN 1).fs DNET_CMAP_CTRL DNET_CMAP_CTRL.EN 1 |>.fs MGT_CMX_CTRL MGT_CMX_CTRL.DIV 0, by decide +kernel⟩
  · exact ⟨(ready.fs MGT_CMX_CTRL MGT_CMX_CTRL.EN 1).fs DNET_CMAP_CTRL DNET_CMAP_CTRL.EN 1 |>.fs MGT_CMX_CTRL MGT_CMX_CTRL.DIV 0, by decide +kernel⟩
theorem witness_OrderlyRemovalRunsItsSteps :
    (∃ (s : State), (s.devState = dsReady ∨ s.devState = dsServing) ∧ s.fb MGT_ATTN MGT_ATTN.NOSHORT = false ∧ s.logRoom 1) ∧
    (∃ (s : State) (q : Req) (v : Word), (s.devOpen q 0 = true ∧ (s.devState = dsReady ∨ s.devState = dsServing) ∧ bit v.toNat 8 = false ∧ bits v.toNat 0 8 < 2 ∧ s.logRoom 1) ∧ ((s.wrFlds MGT_ATTN (setBits v.toNat 0 1 1) [MGT_ATTN.NOSHORT, MGT_ATTN.GRACE, MGT_ATTN.QUIET]).fb MGT_ATTN MGT_ATTN.NOSHORT = false)) ∧
    (∃ (s : State) (q : Req) (v : Word), (s.devOpen q 0 = true ∧ bit v.toNat 2 = false ∧ s.devState = dsDraining ∧ phase s < 5 ∧ s.power.standbyPend = false ∧ s.logRoom 1) ∧ ((List.range 16).all (fun i => !s.fb (STEP_STATUS i) STEP_STATUS.STATE) = true)) ∧
    (∃ (s : State) (q : Req) (v : Word), s.devOpen q 0 = true ∧ bit v.toNat 1 = false ∧ s.devState = dsDraining ∧ phase s = 8) ∧
    (∃ (s : State), s.logRoom 1) ∧
    (∃ (s : State), s.devState ≠ dsStandby ∧ s.pat.cur = none ∧ s.logRoom 1) ∧
    (∃ (s : State), s.devState = dsDraining ∧ phase s = 3 ∧ allStopped s = true ∧ (List.range 12).all (fun p => jState p s != jsUp) = true) ∧
    (∃ (s : State), s.devState = dsDraining ∧ phase s = 6 ∧ removalLeft s = 0 ∧ s.logRoom 1) ∧
    (∃ (s : State), s.devState = dsDraining ∧ phase s = 8) := by
  refine ⟨?_, ?_, ?_, ?_, ?_, ?_, ?_, ?_, ?_⟩
  · exact ⟨seqRun, by decide +kernel⟩
  · exact ⟨ready, .pf, 0, by decide +kernel⟩
  · exact ⟨remSt 3, .fm, 0, by decide +kernel⟩
  · exact ⟨remSt 8, .fm, 4, by decide +kernel⟩
  · exact ⟨ready, by decide +kernel⟩
  · exact ⟨ready, by decide +kernel⟩
  · exact ⟨(remSt 3).fs (ETH_CTRL 1) ETH_CTRL.EN 1, by decide +kernel⟩
  · exact ⟨(remSt 6).fs (JLK_OWNRANK 2) JLK_OWNRANK.VALID 1, by decide +kernel⟩
  · exact ⟨(remSt 8).fs (JLK_CTRL 3) JLK_CTRL.EN 1, by decide +kernel⟩
theorem witness_FirmwareUpdateRunsItsStates :
    (∃ (s : State) (q : Req), s.devOpen q 0 = true ∧ q ≠ .fm ∧ s.fv MGT_FWU_SRC MGT_FWU_SRC.ADDR % 64 ≠ 0) ∧
    (∃ (s : State), ¬(s.devState = dsFaultHold ∧ s.fv MGT_BOOT_STAT MGT_BOOT_STAT.FHCAUSE = 1) ∧ s.dev.hubDown = false) ∧
    (∃ (s : State) (c : Nat) (f : FwImg), fwState s = 1 ∧ s.mgmt.fwu = some (c, f) ∧ (c = 3 ∨ c = 4) ∧ s.logRoom 1) ∧
    (∃ (s : State) (f : FwImg), fwState s = 1 ∧ s.mgmt.fwu = some (2, f) ∧ s.pat.cur = none ∧ hasStandby s = true ∧ s.logRoom 1) ∧
    (∃ (s : State) (c : Nat) (f : FwImg), fwState s = 1 ∧ s.mgmt.fwu = some (c, f) ∧ s.logRoom 1) ∧
    (∃ (s : State) (c : Nat) (f : FwImg), fwState s = 2 ∧ s.mgmt.fwu = some (c, f) ∧ fwSettled s = true ∧ s.logRoom 1) ∧
    (∃ (s : State) (q : Req) (c : Nat) (f : FwImg), s.devOpen q 0 = true ∧ q ≠ .fm ∧ s.fb MGT_FWU_STAT MGT_FWU_STAT.HEALTHY = true ∧ s.mgmt.fwu = some (c, f) ∧ 1 ≤ c ∧ c ≤ 4) ∧
    (∃ (s : State) (q : Req) (c : Nat) (f : FwImg), s.devOpen q 0 = true ∧ q ≠ .fm ∧ (fwState s = 2 ∨ fwState s = 3) ∧ s.mgmt.fwu = some (c, f) ∧ 3 ≤ c) ∧
    (∃ (s : State) (c : Nat) (f : FwImg), fwState s = 3 ∧ s.fb MGT_FWU_CTRL MGT_FWU_CTRL.AUTOCONF = true ∧ s.mgmt.fwu = some (c, f) ∧ 1 ≤ c ∧ c ≤ 4) ∧
    (∃ (s : State) (c : Nat) (f : FwImg), fwState s = 3 ∧ s.fb MGT_FWU_CTRL MGT_FWU_CTRL.AUTOCONF = false ∧ s.mgmt.fwu = some (c, f) ∧ 3 ≤ c) ∧
    (∃ (s : State) (c : Nat) (f : FwImg), (fwState s = 2 ∨ fwState s = 3) ∧ s.mgmt.fwu = some (c, f) ∧ 3 ≤ c) ∧
    (∃ (s : State) (c : Nat) (f : FwImg), fwState s = 4 ∧ s.mgmt.fwu = some (c, f) ∧ fwSettled s = true) ∧
    (∃ (s : State) (q : Req) (f : FwImg), s.devOpen q 0 = true ∧ q ≠ .fm ∧ fwState s = 0 ∧ 1 ≤ s.pers.fwLast ∧ s.pers.fwLast ≤ 4 ∧ fwCur s.pers.fwLast s = some f) := by
  refine ⟨?_, ?_, ?_, ?_, ?_, ?_, ?_, ?_, ?_, ?_, ?_, ?_, ?_⟩
  · exact ⟨ready.fs MGT_FWU_SRC MGT_FWU_SRC.ADDR 8, .pf, by decide +kernel⟩
  · exact ⟨ready, by decide +kernel⟩
  · exact ⟨fwSt 1 3, 3, ⟨2, 1, [0, 0, 0, 0], []⟩, by decide +kernel⟩
  · exact ⟨fwSt 1 2, ⟨2, 1, [0, 0, 0, 0], []⟩, by decide +kernel⟩
  · exact ⟨fwSt 1 1, 1, ⟨2, 1, [0, 0, 0, 0], []⟩, by decide +kernel⟩
  · exact ⟨fwSt 2 4, 4, ⟨2, 1, [0, 0, 0, 0], []⟩, by decide +kernel⟩
  · exact ⟨fwSt 3 4, .pf, 4, ⟨2, 1, [0, 0, 0, 0], []⟩, by decide +kernel⟩
  · exact ⟨fwSt 3 4, .mp, 4, ⟨2, 1, [0, 0, 0, 0], []⟩, by decide +kernel⟩
  · exact ⟨(fwSt 3 3).fs MGT_FWU_CTRL MGT_FWU_CTRL.AUTOCONF 1, 3, ⟨2, 1, [0, 0, 0, 0], []⟩, by decide +kernel⟩
  · exact ⟨fwSt 3 3, 3, ⟨2, 1, [0, 0, 0, 0], []⟩, by decide +kernel⟩
  · exact ⟨fwSt 2 3, 3, ⟨2, 1, [0, 0, 0, 0], []⟩, by decide +kernel⟩
  · exact ⟨fwSt 4 3, 3, ⟨2, 1, [0, 0, 0, 0], []⟩, by decide +kernel⟩
  · exact ⟨{ ready with pers := { ready.pers with fwLast := 3, fwCur := [(3, some ⟨2, 9, [0, 0, 0, 0], []⟩)] } }, .mp, ⟨2, 9, [0, 0, 0, 0], []⟩, by decide +kernel⟩
theorem witness_NarrowWritesAreIgnored :
    ∃ (s : State) (q : Req), s.admits q 0 = true := by
  exact ⟨ready, .pf, by decide +kernel⟩
theorem witness_TimerCountIsWrittenOnlyWhileStopped :
    (∃ (s : State) (q : Req) (n : Fin 8), s.timerOpen q n.val = true ∧ s.fb (TMR_CTRL n.val) TMR_CTRL.EN = false) ∧
    (∃ (s : State) (q : Req) (n : Fin 8), s.timerOpen q n.val = true ∧ s.fb (TMR_CTRL n.val) TMR_CTRL.EN = true) ∧
    (∃ (s : State) (q : Req) (n : Fin 8) (v : Word), s.timerOpen q n.val = true ∧ s.tmrGood n.val v.toNat = true) ∧
    (∃ (s : State) (n : Fin 8) (c : Bool), s.rd64 (TMR_COUNT n.val) = 0 ∧ 0 < s.rd64 (tmrCmp n.val c)) := by
  refine ⟨?_, ?_, ?_, ?_⟩
  · exact ⟨ready, .mp, 0, by decide +kernel⟩
  · exact ⟨ready.fs (TMR_CTRL 7) TMR_CTRL.EN 1, .pf, 7, by decide +kernel⟩
  · exact ⟨(ready.fs (TMR_CTRL 7) TMR_CTRL.EN 1).wr64 (TMR_COUNT 7) 77, .pf, 7, 1, by decide +kernel⟩
  · exact ⟨ready.wr64 (TMR_CMP1 5) 1, 5, true, by decide +kernel⟩
theorem witness_HoldStopsTakingOnly :
    (∃ (s : State) (c : Cl) (k : Sl) (d : QdescIn), s.unitStill (pcid c k) = true ∧ s.qAdmits (pcid c k) d = true ∧ d.post = none ∧ d.count = 0 ∧ (s.core (pcid c k)).q.inBuf = []) ∧
    (∃ (s : State) (c : Cl) (k : Sl) (d : QdescIn), (s.unitStill (pcid c k) = true ∧ s.qAdmits (pcid c k) d = true ∧ d.count = 0 ∧ d.post = none ∧ d.words.length = 20 ∧ s.fb (Q_STAT (pcid c k) (d.qid.toNat % 64)) Q_STAT.HELD = true) ∧ (bits (dw (d.words.map (·.toNat)) 0) 0 4 = qKind (pcid c k) (d.qid.toNat % 64) s) ∧ ((s.core (pcid c k)).q.inBuf = [] ∧ qOcc (pcid c k) (d.qid.toNat % 64) s < qDepth (pcid c k) (d.qid.toNat % 64) s)) ∧
    (∃ (s : State) (c : Cl) (k : Sl) (d : QdescIn), s.unitStill (pcid c k) = true ∧ s.qAdmits (pcid c k) d = true ∧ d.post = none ∧ d.count = 0 ∧ (s.core (pcid c k)).q.inBuf = []) ∧
    (∃ (s : State) (c : Cl) (k : Sl) (d : QdescIn) (l : List QTaken), (s.unitStill (pcid c k) = true ∧ s.qAdmits (pcid c k) d = true ∧ d.post = none ∧ d.count = 0 ∧ (s.core (pcid c k)).q.inBuf = [] ∧ qKind (pcid c k) (d.qid.toNat % 64) s = 2) ∧ ((List.range 64).all (fun n => n == d.qid.toNat % 64 || qKind (pcid c k) n s != 2) = true ∧ s.fv (Q_CFG (pcid c k) (d.qid.toNat % 64)) Q_CFG.PRI < 4) ∧ (qTakenN (pcid c k) (d.qid.toNat % 64) s < qOcc (pcid c k) (d.qid.toNat % 64) s ∧ (s.core (pcid c k)).q.stopped = [] ∧ (s.core (pcid c k)).q.taken = l)) := by
  refine ⟨?_, ?_, ?_, ?_⟩
  · exact ⟨qWith 2 0 [1], 0, 0, qPk 2 0 2, by decide +kernel⟩
  · exact ⟨(qSt 2).fs (Q_STAT 0 0) Q_STAT.HELD 1, 0, 0, qPk 0 0 2, by decide +kernel⟩
  · exact ⟨(qSt 2).fs (Q_STAT 0 0) Q_STAT.HELD 1, 0, 0, qPk 3 0 2, by decide +kernel⟩
  · exact ⟨(qWith 2 0 [1]).fs (Q_STAT 0 0) Q_STAT.HELD 1, 0, 0, qPk 3 0 2, [], by decide +kernel⟩

/-! Worked examples of spec/ -/

/-- Tuck's axon 12, bit for bit (chapter 3): CHK = 0x0C and AXN64 = 0xFFFF_1900_0400_0500. -/
theorem test_axn64_check : secEnc 41 (0x500 + 64 * 2 ^ 20 + 2 ^ 40) = 0x0C ∧
    0x500 + 64 * 2 ^ 20 + 2 ^ 40 + 0x0C * 2 ^ 41 + 0xFFFF * 2 ^ 48 = 0xFFFF190004000500 := by decide +kernel
/-- A flipped data bit of it is corrected (R97). -/
theorem test_axn64_corrects : secDec 41 (0x501 + 64 * 2 ^ 20 + 2 ^ 40) 0x0C = (some (0x500 + 64 * 2 ^ 20 + 2 ^ 40), true) := by decide +kernel
/-- HCHK = 0x2B and HPAR = 1 of the Tuck event 0x013A_0025_1AC0_0000 (chapter 7). -/
theorem test_event_check : evtChk 0x013A00251AC00000 = 0x2B + 64 := by decide +kernel
/-- RHDR64 = 0x7C00_0268_4003_5353 of the same event. -/
theorem test_routing_header : hdrSeal (0x0268400353530 / 16 + 2 ^ 57) = 0x7C00026840035353 := by decide +kernel
/-- The core SRAM window of PCID 613 and the segment window of segment 5 of cluster 19 (chapters 2 and 3). -/
theorem test_windows : sramBase 613 = 0x004109940000 ∧ segBase 19 5 = 0x00404CA00000 := by decide
/-- Table 2-12 run on compartment 37 of Tuck in step 1,000: V 1,000 and I 3,520 spike, V ← 0, RC ← 2, END keeps it. -/
theorem test_lif_step :
    nProgram ⟨[1000, 0, 3520, 0, 0, 0, 0, 0, 512, 4096, 0, 0, 0, 0, 0, 0], false, 0, false, none, false, 0⟩
      [0x50000000, 0x65000000, 0x10008000, 0x06002000, 0x40009000, 0x71000000, 0x2D0A0000, 0x61000002, 0x7C000003]
    = ⟨[0, 0, 3520, 0, 0, 0, 0, 0, 512, 4096, 0, 0, 0, 0, 0, 0], true, 2, false, some none, true, 0⟩ := by decide +kernel
/-- Table 5-5: 0.3, −2.5 and 500.0 in E4M3 and E5M2, 0.3 in BF16 and H16, −2.5 in S8. -/
theorem test_float_conversions :
    (fenc fE4M3 true (fdec fF32 0x3E99999A)).1 = 0x2A ∧ (fenc fE4M3 true (fdec fF32 0xC0200000)).1 = 0xC2 ∧
    (fenc fE4M3 true (fdec fF32 0x43FA0000)).1 = 0x7E ∧ (fenc fE4M3 false (fdec fF32 0x43FA0000)).1 = 0x7F ∧
    (fenc fE5M2 true (fdec fF32 0x3E99999A)).1 = 0x35 ∧ (fenc fE5M2 true (fdec fF32 0x43FA0000)).1 = 0x60 ∧
    (fenc fBF16 true (fdec fF32 0x3E99999A)).1 = 0x3E9A ∧ (fenc fH16 true (fdec fF32 0x3E99999A)).1 = 0x34CD := by decide +kernel
/-- Chapter 4: at t = 70,000 a stamp of 0xFF00 has age 4,720; the stamp of a step that ends in 0xFFFF. -/
theorem test_ages : ageOf 70000 0xFF00 = some 4720 ∧ stampOf 0x1FFFF = 0xFFFE ∧ ageOf 5 0xFFFF = none := by decide
/-- The state after reset that the spec gives: Bring-up, stage 0, no command waiting. -/
theorem test_reset : State.reset.devState = dsBringup ∧ State.reset.rd64 TIME64 = 0 ∧ State.reset.pending = [] := by decide +kernel

/-! Published vectors of the algorithms that the spec names -/

theorem test_sha384_empty : beNat (sha384 []) =
    0x38b060a751ac96384cd9327eb1b1e36a21fdb71114be07434c0cc7bf63f6e1da274edebfe76f65fbd51ad2f14898b95b := by decide +kernel
theorem test_sha384_abc : beNat (sha384 [0x61, 0x62, 0x63]) =
    0xcb00753f45a35e8bb5a03d699ac65007272c32ab0eded1631a8b605a43ff5bed8086072ba1e7cc2358baeca134c825a7 := by decide +kernel
/-- AES-256-GCM, a key and nonce of zeros: the tag of the empty message (the GCM specification's test case 13). -/
theorem test_gcm : gcmOpen (List.replicate 32 0) (List.replicate 12 0) []
    [0x53, 0x0f, 0x8a, 0xfb, 0xc7, 0x45, 0x36, 0xb9, 0xa9, 0x63, 0xb4, 0xf1, 0xc4, 0xcb, 0x73, 0x8b] = some [] := by decide +kernel
/-- A signature by the secret exponent 1 verifies, and not for another digest. -/
theorem test_ecdsa :
    let key := (leBytes 48 ecGx).reverse ++ (leBytes 48 ecGy).reverse
    let sig := fun (d : Nat) => (leBytes 48 (ecGx % ecN)).reverse ++ (leBytes 48 ((d + ecGx % ecN) % ecN)).reverse
    ecdsaOk key (leBytes 48 77).reverse (sig 77) = true ∧ ecdsaOk key (leBytes 48 78).reverse (sig 77) = false := by decide +kernel

/-! Well-formedness refuses each ill-formed size -/

theorem test_wf_windows : Instr.wf (.memoryWindowAccess .pf 0 (.rd 0)) = false ∧ Instr.wf (.memoryWindowAccess .pf 0 (.rd 257)) = false ∧
    Instr.wf (.coreSramWindowAccess .pf 0 0 (.wr [])) = false ∧ Instr.wf (.segmentWindowAccess .pf 0 0 0 (.wr (List.replicate 257 0))) = false ∧
    Instr.wf (.memoryWindowAccess .pf 0 (.rd 256)) = true := by decide +kernel
theorem test_wf_queue : Instr.wf (.qdescEnq 0 0 ⟨0, 0, 0, false, [], 0, 0, 0, 0, none⟩) = false ∧
    Instr.wf (.qdescDoorbell 0 0 ⟨0, 0, 0, false, [1], 0, 0, 0, 0, none⟩) = false ∧ Instr.wf (.qdescHold 0 0 ⟨0, 0, 0, false, [1], 0, 0, 0, 0, none⟩) = false ∧
    Instr.wf (.qdescRelease 0 0 ⟨0, 0, 0, false, [1], 0, 0, 0, 0, none⟩) = false ∧ Instr.wf (.qdescEnq 0 0 (qPk 0 0 2)) = true := by decide +kernel
theorem test_wf_data : Instr.wf (.sliceWrReq (slReq 0) [] false) = false ∧ Instr.wf (.jlkRawSend 0 (slReq 0) (List.replicate 257 0)) = false ∧
    Instr.wf (.bulkDescStart 0 0 []) = false ∧ Instr.wf (.logPost 1 none (List.replicate 11 0)) = false ∧ Instr.wf (.fittingTick 0 [] []) = false ∧
    Instr.wf (.lcfReceive 0 [[]]) = false ∧ Instr.wf (.lcfReceive 0 [List.replicate 9 []]) = true := by decide +kernel
theorem test_wf_keys : Instr.wf (.claim 0 0 []) = false ∧ Instr.wf (.setPatternKey 0 0 (List.replicate 33 0)) = false ∧
    Instr.wf (.setSignKey 0 0 [1]) = false ∧ Instr.wf (.getReport 0 0 []) = false ∧ Instr.wf (.spdmRequest (.challenge 0 [])) = false ∧
    Instr.wf (.spdmRequest (.measurements none 0 false [])) = false := by decide +kernel

/-! The host's two questions -/

/-- No row of the table has bits, so no word spells a command (log entry 1). -/
theorem test_no_words (n w : Nat) : decodeTableWord n w = none := rfl
/-- A command in front is what the next step runs. -/
theorem test_step_runs_front : step { State.reset with pending := [.mpException] } = .next State.reset := by rfl

end Sys2Proof.Tests
end

section
/-! SUPPORT. What the operations behind a connection change and a fault record do, each said once: CLA_SEGMAP and the segment of a slot
(R89), RAS_STAT (R460), the rewrite of the floor-plan map (R36), fault records (R459), and the end of an access (R13). -/
namespace Sys2Proof.Floorplan
open Sys2Proof.Machine

variable (s : State)

/-! Reads of a register that two states share -/

theorem fv_of_rd {s t : State} {k : Nat} {f : Fld} (hf : f.lo + f.w ≤ 32) (h : t.rd k = s.rd k) : t.fv k f = s.fv k f := by
  simp only [State.fv, hf, if_true, h]
theorem segOf_of_rd {s t : State} {p : Nat} (h : t.rd (CLA_SEGMAP (p / 32) (p % 32)) = s.rd (CLA_SEGMAP (p / 32) (p % 32))) :
    t.segOf p = s.segOf p := by
  unfold State.segOf State.fb
  rw [fv_of_rd (f := CLA_SEGMAP.CONN) (by decide) h, fv_of_rd (f := CLA_SEGMAP.SEG) (by decide) h]
theorem rd_log_ne {k : Nat} (h : k ≠ LOG_DROP) (t : Nat) (i : Option Nat) (l : List Nat) : (s.log t i l).rd k = s.rd k := by
  unfold State.log
  split
  · rfl
  · exact State.rd_inc_ne s h 1
/-- A record posted in a state that differs from `s` in registers and `dev` leaves a state that differs in those and the log's queue. -/
theorem log_frame {s u : State} (h : ∃ rg d, u = { s with regs := rg, dev := d }) (t : Nat) (i : Option Nat) (l : List Nat) :
    ∃ rg d q, u.log t i l = { s with regs := rg, dev := d, logIn := q } := by
  obtain ⟨rg, d, rfl⟩ := h
  unfold State.log
  split
  · exact ⟨rg, d, _, rfl⟩
  · exact ⟨_, _, s.logIn, rfl⟩

/-! PCIDs -/

theorem pcid_div (c : Cl) (k : Sl) : pcid c k / 32 = c.val := by have := k.isLt; unfold pcid; omega
theorem pcid_mod (c : Cl) (k : Sl) : pcid c k % 32 = k.val := by have := k.isLt; unfold pcid; omega

/-! RAS_STAT and the spares of a cluster -/

theorem rd_rasStat_ne {k : Nat} (h : k ≠ RAS_STAT) : (rasStat s).rd k = s.rd k := by
  simp only [rasStat]
  rw [State.rd_fs_ne _ (by decide) h, State.rd_fs_ne _ (by decide) h, State.rd_fs_ne _ (by decide) h, State.rd_fs_ne _ (by decide) h]
@[simp] theorem rasStat_mem : (rasStat s).mem = s.mem := by simp [rasStat]
@[simp] theorem rasStat_cpl : (rasStat s).cpl = s.cpl := by simp [rasStat]
@[simp] theorem rasStat_clusters : (rasStat s).clusters = s.clusters := by simp [rasStat]
@[simp] theorem rasStat_net : (rasStat s).net = s.net := by simp [rasStat]
@[simp] theorem rasStat_dev : (rasStat s).dev = s.dev := by simp [rasStat]

theorem rd_refreshSpares_ne {k c : Nat} (hf : k ≠ CLA_FO_STAT c) (hr : k ≠ RAS_STAT) : (refreshSpares c s).rd k = s.rd k := by
  simp only [refreshSpares]
  rw [rd_rasStat_ne _ hr, State.rd_fs_ne _ (by decide) hf, State.rd_fs_ne _ (by decide) hf]
@[simp] theorem refreshSpares_mem (c : Nat) : (refreshSpares c s).mem = s.mem := by simp [refreshSpares]
@[simp] theorem refreshSpares_cpl (c : Nat) : (refreshSpares c s).cpl = s.cpl := by simp [refreshSpares]
@[simp] theorem refreshSpares_clusters (c : Nat) : (refreshSpares c s).clusters = s.clusters := by simp [refreshSpares]

/-! The connection of a segment -/

theorem CLA_SEGMAP_ne_FO_STAT (c : Cl) (k : Sl) : CLA_SEGMAP c.val k.val ≠ CLA_FO_STAT c.val := by
  have := k.isLt
  unfold CLA_SEGMAP CLA_FO_STAT
  omega
/-- The registers of a cluster lie above those of the device. -/
theorem device_lt_base_cla (c : Nat) : GLB_FPM_GEN < base_cla c ∧ LOG_DROP < base_cla c ∧ RAS_STAT < base_cla c := by
  unfold GLB_FPM_GEN LOG_DROP RAS_STAT base_cla base_glb base_mgt
  omega

/-- The segment number fits its field, so the slot reads back connected to it. -/
theorem segOf_connectSeg {p g : Nat} (hg : g < 32) : (connectSeg p g s).segOf p = some g := by
  have hk : CLA_SEGMAP (p / 32) (p % 32) ≠ CLA_SEG_SWITCHES (p / 32) := by
    unfold CLA_SEGMAP CLA_SEG_SWITCHES; omega
  have hrd := fun t : State => State.rd_inc_ne t hk 1
  have hconn : (connectSeg p g s).fv (CLA_SEGMAP (p / 32) (p % 32)) CLA_SEGMAP.CONN = 1 := by
    rw [connectSeg, fv_of_rd (by decide) (hrd _), State.fv_fs_same _ (by decide)]; rfl
  have hseg : (connectSeg p g s).fv (CLA_SEGMAP (p / 32) (p % 32)) CLA_SEGMAP.SEG = g := by
    rw [connectSeg, fv_of_rd (by decide) (hrd _), State.fv_fs_disj _ (by decide) (by decide) (by decide), State.fv_fs_same _ (by decide)]
    exact Nat.mod_eq_of_lt hg
  simp [State.segOf, State.fb, hconn, hseg]
theorem rd_connectSeg_ne {k p : Nat} (g : Nat) (hm : k ≠ CLA_SEGMAP (p / 32) (p % 32)) (hc : k ≠ CLA_SEG_SWITCHES (p / 32)) :
    (connectSeg p g s).rd k = s.rd k := by
  rw [connectSeg, State.rd_inc_ne _ hc, State.rd_fs_ne _ (by decide) hm, State.rd_fs_ne _ (by decide) hm]
@[simp] theorem connectSeg_mem (p g : Nat) : (connectSeg p g s).mem = s.mem := by simp [connectSeg]
@[simp] theorem connectSeg_cpl (p g : Nat) : (connectSeg p g s).cpl = s.cpl := by simp [connectSeg]
@[simp] theorem connectSeg_clusters (p g : Nat) : (connectSeg p g s).clusters = s.clusters := by simp [connectSeg]

/-! The rewrite of the floor-plan map -/

/-- `t` is `s` with other words in the body of the floor-plan map. -/
def FpmOnly (s t : State) : Prop := ∃ m, t = { s with dev := { s.dev with fpm := m } }

theorem FpmOnly.refl : FpmOnly s s := ⟨s.dev.fpm, rfl⟩
theorem FpmOnly.trans {s t u : State} : FpmOnly s t → FpmOnly t u → FpmOnly s u := by
  rintro ⟨m, rfl⟩ ⟨n, rfl⟩
  exact ⟨n, rfl⟩
theorem FpmOnly.rd {s t : State} (h : FpmOnly s t) (k : Nat) : t.rd k = s.rd k := by
  obtain ⟨m, rfl⟩ := h
  rfl
theorem FpmOnly.setFpm (w v : Nat) : FpmOnly s (s.setFpm w v) := ⟨_, rfl⟩
theorem FpmOnly.foldl {α : Type} {f : State → α → State} (hf : ∀ t a, FpmOnly t (f t a)) (l : List α) : FpmOnly s (l.foldl f s) := by
  induction l generalizing s with
  | nil => exact .refl s
  | cons a l ih => exact (hf s a).trans (ih (f s a))
theorem fpmCluster_fpmOnly (c : Nat) : FpmOnly s (fpmCluster s c) :=
  (FpmOnly.setFpm s _ _).trans (.foldl _ (fun _ _ => .setFpm ..) _)
theorem fpmSlice_fpmOnly (x : Nat) : FpmOnly s (fpmSlice s x) := .setFpm ..
theorem fpmJlk_fpmOnly (p : Nat) : FpmOnly s (fpmJlk s p) := .setFpm ..
theorem fpmEth_fpmOnly (p : Nat) : FpmOnly s (fpmEth s p) := .setFpm ..

/-- A rewrite of the map changes its body, moves MGEN by 2 and posts one record. -/
theorem fpmRewrite_eq (cs sl : List Nat) : ∃ t, FpmOnly s t ∧
    fpmRewrite cs sl s = (t.wr GLB_FPM_GEN ((s.rd GLB_FPM_GEN + 2) % 2 ^ 32)).log 0x03 none [(s.rd GLB_FPM_GEN + 2) % 2 ^ 32] := by
  have hbody := (((FpmOnly.foldl s fpmCluster_fpmOnly cs).trans (.foldl _ fpmSlice_fpmOnly sl)).trans
    (.foldl _ fpmJlk_fpmOnly (List.range 12))).trans (.foldl _ fpmEth_fpmOnly (List.range 2))
  refine ⟨_, hbody, ?_⟩
  rw [← hbody.rd]
  rfl
theorem rd_fpmRewrite_gen (cs sl : List Nat) : (fpmRewrite cs sl s).rd GLB_FPM_GEN = (s.rd GLB_FPM_GEN + 2) % 2 ^ 32 := by
  obtain ⟨t, -, ht⟩ := fpmRewrite_eq s cs sl
  rw [ht, rd_log_ne _ (by decide), State.rd_wr_same, Nat.mod_mod]
theorem rd_fpmRewrite_ne {k : Nat} (hg : k ≠ GLB_FPM_GEN) (hl : k ≠ LOG_DROP) (cs sl : List Nat) : (fpmRewrite cs sl s).rd k = s.rd k := by
  obtain ⟨t, hst, ht⟩ := fpmRewrite_eq s cs sl
  rw [ht, rd_log_ne _ hl, State.rd_wr_ne _ hg, hst.rd]
theorem fpmRewrite_frame (cs sl : List Nat) : ∃ rg d q, fpmRewrite cs sl s = { s with regs := rg, dev := d, logIn := q } := by
  obtain ⟨t, ⟨m, rfl⟩, ht⟩ := fpmRewrite_eq s cs sl
  rw [ht]
  exact log_frame ⟨_, _, rfl⟩ ..
@[simp] theorem fpmRewrite_mem (cs sl : List Nat) : (fpmRewrite cs sl s).mem = s.mem := by
  obtain ⟨rg, d, q, h⟩ := fpmRewrite_frame s cs sl
  rw [h]
@[simp] theorem fpmRewrite_cpl (cs sl : List Nat) : (fpmRewrite cs sl s).cpl = s.cpl := by
  obtain ⟨rg, d, q, h⟩ := fpmRewrite_frame s cs sl
  rw [h]
@[simp] theorem fpmRewrite_clusters (cs sl : List Nat) : (fpmRewrite cs sl s).clusters = s.clusters := by
  obtain ⟨rg, d, q, h⟩ := fpmRewrite_frame s cs sl
  rw [h]

/-! Fault records -/

theorem log_frecs (t : Nat) (i : Option Nat) (l : List Nat) : (s.log t i l).dev.frecs = s.dev.frecs := by
  unfold State.log
  split
  · rfl
  · simp
/-- A fault record goes to the front of the 64 that are kept. -/
theorem fault_frecs (r : List Nat) (i : Option Nat) : (s.fault r i).dev.frecs = (r :: s.dev.frecs).take 64 := by
  simp only [State.fault, log_frecs]
  split
  · simp
  · split <;> simp
/-- A fault record touches the records, their counters and the log. -/
theorem fault_frame (r : List Nat) (i : Option Nat) : ∃ rg d q, s.fault r i = { s with regs := rg, dev := d, logIn := q } := by
  unfold State.fault
  refine log_frame ?_ ..
  split
  · exact ⟨_, _, rfl⟩
  · split
    · exact ⟨_, _, rfl⟩
    · exact ⟨_, _, rfl⟩
/-- A unit outside the rewinds writes one fault record, and takes one free value for it. -/
theorem faultAt_eq (cls outcome : Nat) (c : Option Nat) (slot lcid detail bound : Nat) : ∃ r i,
    s.faultAt cls outcome c slot lcid detail bound = { s with fresh := s.fresh + 1 }.fault r i := ⟨_, _, rfl⟩
theorem faultAt_frecs_length (cls outcome : Nat) (c : Option Nat) (slot lcid detail bound : Nat) :
    (s.faultAt cls outcome c slot lcid detail bound).dev.frecs.length = min 64 (s.dev.frecs.length + 1) := by
  obtain ⟨r, i, h⟩ := faultAt_eq s cls outcome c slot lcid detail bound
  rw [h, fault_frecs, List.length_take, List.length_cons]
theorem faultAt_frame (cls outcome : Nat) (c : Option Nat) (slot lcid detail bound : Nat) : ∃ rg d q,
    s.faultAt cls outcome c slot lcid detail bound = { s with regs := rg, dev := d, logIn := q, fresh := s.fresh + 1 } := by
  obtain ⟨r, i, h⟩ := faultAt_eq s cls outcome c slot lcid detail bound
  obtain ⟨rg, d, q, hf⟩ := fault_frame { s with fresh := s.fresh + 1 } r i
  exact ⟨rg, d, q, h.trans hf⟩
@[simp] theorem faultAt_mem (cls outcome : Nat) (c : Option Nat) (slot lcid detail bound : Nat) :
    (s.faultAt cls outcome c slot lcid detail bound).mem = s.mem := by
  obtain ⟨rg, d, q, h⟩ := faultAt_frame s cls outcome c slot lcid detail bound
  rw [h]
@[simp] theorem faultAt_cpl (cls outcome : Nat) (c : Option Nat) (slot lcid detail bound : Nat) :
    (s.faultAt cls outcome c slot lcid detail bound).cpl = s.cpl := by
  obtain ⟨rg, d, q, h⟩ := faultAt_frame s cls outcome c slot lcid detail bound
  rw [h]
@[simp] theorem faultAt_net (cls outcome : Nat) (c : Option Nat) (slot lcid detail bound : Nat) :
    (s.faultAt cls outcome c slot lcid detail bound).net = s.net := by
  obtain ⟨rg, d, q, h⟩ := faultAt_frame s cls outcome c slot lcid detail bound
  rw [h]

/-! The end of an access (R13) -/

@[simp] theorem done_ok_regs (q : Req) (d : List Nat) (b : Bool) : (s.done q cOK d b).regs = s.regs := by
  simp [State.done, State.finish]
theorem foldl_wr_dev {α : Type} (k v : α → Nat) (l : List α) : (l.foldl (fun t a => t.wr (k a) (v a)) s).dev = s.dev := by
  induction l generalizing s with
  | nil => rfl
  | cons a l ih => rw [List.foldl_cons, ih, State.wr_dev]
/-- A completion discards the high word of a pair that the requester held. -/
theorem done_cap (q : Req) (c : Nat) (d : List Nat) (b : Bool) : (s.done q c d b).dev.cap = s.dev.cap.filter (·.1 != reqIx q) := by
  rw [State.done]
  show setHeld (s.finish q c d b).dev.cap (reqIx q) 0 none = _
  rw [State.finish_dev]
  rfl

end Sys2Proof.Floorplan
end

section
/-! SUPPORT. O13: a connection change begins and ends, and a band supervisor fails. -/
namespace Sys2Proof.Floorplan
open Sys2Proof.Machine

variable {s : State}

/-- No change runs in the cluster, so no segment is within one. -/
theorem swapping_of_no_swaps {c : Nat} (h : (s.cluster c).swaps = []) (g : Nat) : swapping c g s = false := by
  simp [swapping, h]

/-- R89, log entry 29: an admitted connection of a good segment, free or already the slot's, is appended to the changes and completes OK. -/
theorem exec_segmapWrite_starts_change {q : Req} {c : Cl} {k : Sl} {v : Word} (hopen : s.clusterOpen q c.val = true)
    (hhalt : coreState (pcid c k) s = stOff ∨ halted (pcid c k) s = true) (hslot : s.slotGone (pcid c k) = false)
    (hconn : bit v.toNat 31 = true) (hrange : bits v.toNat 0 5 ≤ 16) (hgood : bit (s.fv (CLA_SEGOK c.val) CLA_SEGOK.OK) (bits v.toNat 0 5) = true)
    (hfree : slotOf c.val (bits v.toNat 0 5) s = none ∨ slotOf c.val (bits v.toNat 0 5) s = some k.val) (hidle : (s.cluster c.val).swaps = []) :
    exec (.segmapWrite q c k v) s = .next ((s.setCluster c.val { s.cluster c.val with
      swaps := [(k.val, s.segOf (pcid c k), some (bits v.toNat 0 5))] }).done q cOK [] false) := by
  have hstop : (coreState (pcid c k) s != stOff && !halted (pcid c k) s) = false := by
    rcases hhalt with h | h <;> simp [h]
  have hrange' : ¬ bits v.toNat 0 5 > 16 := by omega
  show ok (writeSegmap q c.val k.val v.toNat s) = _
  rw [ok, writeSegmap, onCluster_open hopen]
  simp only [pcid] at hstop hslot ⊢
  rcases hfree with hfree | hfree <;> simp [hstop, hfree, hslot, hconn, hgood, hidle, hrange', swapping_of_no_swaps hidle]

/-- R90: the end of the oldest change, when it connects a segment. -/
theorem exec_segmapChangeEnd_connects {c : Cl} {k : Sl} {o : Option Nat} {g : Nat} {r : List (Nat × Option Nat × Option Nat)}
    (h : (s.cluster c.val).swaps = (k.val, o, some g) :: r) :
    exec (.segmapChangeEnd c) s = .next (fpmRewrite [c.val] [] (refreshSpares c.val
      (connectSeg (pcid c k) g (s.setCluster c.val { s.cluster c.val with swaps := r })))) := by
  show execSegmapChangeEnd c s = _
  simp only [execSegmapChangeEnd, h]
  rfl

/-- R28: a band supervisor that works is bypassed, with a fault record. -/
theorem exec_bandSupervisorFail_records {b : Fin 8} (h : s.net.bandsDown.contains b.val = false) :
    exec (.bandSupervisorFail b) s = .next
      ((rasStat (s.setNet { s.net with bandsDown := b.val :: s.net.bandsDown })).faultAt 0xA 1 none b.val 0xFFF 0 10000) := by
  show execBandSupervisorFail b s = _
  simp only [execBandSupervisorFail, h, Bool.false_eq_true, if_false]
  rfl

/-- What stands after that end: the segment is connected and the map has moved on. -/
theorem segmapChangeEnd_reads {c : Cl} {k : Sl} {g : Nat} {r : List (Nat × Option Nat × Option Nat)} (hg : g ≤ 16) :
    let t := fpmRewrite [c.val] [] (refreshSpares c.val (connectSeg (pcid c k) g (s.setCluster c.val { s.cluster c.val with swaps := r })))
    t.segOf (pcid c k) = some g ∧ t.rd GLB_FPM_GEN = (s.rd GLB_FPM_GEN + 2) % 2 ^ 32 := by
  intro t
  constructor
  · rw [← segOf_connectSeg (s.setCluster c.val { s.cluster c.val with swaps := r }) (p := pcid c k) (g := g) (by omega)]
    apply segOf_of_rd
    obtain ⟨hgen, hdrop, hras⟩ : GLB_FPM_GEN < CLA_SEGMAP c.val k.val ∧ LOG_DROP < CLA_SEGMAP c.val k.val ∧ RAS_STAT < CLA_SEGMAP c.val k.val := by
      have := device_lt_base_cla c.val
      unfold CLA_SEGMAP
      omega
    rw [pcid_div, pcid_mod, rd_fpmRewrite_ne _ (Nat.ne_of_gt hgen) (Nat.ne_of_gt hdrop),
      rd_refreshSpares_ne _ (CLA_SEGMAP_ne_FO_STAT c k) (Nat.ne_of_gt hras)]
  · obtain ⟨hfo, hmap, hsw⟩ : GLB_FPM_GEN ≠ CLA_FO_STAT c.val ∧ GLB_FPM_GEN ≠ CLA_SEGMAP c.val k.val ∧ GLB_FPM_GEN ≠ CLA_SEG_SWITCHES c.val := by
      have := device_lt_base_cla c.val
      unfold CLA_FO_STAT CLA_SEGMAP CLA_SEG_SWITCHES
      omega
    rw [← pcid_div c k, ← pcid_mod c k] at hmap
    rw [← pcid_div c k] at hsw
    rw [rd_fpmRewrite_gen, rd_refreshSpares_ne _ hfo (by decide), rd_connectSeg_ne _ _ hmap hsw, State.rd_setCluster]

/-- Settles O13: each command has one explicit outcome, and the laws of the operations it is made of say what that outcome reads. -/
theorem segmentSwitchAndSupervisorFailure : Obligations.SegmentSwitchAndSupervisorFailure := by
  unfold Obligations.SegmentSwitchAndSupervisorFailure
  refine ⟨?start, ?finish, ?supervisor⟩
  case start =>
    rintro s q c k v hopen hhalt hslot ⟨hconn, hrange⟩ hgood hfree hidle
    refine ⟨_, exec_segmapWrite_starts_change hopen hhalt hslot hconn hrange hgood hfree hidle, ?_, ?_, ?_, ?_⟩ <;> simp [State.answered]
  case finish =>
    intro s c k o g r hswaps hg
    obtain ⟨hseg, hgen⟩ := segmapChangeEnd_reads (s := s) (c := c) (k := k) (r := r) hg
    refine ⟨_, exec_segmapChangeEnd_connects hswaps, ?_, hseg, hgen, ?_, ?_⟩
    · rw [State.cluster_congr (fpmRewrite_clusters ..), State.cluster_congr (refreshSpares_clusters ..),
        State.cluster_congr (connectSeg_clusters ..), State.cluster_setCluster_same]
    · simp
    · simp
  case supervisor =>
    intro s b hb
    refine ⟨_, exec_bandSupervisorFail_records hb, ?_, ?_, ?_, ?_⟩
    · simp [State.setNet]
    · rw [faultAt_frecs_length, rasStat_dev, State.setNet_dev]
    · simp
    · simp

end Sys2Proof.Floorplan
end

section
/-! SUPPORT. O41 and O47: both frame a completed register access by an equation that keeps `dev`, but a completion discards what the
requester holds of a 64-bit pair (R13, log entry 15), and that is kept in `dev`. -/
namespace Sys2Proof.Floorplan
open Sys2Proof.Machine

variable {s : State}

/-- The device in Ready after the management processor has read the low word of TIME64, 0: it holds the high word for its next read. -/
def pairRead : State :=
  let r := State.reset.setDevState dsReady
  { r with cpl := [⟨.mp, cOK, [0], false⟩], dev := { r.dev with cap := [(reqIx .mp, TIME64, 0)] } }

/-- Whether a command led to the state `t`. -/
def leadsToState (r : Res) (t : State) : Bool :=
  match r with
  | .next u => decide (u = t)
  | _ => false
theorem eq_next_of_leadsToState {r : Res} {t : State} (h : leadsToState r t = true) : r = .next t := by
  cases r with
  | next u => rw [of_decide_eq_true h]
  | fault _ => cases h
  | refused _ => cases h
/-- One command reaches `pairRead` from Ready, so the counterexample is no artificial state. -/
theorem exec_rcRead_pairRead :
    exec (.rcRead .mp (BitVec.ofNat 32 TIME64) 2) (State.reset.setDevState dsReady) = .next pairRead :=
  eq_next_of_leadsToState (by decide +kernel)

theorem pairRead_devOpen : pairRead.devOpen .mp 0 = true := by decide +kernel
/-- A completion of the management processor's would change what `pairRead` holds. -/
theorem pairRead_cap_discarded : pairRead.dev.cap.filter (·.1 != reqIx .mp) ≠ pairRead.dev.cap := by decide

/-- Setting DEV in a value that names no partition leaves PART empty. -/
theorem partitions_of_dev {v : Nat} (hpart : bits v 4 4 = 0) :
    (List.range 4).filter (fun p => bit (setBits v 0 1 1) (4 + p)) = [] := by
  refine List.filter_eq_nil_iff.2 fun p hp => ?_
  have hp4 : p < 4 := List.mem_range.1 hp
  have hbit := testBit_bits v 4 4 p
  rw [hpart, Nat.zero_testBit] at hbit
  have hclear : v.testBit (4 + p) = false := by simpa [hp4] using hbit.symm
  simp [bit, testBit_setBits, hclear]

/-- R414: the whole outcome of a device-reset request with none of the other bits; `done` is where the held pair goes. -/
theorem exec_deviceResetRequest_next {q : Req} {v : Word} (hopen : s.devOpen q 0 = true) (hpart : bits v.toNat 4 4 = 0)
    (hmgtr : bit v.toNat 1 = false) : exec (.deviceResetRequest q v) s =
      .next { s.done q cOK [] false with mgmt := { s.mgmt with devReq := true } } := by
  have hdev : bit (setBits v.toNat 0 1 1) 0 = true := by rw [bit, testBit_setBits]; rfl
  have hmgtr' : bit (setBits v.toNat 0 1 1) 1 = false := by simpa [bit, testBit_setBits] using hmgtr
  show ok (writeRstCtrl q (setBits v.toNat 0 1 1) s) = _
  rw [ok, writeRstCtrl, onMgt_open hopen]
  simp [partitions_of_dev hpart, hdev, hmgtr']

/-- Refutes O41: on `pairRead` a device-reset request of the management processor discards the captured word of TIME64, which the clause
of that request says stays. -/
theorem not_resetsOfCoresClustersAndPartitions : ¬ Obligations.ResetsOfCoresClustersAndPartitions := by
  unfold Obligations.ResetsOfCoresClustersAndPartitions
  rintro ⟨-, -, -, -, -, -, -, -, -, -, -, -, -, -, hrequest, -⟩
  obtain ⟨t, hexec, -, -, hframe⟩ := hrequest pairRead .mp 0 ⟨pairRead_devOpen, by decide, by decide⟩
  rw [exec_deviceResetRequest_next pairRead_devOpen (by decide) (by decide)] at hexec
  have hgone : t.dev.cap = pairRead.dev.cap.filter (·.1 != reqIx .mp) := by
    rw [← Host.Outcome.next.inj hexec]
    exact done_cap ..
  have hkept : t.dev.cap = pairRead.dev.cap := by rw [hframe]
  exact pairRead_cap_discarded (hgone.symm.trans hkept)

/-- R460: a selection of a fault record ends like every access, and so discards what its requester held. -/
theorem writeFrecSel_cap {q : Req} (hgate : s.gateOpen q 0 = true) (v : Nat) :
    (writeFrecSel q v s).dev.cap = s.dev.cap.filter (·.1 != reqIx q) := by
  rw [writeFrecSel, State.gate_open hgate, done_cap, foldl_wr_dev, State.fs_dev]

theorem gateOpen_of_devOpen {q : Req} {n : Nat} (h : s.devOpen q n = true) : s.gateOpen q n = true := by
  simp only [State.devOpen, Bool.and_eq_true] at h
  cases q <;> simp_all [State.gateOpen, isVf]

/-- Refutes O47: on `pairRead` a selection of a fault record by the management processor discards the captured word of TIME64, where the
clause of the fault window keeps all but registers and completions. -/
theorem not_clusterFailsOverToItsSpare : ¬ Obligations.ClusterFailsOverToItsSpare := by
  unfold Obligations.ClusterFailsOverToItsSpare
  rintro ⟨-, -, -, -, -, -, -, -, hselect, -⟩
  obtain ⟨t, hexec, -, -, -, hframe⟩ := hselect pairRead .mp 0 pairRead_devOpen
  have hgone : t.dev.cap = pairRead.dev.cap.filter (·.1 != reqIx .mp) := by
    rw [← Host.Outcome.next.inj hexec]
    exact writeFrecSel_cap (gateOpen_of_devOpen pairRead_devOpen) _
  have hkept : t.dev.cap = pairRead.dev.cap := by rw [hframe]
  exact pairRead_cap_discarded (hgone.symm.trans hkept)

end Sys2Proof.Floorplan
end

section
/-! SUPPORT. O58: the epoch number of a step and the step at which an epoch close is due, each said once. -/
namespace Sys2Proof.Learning
open Sys2Proof.Machine

variable {p t : Nat} {s : State}

theorem epochOf_enabled (hen : s.fb (LRN_CTRL p) LRN_CTRL.EN = true) :
    epochOf p t s = t / s.fv (LRN_EPOCH p) LRN_EPOCH.LEN := by
  rw [epochOf, lrnEn, if_pos hen]

theorem epochOf_disabled (hen : s.fb (LRN_CTRL p) LRN_CTRL.EN = false) : epochOf p t s = 0 := by
  simp [epochOf, lrnEn, hen]

theorem lrnOn_of_no_fault (hfault : s.fb (LRN_STAT p) LRN_STAT.FAULT = false) :
    lrnOn p s = s.fb (LRN_CTRL p) LRN_CTRL.EN := by
  simp [lrnOn, lrnEn, hfault]

/-- A core whose LEN is 0 never has a close due. -/
theorem closeDue_iff : closeDue p t s = true ↔ lrnOn p s = true ∧ s.fv (LRN_EPOCH p) LRN_EPOCH.LEN ≠ 0 ∧
    t % s.fv (LRN_EPOCH p) LRN_EPOCH.LEN = s.fv (LRN_EPOCH p) LRN_EPOCH.LEN - 1 := by
  simp [closeDue]

/-- Settles O58: the steps with quotient k by LEN are the LEN steps from k × LEN on, and for LEN > 0 the guards of `closeDue`
leave EN and the last step of the epoch. -/
theorem epochsAreLENStepsLong : Obligations.EpochsAreLENStepsLong := by
  unfold Obligations.EpochsAreLENStepsLong
  intro s p t k hlen
  refine ⟨fun hen => ⟨?_, epochOf_enabled hen⟩, epochOf_disabled, fun hfault => ?_⟩
  · rw [epochOf_enabled hen, Nat.div_eq_iff hlen]
  · rw [closeDue_iff, lrnOn_of_no_fault hfault]
    simp only [ne_eq, Nat.ne_of_gt hlen, not_false_eq_true, true_and]

end Sys2Proof.Learning
end

section
/-! SUPPORT. O17: what the shared slices change beside their memory (R276–R279): no core, and of the registers of the clusters and
cores only Q_ABSORB. -/
namespace Sys2Proof.MacArray
open Sys2Proof.Machine

variable {s t u : State}

/-- `t` is `s` after work of the shared slices: cores stay, and of the registers in and above the cluster windows (Table 1-8) only
Q_ABSORB of a core changes. -/
def SliceWork (s t : State) : Prop := t.cores = s.cores ∧ ∀ k, base_cla 0 ≤ k → (∀ p, k ≠ Q_ABSORB p) → t.rd k = s.rd k

theorem SliceWork.refl : SliceWork s s := ⟨rfl, fun _ _ _ => rfl⟩
theorem SliceWork.trans (hst : SliceWork s t) (htu : SliceWork t u) : SliceWork s u :=
  ⟨htu.1.trans hst.1, fun k hk ha => (htu.2 k hk ha).trans (hst.2 k hk ha)⟩
/-- An update that leaves registers and cores. -/
theorem SliceWork.of_eq (hr : t.regs = s.regs) (hc : t.cores = s.cores) : SliceWork s t := ⟨hc, fun k _ _ => State.rd_congr hr k⟩
theorem SliceWork.inc {k : Nat} (hk : k < base_cla 0) (n : Nat) : SliceWork s (s.inc k n) :=
  ⟨State.inc_cores .., fun _ hj _ => State.rd_inc_ne s (Nat.ne_of_gt (Nat.lt_of_lt_of_le hk hj)) n⟩
theorem SliceWork.incAbsorb (p n : Nat) : SliceWork s (s.inc (Q_ABSORB p) n) :=
  ⟨State.inc_cores .., fun _ _ ha => State.rd_inc_ne s (ha p) n⟩
theorem SliceWork.inc64 {k : Nat} (hk : k + 4 < base_cla 0) (n : Nat) : SliceWork s (s.inc64 k n) :=
  ⟨State.inc64_cores .., fun _ hj _ => State.rd_wr64_ne s (by omega) (by omega) _⟩

/-- A write of bytes changes the memory and nothing else. -/
theorem wrN_frame (a : Nat) (l : List Byte) : ∃ m, s.wrN a l = { s with mem := m } := by
  unfold State.wrN
  exact List.foldlRecOn (motive := fun x : Nat × State => ∃ m, x.2 = { s with mem := m }) l _ ⟨s.mem, rfl⟩
    fun x ⟨m, hx⟩ b _ => ⟨_, by rw [hx]; rfl⟩
theorem SliceWork.wrN (a : Nat) (l : List Byte) : SliceWork s (s.wrN a l) := by
  obtain ⟨m, h⟩ := wrN_frame (s := s) a l
  rw [h]
  exact .of_eq rfl rfl

/-- The counters of the slices lie below the cluster windows. -/
theorem shmSl_lt {x : Nat} (hx : x < 64) : SHM_SL_CONF x < base_cla 0 ∧ SHM_SL_COLL x < base_cla 0 ∧ SHM_SL_ATOM x < base_cla 0 ∧
    SHM_SL_RDB x + 4 < base_cla 0 ∧ SHM_SL_WRB x + 4 < base_cla 0 := by
  unfold SHM_SL_CONF SHM_SL_COLL SHM_SL_ATOM SHM_SL_RDB SHM_SL_WRB base_shmSl base_cla
  omega
theorem shmConf_lt (e : BitVec 8) : SHM_CONF e.toNat < base_cla 0 := by
  have := e.isLt
  unfold SHM_CONF base_shm base_cla
  omega

theorem slSlice_lt (a : Nat) : slSlice a < 64 := bits_lt a 8 6

/-! Every operation of a slice, up to the acceptance of a queue unit's writes -/

theorem slAnswer_sliceWork (x : Nat) (r : SlReq) (o : SlOp) (code : Nat) (data : List Nat) : SliceWork s (slAnswer x r o code data s) := by
  cases o with
  | unit p reset d =>
    cases reset with
    | true => exact .incAbsorb p 1
    | false => exact .refl
  | _ => exact .of_eq rfl rfl

theorem slPerform_sliceWork (r : SlReq) (o : SlOp) : SliceWork s (slPerform r o s).2 := by
  obtain ⟨-, -, hatom, hrdb, hwrb⟩ := shmSl_lt (slSlice_lt (r.addr.toNat - shmBase))
  cases o with
  | rd n => exact .inc64 hrdb _
  | wr d => exact (SliceWork.wrN _ d).trans (.inc64 hwrb _)
  | unit p reset d => exact (SliceWork.wrN _ d).trans (.inc64 hwrb _)
  | atomic a v => exact (SliceWork.wrN _ _).trans (.inc hatom 1)

/-- What one cycle of a group has come to: the requests with the banks they still use, the banks taken, the state. -/
abbrev StallCycle := List (Nat × List Nat) × List Nat × State
/-- One request of a group in one cycle of slice `x` (R277): it takes its next bank or stalls. -/
def stallStep (x : Nat) (q : StallCycle) (y : Nat × List Nat) : StallCycle :=
  match y.2 with
  | [] => (q.1 ++ [y], q.2.1, q.2.2)
  | b :: t =>
    if q.2.1.contains b then (q.1 ++ [y], q.2.1, (q.2.2.inc (SHM_CONF y.1) 1).inc (SHM_SL_CONF x) 1)
    else (q.1 ++ [(y.1, t)], b :: q.2.1, q.2.2)

theorem slStalls_succ (fuel x : Nat) (l : List (Nat × List Nat)) : slStalls (fuel + 1) l s x =
    if l.all (fun y => y.2.isEmpty) then s
    else slStalls fuel (l.foldl (stallStep x) ([], [], s)).1 (l.foldl (stallStep x) ([], [], s)).2.2 x := rfl

/-- The requesters are endpoints, and the state is `s` after work of the slices. -/
def StallCycle.Ok (s : State) (q : StallCycle) : Prop := (∀ y ∈ q.1, SHM_CONF y.1 < base_cla 0) ∧ SliceWork s q.2.2

theorem stallStep_ok {x : Nat} (hx : x < 64) {q : StallCycle} (hq : q.Ok s) {y : Nat × List Nat} (hy : SHM_CONF y.1 < base_cla 0) :
    (stallStep x q y).Ok s := by
  obtain ⟨hl, hs⟩ := hq
  have hadd : ∀ b, ∀ z ∈ q.1 ++ [(y.1, b)], SHM_CONF z.1 < base_cla 0 := by
    intro b z hz
    rcases List.mem_append.1 hz with hz | hz
    · exact hl z hz
    · rwa [List.mem_singleton.1 hz]
  unfold stallStep
  split
  · exact ⟨hadd _, hs⟩
  · split
    · exact ⟨hadd _, (hs.trans (.inc hy 1)).trans (.inc (shmSl_lt hx).1 1)⟩
    · exact ⟨hadd _, hs⟩

theorem slStalls_sliceWork {x : Nat} (hx : x < 64) (fuel : Nat) {l : List (Nat × List Nat)} (hl : ∀ y ∈ l, SHM_CONF y.1 < base_cla 0) :
    SliceWork s (slStalls fuel l s x) := by
  induction fuel generalizing l s with
  | zero => exact .refl
  | succ fuel ih =>
    have hcycle : StallCycle.Ok s (l.foldl (stallStep x) ([], [], s)) :=
      List.foldlRecOn l (stallStep x) ⟨by simp, .refl⟩ fun _ hq y hy => stallStep_ok hx hq (hl y hy)
    rw [slStalls_succ]
    split
    · exact .refl
    · exact hcycle.2.trans (ih hcycle.1)

theorem slIssue_sliceWork {x : Nat} (hx : x < 64) : SliceWork s (slIssue x s) := by
  unfold slIssue
  refine List.foldlRecOn _ _ ?stalls fun t ht y _ => ?answer
  case stalls =>
    refine SliceWork.trans (.of_eq rfl rfl) (slStalls_sliceWork hx 64 fun y hy => ?_)
    obtain ⟨z, -, rfl⟩ := List.mem_map.1 hy
    exact shmConf_lt z.1.sep
  case answer =>
    refine ht.trans ?_
    dsimp only
    split
    · exact slAnswer_sliceWork ..
    · split
      · exact SliceWork.trans (.inc (shmSl_lt hx).2.1 1) (slAnswer_sliceWork ..)
      · exact (slPerform_sliceWork y.1 y.2).trans (slAnswer_sliceWork ..)

theorem slDrain_sliceWork {x : Nat} (hx : x < 64) (n : Nat) : SliceWork s (slDrain x n s) := by
  induction n generalizing s with
  | zero => exact .refl
  | succ n ih =>
    unfold slDrain
    split
    · exact .refl
    · exact (slIssue_sliceWork hx).trans ih

theorem slArrive_sliceWork (r : SlReq) (o : SlOp) (waits : Bool) : SliceWork s (slArrive r o waits s) := by
  have hx := slSlice_lt (r.addr.toNat - shmBase)
  have hroom : SliceWork s (if (s.slice (slSlice (r.addr.toNat - shmBase))).queue.length ≥ 64
      then slIssue (slSlice (r.addr.toNat - shmBase)) s else s) := by
    split
    · exact slIssue_sliceWork hx
    · exact .refl
  unfold slArrive
  dsimp only
  split
  · exact hroom.trans (.of_eq rfl rfl)
  · exact (hroom.trans (.of_eq rfl rfl)).trans (slDrain_sliceWork hx 64)

theorem outAccept_sliceWork (l : List (SlReq × SlOp)) : SliceWork s (outAccept l s).2 := by
  induction l generalizing s with
  | nil => exact .refl
  | cons y l ih =>
    unfold outAccept
    dsimp only
    split
    · exact .refl
    · exact (slArrive_sliceWork ..).trans ih

end Sys2Proof.MacArray
end

section
/-! SUPPORT. O17: the MAC array takes a queued descriptor and is freed of it (R183, R184); the completion of a queue entry
(R264) leaves the array alone. -/
namespace Sys2Proof.MacArray
open Sys2Proof.Machine Sys2Proof.Floorplan

variable {s t u : State}

/-- The MAC array of core `p` and its MAC_STAT stand in `t` as in `s`. -/
def MacKept (p : Nat) (s t : State) : Prop := (t.core p).mac = (s.core p).mac ∧ t.rd (MAC_STAT p) = s.rd (MAC_STAT p)

variable {p : Nat}

theorem MacKept.refl : MacKept p s s := ⟨rfl, rfl⟩
theorem MacKept.trans (hst : MacKept p s t) (htu : MacKept p t u) : MacKept p s u := ⟨htu.1.trans hst.1, htu.2.trans hst.2⟩
theorem MacKept.of_eq (hr : t.regs = s.regs) (hc : t.cores = s.cores) : MacKept p s t :=
  ⟨by rw [State.core_congr hc], State.rd_congr hr _⟩
theorem MacKept.setQ (x : QueueSt) : MacKept p s (s.setQ p x) := by
  simp [MacKept, State.setQ]
theorem MacKept.inc {k : Nat} (hk : MAC_STAT p ≠ k) (n : Nat) : MacKept p s (s.inc k n) :=
  ⟨by rw [State.core_inc], State.rd_inc_ne s hk n⟩
theorem MacKept.fs {k : Nat} {f : Fld} (hf : f.lo + f.w ≤ 32) (hk : MAC_STAT p ≠ k) (v : Nat) : MacKept p s (s.fs k f v) :=
  ⟨by rw [State.core_fs], State.rd_fs_ne s hf hk v⟩

/-- The ports of cores lie 0x2000 apart, so no core's Q_ABSORB is a MAC_STAT. -/
theorem macStat_ne_absorb (r : Nat) : MAC_STAT p ≠ Q_ABSORB r := by
  unfold MAC_STAT Q_ABSORB base_core
  omega
theorem base_cla_le_macStat : base_cla 0 ≤ MAC_STAT p := by
  unfold MAC_STAT base_cla base_core
  omega
theorem SliceWork.macKept (h : SliceWork s t) : MacKept p s t :=
  ⟨by rw [State.core_congr h.1], h.2 _ base_cla_le_macStat macStat_ne_absorb⟩

theorem outPump_macKept : MacKept p s (outPump p s) := by
  unfold outPump
  split
  · exact .refl
  · exact (outAccept_sliceWork _).macKept.trans (.setQ _)
theorem outPut_macKept (i a : Nat) (b : List Byte) : MacKept p s (outPut p i a b s) := (MacKept.setQ _).trans outPump_macKept
theorem qWrite_macKept (route i a : Nat) (ws : List Nat) : MacKept p s (qWrite p route i a ws s) := by
  unfold qWrite
  dsimp only
  split
  · split
    · exact (SliceWork.wrN _ _).macKept.trans (.of_eq rfl rfl)
    · exact .refl
  · split
    · exact outPut_macKept ..
    · exact .refl
  · exact .refl

theorem qFree_macKept (n : Nat) : MacKept p s (qFree p n s) := by
  have hptr : MAC_STAT p ≠ Q_PTR p n := by unfold MAC_STAT Q_PTR; omega
  have hstat : MAC_STAT p ≠ Q_STAT p n := by unfold MAC_STAT Q_STAT; omega
  exact (MacKept.fs (by decide) hptr _).trans (.fs (by decide) hstat _)

/-- The completion of an entry that chains no other leaves the array alone. -/
theorem qComplete_macKept {e : QTaken} (hchain : bit (dw e.words 0) 18 = false) (code info : Nat) :
    MacKept p s (qComplete p e code info s) := by
  have hstale : MAC_STAT p ≠ Q_STALE_CPL p := by unfold MAC_STAT Q_STALE_CPL; omega
  unfold qComplete
  simp only [hchain, Bool.false_eq_true, false_and, if_false]
  refine MacKept.trans ?_ (qFree_macKept _)
  split
  · exact (MacKept.setQ _).trans (.inc hstale 1)
  · exact (MacKept.setQ _).trans (qWrite_macKept ..)

/-! A queued descriptor is taken and completes (R183, R184) -/

theorem unitStill_iff : s.unitStill p = true ↔
    (coreState p s = stIdle → halted p s = true) ∧ s.faulted p = false ∧ (s.core p).q.out = [] := by
  simp only [State.unitStill, Bool.and_eq_true, Bool.or_eq_true, bne_iff_ne, ne_eq, Bool.not_eq_true', List.isEmpty_iff,
    Decidable.imp_iff_not_or, and_assoc]
theorem outPump_still (h : (s.core p).q.out = []) : outPump p s = s := by rw [outPump, if_pos h]
theorem wakeCore_still (h : coreState p s = stIdle → halted p s = true) : wakeCore p s = s := by
  refine if_neg fun ⟨hidle, hrun⟩ => ?_
  simp [h hidle] at hrun
/-- The completion of an entry that chains no other waits for nothing once the outbound buffer is empty. -/
theorem qWaits_still {e : QTaken} (hout : (s.core p).q.out = []) (hchain : bit (dw e.words 0) 18 = false) : qWaits p e s = false := by
  simp [qWaits, hout, hchain]
theorem faulted_of_rd (h : t.rd (CORE_STATE p) = s.rd (CORE_STATE p)) : t.faulted p = s.faulted p := by
  rw [State.faulted, State.faulted, State.fb, State.fb, fv_of_rd (by decide) h]

/-! What MAC_STAT and the array show of the descriptor held (R183) -/

/-- A write of a field changes the registers and nothing else. -/
theorem fs_frame (k : Nat) (f : Fld) (v : Nat) : ∃ rg, s.fs k f v = { s with regs := rg } := by
  unfold State.fs
  split
  · exact ⟨_, rfl⟩
  · exact ⟨_, rfl⟩
@[simp] theorem macHold_job (d : Option (List Nat)) : ((macHold p d s).core p).mac.job = d := by
  simp [macHold]
theorem macHold_busy (d : Option (List Nat)) : (macHold p d s).fv (MAC_STAT p) MAC_STAT.BUSY = b2n d.isSome := by
  rw [macHold, State.fv_fs_same _ (by decide)]
  cases d <;> rfl
theorem rd_macHold_ne {k : Nat} (h : k ≠ MAC_STAT p) (d : Option (List Nat)) : (macHold p d s).rd k = s.rd k := by
  rw [macHold, State.rd_fs_ne _ (by decide) h, State.rd_setCore]
theorem macHold_frame (d : Option (List Nat)) : macHold p d s = { s with regs := (macHold p d s).regs, cores := (macHold p d s).cores } := by
  obtain ⟨rg, h⟩ := fs_frame (s := s.setCore p { s.core p with mac := { (s.core p).mac with job := d } })
    (MAC_STAT p) MAC_STAT.BUSY (b2n d.isSome)
  rw [macHold, h]
  rfl

/-! The two commands -/

/-- R183: a descriptor that meets the validation of R174 is held by the free array. -/
theorem exec_macTakeQueued_takes {c : Cl} {k : Sl} {e : QTaken} (hstill : s.unitStill (pcid c k) = true)
    (hentry : engTaken (pcid c k) .dense s = some e) (hfree : (s.core (pcid c k)).mac.job = none)
    (hgo : s.fb (MAC_CTRL (pcid c k)) MAC_CTRL.HOLD = false)
    (hvalid : macAdmit (pcid c k) (bits (dw e.words 0) 4 4) true false (e.words.drop 4) s = cOK) :
    exec (.macTakeQueued c k) s = .next (macHold (pcid c k) (some (e.words.drop 4)) s) := by
  obtain ⟨hwake, hsound, hout⟩ := unitStill_iff.1 hstill
  show execMacTakeQueued c k s = _
  unfold execMacTakeQueued
  simp only [outPump_still hout, hentry, hfree, hgo, hsound, wakeCore_still hwake, hvalid, Option.isSome_none, Bool.false_eq_true,
    or_self, if_false]
  rfl

/-- The state in which a descriptor completes: what it waited for operands and stood suspended is counted (R184). -/
def macWaited (p feed held : Nat) (s : State) : State := (s.inc (MAC_FEED_STALL p) feed).inc64 (MAC_BUSY_CYC p) (feed + held)

theorem macWaited_faulted (p feed held : Nat) : (macWaited p feed held s).faulted p = s.faulted p := by
  obtain ⟨hfeed, hbusy, hbusy'⟩ : CORE_STATE p ≠ MAC_FEED_STALL p ∧ CORE_STATE p ≠ MAC_BUSY_CYC p ∧
      CORE_STATE p ≠ MAC_BUSY_CYC p + 4 := by
    unfold CORE_STATE MAC_FEED_STALL MAC_BUSY_CYC
    omega
  apply faulted_of_rd
  rw [macWaited, State.inc64, State.rd_wr64_ne _ hbusy hbusy', State.rd_inc_ne _ hfeed]

/-- R184: the descriptor held runs, the array is freed, the entry completes OK. -/
theorem exec_macDescComplete_completes {c : Cl} {k : Sl} {feed held : Word} {d : List Nat} {e : QTaken}
    (hstill : s.unitStill (pcid c k) = true) (hjob : (s.core (pcid c k)).mac.job = some d)
    (hentry : engTaken (pcid c k) .dense s = some e) (hchain : bit (dw e.words 0) 18 = false) :
    exec (.macDescComplete c k feed held) s = .next (qComplete (pcid c k) e cOK 0
      (macHold (pcid c k) none (macRun (pcid c k) true d (macWaited (pcid c k) feed.toNat held.toNat s)))) := by
  obtain ⟨-, hsound, hout⟩ := unitStill_iff.1 hstill
  have hsound' := (macWaited_faulted (s := s) (pcid c k) feed.toNat held.toNat).trans hsound
  unfold macWaited at hsound' ⊢
  show execMacDescComplete c k feed held s = _
  simp [execMacDescComplete, outPump_still hout, hjob, hentry, qWaits_still hout hchain, hsound', ok]

end Sys2Proof.MacArray
end

section
/-! SUPPORT. O17: a statistics reduction is started, captured and completed (R187, R188). -/
namespace Sys2Proof.MacArray
open Sys2Proof.Machine Sys2Proof.Floorplan

variable {s t : State}

/-! The start of a reduction -/

/-- What a write of SYNC_STAT_CTRL with GO = 1 leaves (R187): WHEN, CLR, BUSY and, of a requester that may name one, INST; STAT_REQ goes out. -/
def statStarted (q : Req) (i v : Nat) (s : State) : State :=
  let k := SYNC_STAT_CTRL (statCopy i)
  let s := (s.fs k SYNC_STAT_CTRL.WHEN (bits v 1 2)).fs k SYNC_STAT_CTRL.CLR (bits v 3 1)
  let s := if isVf q then s else s.fs (SYNC_STAT_CTRL (reqIx q)) SYNC_STAT_CTRL.INST i
  let s := syncOut syRoot 9 i 0 (bits v 3 1) (s.fs k SYNC_STAT_CTRL.BUSY 1)
  s.setInst i { s.inst i with stat := some ⟨bits v 1 2 == 0, bit v 3, none, []⟩ }

theorem writeStatCtrl_starts {q : Req} {v : Nat} {i : InstNo} (hgate : s.gateOpen q 6 = true) (hgo : bit v 0 = true)
    (hinst : if isVf q then q = .vf i else bits v 4 4 = i.val) (hwhen : bits v 1 2 ≤ 1)
    (hidle : s.fb (SYNC_STAT_CTRL (statCopy i.val)) SYNC_STAT_CTRL.BUSY = false) :
    writeStatCtrl q v s = (statStarted q i.val v s).done q cOK [] false := by
  unfold writeStatCtrl
  rw [State.gate_open hgate]
  have hw : ¬ bits v 1 2 > 1 := by omega
  cases q with
  | vf n =>
    obtain rfl : n = i := by simpa [isVf] using hinst
    simp [statStarted, isVf, hw, hgo, hidle]
  | _ =>
    replace hinst : bits v 4 4 = i.val := by simpa [isVf] using hinst
    simp [statStarted, isVf, hw, hgo, hidle, hinst]

@[simp] theorem statStarted_mem (q : Req) (i v : Nat) : (statStarted q i v s).mem = s.mem := by
  simp only [statStarted, syncOut]
  split <;> simp
@[simp] theorem statStarted_cpl (q : Req) (i v : Nat) : (statStarted q i v s).cpl = s.cpl := by
  simp only [statStarted, syncOut]
  split <;> simp
theorem statStarted_stat (q : Req) (i v : Nat) :
    ((statStarted q i v s).inst i).stat = some ⟨bits v 1 2 == 0, bit v 3, none, []⟩ := by
  rw [statStarted, State.inst_setInst_same]
theorem statStarted_busy (q : Req) (i v : Nat) :
    (statStarted q i v s).fv (SYNC_STAT_CTRL (statCopy i)) SYNC_STAT_CTRL.BUSY = 1 := by
  rw [statStarted, State.fv_setInst, syncOut, State.fv_emit, State.fv_fs_same _ (by decide)]
  rfl

/-! GO set in a written word -/

theorem bit_setBits_go (v : Nat) : bit (setBits v 0 1 1) 0 = true := by
  rw [bit, testBit_setBits]; rfl
theorem bit_setBits_go_ne (v : Nat) {j : Nat} (h : j ≠ 0) : bit (setBits v 0 1 1) j = bit v j := by
  rw [bit, testBit_setBits, if_neg (by omega), if_neg (by omega), bit]
theorem bits_setBits_go (v w : Nat) {lo : Nat} (h : 1 ≤ lo) : bits (setBits v 0 1 1) lo w = bits v lo w :=
  bits_setBits_disj v 0 1 1 lo w (.inr h)

/-- R187: an admitted write of SYNC_STAT_CTRL with GO = 1 starts the reduction and completes OK. -/
theorem exec_statReduceGo_starts {q : Req} {v : Word} {i : InstNo} (hgate : s.gateOpen q 6 = true)
    (hinst : if isVf q then q = .vf i else bits v.toNat 4 4 = i.val) (hwhen : bits v.toNat 1 2 ≤ 1)
    (hidle : s.fb (SYNC_STAT_CTRL (statCopy i.val)) SYNC_STAT_CTRL.BUSY = false) :
    exec (.statReduceGo q v) s = .next ((statStarted q i.val (setBits v.toNat 0 1 1) s).done q cOK [] false) := by
  show ok (writeStatCtrl q (setBits v.toNat 0 1 1) s) = _
  rw [writeStatCtrl_starts hgate (bit_setBits_go _) _ _ hidle]
  · rfl
  · rwa [bits_setBits_go _ _ (by decide)]
  · rwa [bits_setBits_go _ _ (by decide)]

/-! Its capture -/

/-- A capture that clears nothing leaves the state as it is. -/
theorem statCap_state (i c : Nat) : (statCap false i c s).2 = s := rfl

/-- A fold that keeps its state and appends `g c` for each `c` of `keep` collects those. -/
theorem foldl_collects {α β σ : Type} {f : List β × σ → α → List β × σ} {x : σ} (keep : α → Bool) (g : α → β)
    (hf : ∀ acc c, f (acc, x) c = (if keep c then acc ++ [g c] else acc, x)) (l : List α) (acc : List β) :
    l.foldl f (acc, x) = (acc ++ (l.filter keep).map g, x) := by
  induction l generalizing acc with
  | nil => simp
  | cons c l ih =>
    rw [List.foldl_cons, hf]
    cases h : keep c <;> simp [h, ih]

/-- R187: a capture that is due records the trackers of each cluster that is there. -/
theorem exec_statCapture_captures {i : InstNo} {b : Bool} {l : List Nat} (hask : (s.inst i.val).stat = some ⟨b, false, none, l⟩)
    (hdue : b = false ∨ atBoundary i.val s = true) :
    exec (.statCapture i) s = .next (s.setInst i.val { s.inst i.val with stat := some ⟨b, false,
      some (((s.instClusters i.val).filter fun c => !s.clGone c).map fun c => (statCap false i.val c s).1), l⟩ }) := by
  have hgo : (b && !atBoundary i.val s) = false := by rcases hdue with h | h <;> simp [h]
  show execStatCapture i s = _
  simp only [execStatCapture, hask, hgo, Bool.false_eq_true, if_false]
  rw [foldl_collects (fun c => !s.clGone c) (fun c => (statCap false i.val c s).1)
    fun acc c => by cases h : s.clGone c <;> simp [statCap_state]]
  rfl

/-! Its end -/

/-- `t` is `s` with other words in the registers that `K` names. -/
def WritesOnly (K : Nat → Prop) (s t : State) : Prop := (∃ rg, t = { s with regs := rg }) ∧ ∀ k, ¬ K k → t.rd k = s.rd k

theorem WritesOnly.refl {K : Nat → Prop} : WritesOnly K s s := ⟨⟨s.regs, rfl⟩, fun _ _ => rfl⟩
theorem WritesOnly.wr {K : Nat → Prop} (h : WritesOnly K s t) {k : Nat} (hk : K k) (v : Nat) : WritesOnly K s (t.wr k v) := by
  obtain ⟨⟨rg, rfl⟩, hrd⟩ := h
  exact ⟨⟨_, rfl⟩, fun j hj => (State.rd_wr_ne _ (by rintro rfl; exact hj hk) v).trans (hrd j hj)⟩

/-- The registers of copy `q` that hold the maxima of the partitions. -/
def IsPartMax (q k : Nat) : Prop := ∃ j < 4, k = SYNC_MAXABS_I_P q j ∨ k = SYNC_MAXABS_F_P q j

/-- The larger of each two, from 0. -/
def maxOf (l : List Nat) : Nat := l.foldl (fun a v => if v > a then v else a) 0

theorem maxOf_eq_foldl_max (l : List Nat) : maxOf l = l.foldl max 0 := by
  have h : (fun a v : Nat => if v > a then v else a) = max := by
    funext a v
    rw [Nat.max_def]
    split <;> split <;> omega
  rw [maxOf, h]

theorem foldl_max_lt {l : List Nat} {b : Nat} (hb : 0 < b) (h : ∀ v ∈ l, v < b) : l.foldl max 0 < b :=
  List.foldlRecOn (motive := (· < b)) l max hb fun _ ha v hv => Nat.max_lt.2 ⟨ha, h v hv⟩

/-- The maxima of the four partitions, written first. -/
def statParts (q : Nat) (cap : List (Nat × Nat × Nat × Nat × Nat)) (s : State) : State :=
  (List.range 4).foldl (fun s k =>
    let l := cap.filter fun r => partOf r.1 == k
    (s.wr (SYNC_MAXABS_I_P q k) (maxOf (l.map (·.2.1)))).wr (SYNC_MAXABS_F_P q k) (maxOf (l.map (·.2.2.1)))) s
/-- The device-wide results of a reduction, TAG and BUSY, written after the partitions'. -/
def statTotals (q : Nat) (cap : List (Nat × Nat × Nat × Nat × Nat)) (s : State) : State :=
  let s := (s.wr (SYNC_MAXABS_I_DEV q) (maxOf (cap.map (·.2.1)))).wr (SYNC_MAXABS_F_DEV q) (maxOf (cap.map (·.2.2.1)))
  let s := (s.wr64 (SYNC_CLIP_DEV q) (cap.foldl (fun a r => a + r.2.2.2.1) 0 % 2 ^ 64)).wr64
    (SYNC_ELEM_DEV q) (cap.foldl (fun a r => a + r.2.2.2.2) 0 % 2 ^ 64)
  let k := SYNC_STAT_CTRL q
  (s.fs k SYNC_STAT_CTRL.TAG ((s.fv k SYNC_STAT_CTRL.TAG + 1) % 65536)).fs k SYNC_STAT_CTRL.BUSY 0

/-- R187: when every cluster captured has answered, the results are written and the reduction is over. -/
theorem exec_statReduceComplete_completes {i : InstNo} {b c : Bool} {m : List (Nat × Nat × Nat × Nat × Nat)} {l : List Nat}
    (hcap : (s.inst i.val).stat = some ⟨b, c, some m, l⟩) (hall : m.all (fun r => l.contains r.1) = true) :
    exec (.statReduceComplete i) s = .next (
      let t := statTotals (statCopy i.val) m (statParts (statCopy i.val) m s)
      t.setInst i.val { t.inst i.val with stat := none }) := by
  show execStatReduceComplete i s = _
  simp only [execStatReduceComplete, hcap, hall, if_true]
  rfl

section
variable (q : Nat) (cap : List (Nat × Nat × Nat × Nat × Nat))

/-- The partitions' results touch no register but theirs. -/
theorem statParts_writesOnly : WritesOnly (IsPartMax q) s (statParts q cap s) :=
  List.foldlRecOn (List.range 4) _ .refl fun _ ht k hk =>
    have hk' := List.mem_range.1 hk
    (ht.wr ⟨k, hk', .inl rfl⟩ _).wr ⟨k, hk', .inr rfl⟩ _

theorem statParts_ctrl : (statParts q cap s).rd (SYNC_STAT_CTRL q) = s.rd (SYNC_STAT_CTRL q) := by
  refine (statParts_writesOnly q cap).2 _ ?_
  rintro ⟨j, -, h⟩
  unfold SYNC_STAT_CTRL SYNC_MAXABS_I_P SYNC_MAXABS_F_P bankKey at h
  omega

/-! TAG, BUSY and the device-wide maximum: no other write touches their words -/

theorem statTotals_busy : (statTotals q cap s).fv (SYNC_STAT_CTRL q) SYNC_STAT_CTRL.BUSY = 0 := by
  rw [statTotals, State.fv_fs_same _ (by decide), Nat.zero_mod]
theorem statTotals_tag : (statTotals q cap s).fv (SYNC_STAT_CTRL q) SYNC_STAT_CTRL.TAG =
    (s.fv (SYNC_STAT_CTRL q) SYNC_STAT_CTRL.TAG + 1) % 2 ^ 16 := by
  obtain ⟨hi, hf, hc, hc', he, he'⟩ : SYNC_STAT_CTRL q ≠ SYNC_MAXABS_I_DEV q ∧ SYNC_STAT_CTRL q ≠ SYNC_MAXABS_F_DEV q ∧
      SYNC_STAT_CTRL q ≠ SYNC_CLIP_DEV q ∧ SYNC_STAT_CTRL q ≠ SYNC_CLIP_DEV q + 4 ∧
      SYNC_STAT_CTRL q ≠ SYNC_ELEM_DEV q ∧ SYNC_STAT_CTRL q ≠ SYNC_ELEM_DEV q + 4 := by
    unfold SYNC_STAT_CTRL SYNC_MAXABS_I_DEV SYNC_MAXABS_F_DEV SYNC_CLIP_DEV SYNC_ELEM_DEV bankKey
    omega
  rw [statTotals, State.fv_fs_disj _ (by decide) (by decide) (by decide), State.fv_fs_same _ (by decide),
    fv_of_rd (s := s) (by decide)]
  · exact Nat.mod_mod _ _
  · rw [State.rd_wr64_ne _ he he', State.rd_wr64_ne _ hc hc', State.rd_wr_ne _ hf, State.rd_wr_ne _ hi]
theorem statTotals_maxI :
    (statTotals q cap s).rd (SYNC_MAXABS_I_DEV q) = maxOf (cap.map (·.2.1)) % 2 ^ 32 := by
  obtain ⟨hs, hf, hc, hc', he, he'⟩ : SYNC_MAXABS_I_DEV q ≠ SYNC_STAT_CTRL q ∧ SYNC_MAXABS_I_DEV q ≠ SYNC_MAXABS_F_DEV q ∧
      SYNC_MAXABS_I_DEV q ≠ SYNC_CLIP_DEV q ∧ SYNC_MAXABS_I_DEV q ≠ SYNC_CLIP_DEV q + 4 ∧
      SYNC_MAXABS_I_DEV q ≠ SYNC_ELEM_DEV q ∧ SYNC_MAXABS_I_DEV q ≠ SYNC_ELEM_DEV q + 4 := by
    unfold SYNC_STAT_CTRL SYNC_MAXABS_I_DEV SYNC_MAXABS_F_DEV SYNC_CLIP_DEV SYNC_ELEM_DEV bankKey
    omega
  rw [statTotals, State.rd_fs_ne _ (by decide) hs, State.rd_fs_ne _ (by decide) hs, State.rd_wr64_ne _ he he',
    State.rd_wr64_ne _ hc hc', State.rd_wr_ne _ hf, State.rd_wr_same]
@[simp] theorem statTotals_mem : (statTotals q cap s).mem = s.mem := by
  simp [statTotals]
@[simp] theorem statTotals_cpl : (statTotals q cap s).cpl = s.cpl := by
  simp [statTotals]

end

/-- Settles O17: each command has one explicit outcome; the completed entry's record, slot and writes to shared slices leave the array as
its release left it, and the registers of a reduction's results share no word. -/
theorem macDescriptorsAndStatisticsReductions : Obligations.MacDescriptorsAndStatisticsReductions := by
  unfold Obligations.MacDescriptorsAndStatisticsReductions
  refine ⟨?take, ?complete, ?start, ?capture, ?finish⟩
  case take =>
    rintro s c k e ⟨hstill, hentry⟩ ⟨hfree, hgo⟩ hvalid
    refine ⟨_, exec_macTakeQueued_takes hstill hentry hfree hgo hvalid, macHold_job _, macHold_busy _, ?_, macHold_frame _⟩
    exact fun j hj => rd_macHold_ne (by simpa using hj) _
  case complete =>
    rintro s c k feed held d e ⟨hstill, hjob, hentry⟩ ⟨hchain, -⟩
    obtain ⟨hmac, hstat⟩ := qComplete_macKept (p := pcid c k)
      (s := macHold (pcid c k) none (macRun (pcid c k) true d (macWaited (pcid c k) feed.toNat held.toNat s))) hchain cOK 0
    refine ⟨_, exec_macDescComplete_completes hstill hjob hentry hchain, ?_, ?_⟩
    · rw [hmac, macHold_job]
    · rw [fv_of_rd (by decide) hstat, macHold_busy]
      rfl
  case start =>
    intro s q v i hgate hinst hwhen hidle
    refine ⟨_, exec_statReduceGo_starts hgate hinst hwhen hidle, ?_, ?_, ?_, ?_⟩
    · rw [fv_of_rd (by decide) (State.done_ok_rd ..), statStarted_busy]
    · rw [State.inst_done, statStarted_stat, bits_setBits_go _ _ (by decide), bit_setBits_go_ne _ (by decide)]
    · rw [State.answered, State.done_cpl, statStarted_cpl]
    · rw [State.done_mem, statStarted_mem]
  case capture =>
    intro s i b l hask hdue
    exact ⟨_, exec_statCapture_captures hask hdue, by rw [State.inst_setInst_same], rfl⟩
  case finish =>
    rintro s i b c m l hcap ⟨hall, hbound⟩
    obtain ⟨⟨rg, hparts⟩, -⟩ := statParts_writesOnly (s := s) (statCopy i.val) m
    refine ⟨_, exec_statReduceComplete_completes hcap hall, ?_, ?_, ?_, ?_, ?_, ?_⟩
    · rw [State.inst_setInst_same]
    · rw [State.fv_setInst, statTotals_busy]
    · rw [State.fv_setInst, statTotals_tag, fv_of_rd (by decide) (statParts_ctrl ..)]
    · rw [State.rd_setInst, statTotals_maxI, maxOf_eq_foldl_max, Nat.mod_eq_of_lt]
      refine foldl_max_lt (by decide) fun v hv => ?_
      obtain ⟨r, hr, rfl⟩ := List.mem_map.1 hv
      exact of_decide_eq_true (List.all_eq_true.1 hbound r hr)
    · rw [State.setInst_mem, statTotals_mem, hparts]
    · rw [State.setInst_cpl, statTotals_cpl, hparts]

end Sys2Proof.MacArray
end
